-- ==== Sys2Proof/Word.lean ====
section
/-! DEFINITION. The word types of the FL440 and the index types of its fixed sets of like things. -/

namespace Sys2Proof

/-- One byte of a cell, a record or host memory. -/
abbrev Byte := BitVec 8

/-- A rack time or a stamp: a count of nanoseconds that wraps (R84, R85). -/
abbrev Time := BitVec 64

/-- A factory serial (R184). -/
abbrev Serial := BitVec 48

/-- A 32-bit wrapping counter (R19 and the counter rules of each unit). -/
abbrev Count := BitVec 32

/-- A frame number 0..31; 0 stands for an unnumbered frame or for none. -/
abbrev FrameNo := Fin 32

/-- A port P0..P3. -/
abbrev PortIx := Fin 4

/-- A trigger lane 0..15. -/
abbrev LaneIx := Fin 16

/-- A Stream Table slot 0..63. -/
abbrev SlotIx := Fin 64

/-- A notice lane 0..11 of the Exchange Area. -/
abbrev NoticeIx := Fin 12

/-- A note inbox slot 0..7. -/
abbrev InboxIx := Fin 8

end Sys2Proof
end

