-- ==== Sys2Proof/Fields.lean ====
section
/-! DEFINITION. The enumerated fields and the cell of the FL440, as the chapters name them. Their codes (R191) are in
Machine/Codes.lean. -/

namespace Sys2Proof

/-- The 18 cell kinds of the kind table (01, Cell kinds and delivery). -/
inductive Kind
  | probe | echo | time | trig | beacon | roll | hello | verdict | leaveCell | openCell | openAnswer | credit
  | blockack | halt | close | data | note | noteAnswer
  deriving DecidableEq, Repr

/-- A cell: the eight header fields of R2 and the payload bytes. Its check is computed when it is sent (R3). -/
structure Cell where
  kind : Kind
  origin : FrameNo
  dest : Byte
  hops : Fin 8
  incarnation : BitVec 16
  floodSeq : BitVec 16
  word : BitVec 32
  payload : List Byte
  deriving DecidableEq, Repr

/-- A received cell as the receive stage hands it on (R4): arrival port, arrival stamp, header fields (without the
kind, which the command names) and payload. `steps` is the signed sum of the rack time steps taken between the arrival
of its start delimiter and its acceptance (R95), 0 when none was taken. -/
structure Rx where
  port : PortIx
  stamp : Time
  steps : Int
  origin : FrameNo
  dest : Byte
  hops : Fin 8
  incarnation : BitVec 16
  floodSeq : BitVec 16
  word : BitVec 32
  payload : List Byte
  deriving DecidableEq, Repr

/-- What ended the collection of a cell on the line (R4, R5); with no delimiter, the cell outgrew a cell's length, or was
cut short where the port no longer builds cells. -/
inductive LineEnd
  | endDelimiter | startDelimiter | otherSymbol | noDelimiter
  deriving DecidableEq, Repr

/-- The data symbols a receive stage collected after a start delimiter, and what ended the collection (R5). -/
structure RawCell where
  bytes : List Byte
  ending : LineEnd
  deriving DecidableEq, Repr

/-- The four receive errors of R5, in the order they are tested. -/
inductive RxError
  | delimit | length | check | kind
  deriving DecidableEq, Repr

/-- What a receiver loses (R23, R35): its signal (and with it the lock), or the symbol lock alone. -/
inductive LineLoss
  | signal | lock
  deriving DecidableEq, Repr

/-- Port states (R20). -/
inductive PortState
  | held | dark | lockout | training | up | faulted
  deriving DecidableEq, Repr

/-- Causes of a port's state change (R21). -/
inductive PortCause
  | reset | wake | noise | quiet | trained | timeout | lost | loopback | changed | health | pulled | retrain | silent
  | hold | release | armed
  deriving DecidableEq, Repr

/-- What a port's transmitter sends (02, table of port states). -/
inductive Transmitting
  | off | silent | trainingSymbols | cells | idleOnly
  deriving DecidableEq, Repr

/-- Timebase states (R84). -/
inductive TimeState
  | free | master | acquiring | locked | holdover
  deriving DecidableEq, Repr

/-- The part's own membership state (R60). -/
inductive Standing
  | unnumbered | alone | seeking | held | member | refused | leaving
  deriving DecidableEq, Repr

/-- Roster entry states (R61). -/
inductive EntryState
  | vacant | quarantined | member | stray | leaving | refused
  deriving DecidableEq, Repr

/-- Answers of a VERDICT (R75). -/
inductive Answer
  | admitted | quarantined | refused | wait
  deriving DecidableEq, Repr

/-- Reasons of a refusal (R75). -/
inductive RefusalReason
  | none | duplicate | prior | timeout | host
  deriving DecidableEq, Repr

/-- Input stages of a trigger lane (R103). -/
inductive InputStage
  | idle | asserted | muted
  deriving DecidableEq, Repr

/-- Results of an insertion into the Trigger Schedule (R109). -/
inductive Insertion
  | outputOff | merged | late | dropped | scheduled
  deriving DecidableEq, Repr

/-- Roles of a stream slot (R117). -/
inductive Role
  | source | sink
  deriving DecidableEq, Repr

/-- States of a stream slot, of sources and sinks together (R117). -/
inductive StreamState
  | closed | opening | armed | flowing | timeheld | halted | stranded | draining | offered
  deriving DecidableEq, Repr

/-- Causes of a stream slot's state change (R191, stream cause). -/
inductive StreamCause
  | none | offered | opening | accepted | halt | peerHalt | resumed | gate | timebase | drain | returned
  | peerUnreachable | peerStray | notMember | peerLeaving | finish | leaving | cancelled | noOffer | mismatch | full
  | unreachable | closed | peerClosed | peerLost | ended | exchangeReset | exchangeBroken | memoryFault
  deriving DecidableEq, Repr

/-- The start gate of a source (R126). -/
inductive Gate
  | now
  | atTime (t : Time)
  | onLane (k : LaneIx)
  deriving DecidableEq, Repr

/-- How a source drains: under FINISH (R138; LEAVE drains the same way, R137), under FINISH after its peer began to
leave, or for a leaving peer (R136). -/
inductive DrainMode
  | finish | finishPeerLeaving | peerLeaving
  deriving DecidableEq, Repr

/-- Reasons carried by a CLOSE (R140). -/
inductive CloseReason
  | abort | unmatched | exchangeReset | exchangeBroken
  deriving DecidableEq, Repr

/-- Answers of an OPEN_ANSWER (R123). -/
inductive OpenAnswer
  | accept | noOffer | mismatch | full
  deriving DecidableEq, Repr

/-- Stages of a fetched record (R145), of sources and sinks together. -/
inductive Stage
  | waiting | sending | sent | credited | assembling | faulted | resolved
  deriving DecidableEq, Repr

/-- Block outcomes (R144). -/
inductive BlockOutcome
  | delivered | damaged | unconfirmed | discarded | rejected | ended
  deriving DecidableEq, Repr

/-- Stops of a Block Record fetch (R146). -/
inductive FetchStop
  | notPosted | tail | memoryFault
  deriving DecidableEq, Repr

/-- Exchange states (R168). -/
inductive ExState
  | detached | attached | stalled | broken
  deriving DecidableEq, Repr

/-- Causes of a stall (R167). -/
inductive StallCause
  | badHeader | brokenChain | memoryFault
  deriving DecidableEq, Repr

/-- Order outcomes (R173), in the order of the outcome table. -/
inductive Outcome
  | done | badKind | badOrder | wrongState | notMember | notAnchor | notHeld | unreachable | slotBusy | noOffer
  | mismatch | full | cancelled | noTime | tooSoon | busy | notAttached | unconfirmed | inUse | storeFailed
  | memoryFault
  deriving DecidableEq, Repr

/-- The order kinds of R191. -/
inductive OrderKind
  | nop | readState | armPort | holdPort | join | leave | admitFrame | refuse | setFilter | scheduleTrigger
  | cancelTrigger | openStream | closeStream | haltStream | resumeStream | sendNote | setSettings | storeSettings
  deriving DecidableEq, Repr

/-- The units that own orders (R172). -/
inductive OrderOwner
  | exchange | ports | roster | trigger | stream | notePath | settings
  deriving DecidableEq, Repr

/-- ERRORS kinds (R181). -/
inductive ErrorKind
  | memoryFault | brokenChain | badHeader | settingsLost
  deriving DecidableEq, Repr

/-- The "what" of an ERRORS notice (R181). -/
inductive What
  | none | headerRead | orderRead | orderWrite | parameterRead | snapshotWrite | mirrorWrite | statusWrite | laneWrite
  | rescanRead | inboxWrite | noteBodyRead | blockRecordRead | blockRecordWrite | bufferRead | bufferWrite
  deriving DecidableEq, Repr

/-- Snapshot kinds of READ_STATE (R175). -/
inductive SnapshotKind
  | roster | reach | ports | timebase | triggers | settings | identity | streamSlot
  deriving DecidableEq, Repr

/-- Answers of a NOTE_ANSWER (R164). -/
inductive NoteAnswer
  | accepted | busy | notAttached
  deriving DecidableEq, Repr

/-- The wake interval setting (R185): 0.5, 1 or 2 s. -/
inductive WakeInterval
  | half | one | two
  deriving DecidableEq, Repr

/-- Where the working settings came from (R185). -/
inductive SettingsOrigin
  | stored | defaults
  deriving DecidableEq, Repr

end Sys2Proof
end

