-- ==== Sys2Proof/Syntax.lean ====
section
/-! DEFINITION. The commands the FL440 takes: one constructor for each row of spec/opcode_table.json, in the table's
order. An order row has no operand of its own: the order's parameters are the bytes read at its fetch (R172), held in
the order window. -/

namespace Sys2Proof

/-- The commands. -/
inductive Instr
  | deviceReset
  | resetInputAsserted
  | wakeInterval (p : PortIx)
  | wakeReceived (p : PortIx)
  | noise (p : PortIx)
  | quiet (p : PortIx)
  | symbolLock (p : PortIx)
  | lossOfSignal (p : PortIx) (what : LineLoss)
  | timeout (p : PortIx)
  | probeTimer (p : PortIx)
  | silent (p : PortIx)
  | erroneousCell (p : PortIx) (raw : RawCell)
  | probe (rx : Rx)
  | echo (rx : Rx)
  | time (rx : Rx)
  | trig (rx : Rx)
  | beacon (rx : Rx)
  | roll (rx : Rx)
  | hello (rx : Rx)
  | verdict (rx : Rx)
  | leaveCell (rx : Rx)
  | openCell (rx : Rx)
  | openAnswer (rx : Rx)
  | credit (rx : Rx)
  | blockack (rx : Rx)
  | halt (rx : Rx)
  | close (rx : Rx)
  | data (rx : Rx)
  | note (rx : Rx)
  | noteAnswer (rx : Rx)
  | relay (k : Kind) (rx : Rx)
  | arbiterDecision (p : PortIx)
  | dataCellSent (p : PortIx)
  | periodTimer
  | anchorSilence
  | helloTimer
  | rollTimer
  | windowDeadline
  | strayDeadline (f : FrameNo)
  | leaveLimit
  | emissionTimer
  | timeWatch
  | holdoverLimit
  | enabledEdge (k : LaneIx)
  | inputDeasserted (k : LaneIx)
  | holdLimit (k : LaneIx)
  | unmuteTimer (k : LaneIx)
  | firing
  | pulseEnd (k : LaneIx)
  | openRepeat (n : SlotIx)
  | openLimit (n : SlotIx)
  | startGate (n : SlotIx)
  | pacePoint (n : SlotIx)
  | creditPeriod (n : SlotIx)
  | haltRepeat (n : SlotIx)
  | strandDeadline (n : SlotIx)
  | closeDeadline (n : SlotIx)
  | acknowledgementTimer (n : SlotIx) (block : BitVec 32)
  | blockRecordFetch (n : SlotIx)
  | blockStart (n : SlotIx)
  | answerTimer (number : BitVec 16)
  | waitingNoteTaken
  | baseLo (value : BitVec 32)
  | baseHi (value : BitVec 32)
  | nudgeOrderChain
  | nudgeBlockChain (n : SlotIx)
  | nudgeRescan
  | line (value : BitVec 32)
  | ignoredRegisterWrite (offset : BitVec 8) (value : BitVec 32)
  | orderFetch
  | nop
  | readState
  | armPort
  | holdPort
  | join
  | leave
  | admitFrame
  | refuse
  | setFilter
  | scheduleTrigger
  | cancelTrigger
  | openStream
  | closeStream
  | haltStream
  | resumeStream
  | sendNote
  | setSettings
  | storeSettings
  | badKind
  | storeEnd (verified : Bool)
  | resynchronisation (p : PortIx)
  | signalPresent (p : PortIx)
  deriving DecidableEq, Repr

end Sys2Proof
end

