-- ==== Sys2Proof/Config.lean ====
section
/-! DEFINITION. What is fixed for one part: the IDENT codes of R191's register layout, and the values named for what
the spec fixes only at manufacture (assumption log entries 2 and 3); and the free order of receivers that the spec does
not order (entry 6). -/

namespace Sys2Proof.Config

/-- Vendor code, IDENT bits 0..15 (12, Registers). -/
def vendorCode : BitVec 16 := 0x47D3

/-- Part code, IDENT bits 16..23 (12, Registers). -/
def partCode : BitVec 8 := 0x44

/-- The revision of IDENT bits 24..31. DESIGN CHOICE, unsafe (entry 3): the spec gives no value. -/
def revision : BitVec 8 := 0

/-- The factory serial of the part after State.reset. DESIGN CHOICE, unsafe (entry 3): the spec says it is never 0. -/
def serial : Serial := 1

/-- The factory class of the part after State.reset. DESIGN CHOICE, unsafe (entry 3). -/
def frameClass : BitVec 16 := 0

/-- The capability set of the part after State.reset. DESIGN CHOICE, unsafe (entry 3). -/
def capabilities : BitVec 32 := 0

/-- The incarnation counter after State.reset. DESIGN CHOICE, unsafe (entry 3). -/
def incarnation : BitVec 16 := 0

/-- The free choices among unordered receivers, one for each race. Nothing constrains it (DESIGN CHOICE, safe: entry 6).
-/
opaque freeChoice : Nat → Nat

end Sys2Proof.Config
end

