-- ==== Sys2Proof/Machine/Constants.lean ====
section
/-! DEFINITION. The numbers of the FL440: durations in ns of the local oscillator, and capacities. -/

namespace Sys2Proof.Machine

/-- One microsecond in ns. -/
def microsecond : Nat := 1000

/-- One millisecond in ns. -/
def millisecond : Nat := 1000000

/-- One second in ns. -/
def second : Nat := 1000000000

/-- Signal without lock makes a DARK port LOCKOUT (R23). -/
def noiseLimit : Nat := 10 * millisecond

/-- The quiet count of LOCKOUT (R24). -/
def quietLimit : Nat := 1 * millisecond

/-- The training limit (R29). -/
def trainingLimit : Nat := 100 * millisecond

/-- The probe period while TRAINING (R25). -/
def probePeriodTraining : Nat := 10 * millisecond

/-- The probe period while UP (R30). -/
def probePeriodUp : Nat := 100 * millisecond

/-- The silence watch of an UP port (R36). -/
def silenceLimit : Nat := 60 * millisecond

/-- The reach period (R45). -/
def reachPeriod : Nat := 20 * millisecond

/-- The anchor silence limit (R66). -/
def anchorSilenceLimit : Nat := 60 * millisecond

/-- The HELLO period (R72). -/
def helloPeriod : Nat := 500 * millisecond

/-- The ROLL period (R70). -/
def rollPeriod : Nat := 200 * millisecond

/-- The stray deadline after an entry becomes STRAY (R79). -/
def strayTime : Nat := 2 * second

/-- The limit after which a LEAVE order may complete (R80). -/
def leaveLimit : Nat := 1 * second

/-- The TIME emission period (R93). -/
def emissionPeriod : Nat := 1 * millisecond

/-- The TIME watch (R98). -/
def timeWatchLimit : Nat := 5 * millisecond

/-- The unmute timer of a lane input (R106). -/
def unmuteTime : Nat := 1 * millisecond

/-- The OPEN repetition period (R122). -/
def openPeriod : Nat := 50 * millisecond

/-- The open limit (R124). -/
def openLimitTime : Nat := 2 * second

/-- The CREDIT period (R130). -/
def creditPeriodTime : Nat := 10 * millisecond

/-- The HALT repetition period (R131). -/
def haltPeriod : Nat := 10 * millisecond

/-- The acknowledgement timer (R155). -/
def ackTime : Nat := 100 * millisecond

/-- The answer timer of a note (R164). -/
def answerTime : Nat := 100 * millisecond

/-- Slew is at most 1 ns in this many ns (R85: 10 ppm). -/
def slewDivisor : Nat := 100000

/-- Line time of one data, delimiter or IDLE symbol in ns (entry 11: 8 Gbit/s carries cell bytes). -/
def symbolTime : Nat := 1

/-- IDLE symbols after an end delimiter (R1). -/
def gapSymbols : Nat := 8

/-- Capacity of the T queue (R14). -/
def tCapacity : Nat := 8

/-- Capacity of the C queue (R14). -/
def cCapacity : Nat := 32

/-- Capacity of the D relay queue (R14). -/
def dCapacity : Nat := 64

/-- The largest hops taken (R2). -/
def maxHops : Nat := 7

/-- Capacity of the order window (R171). -/
def orderCapacity : Nat := 16

/-- Capacity of the Trigger Schedule (R103). -/
def scheduleCapacity : Nat := 32

/-- Capacity of the note window (R160). -/
def noteCapacity : Nat := 4

end Sys2Proof.Machine
end

