-- ==== Sys2Proof/Machine/Codes.lean ====
section
/-! DEFINITION. The encodings of R191: byte orders, the codes of every enumeration and back, and the sequence and rank
comparisons of the Conventions. -/

namespace Sys2Proof.Machine

/-! ## Numbers and bytes -/

/-- The low `n` bytes of a value, least significant first (R191, host memory). -/
def leBytes : Nat → Nat → List Byte
  | 0, _ => []
  | n + 1, v => BitVec.ofNat 8 v :: leBytes n (v / 256)

/-- The value of bytes, least significant first. -/
def leNat : List Byte → Nat
  | [] => 0
  | b :: bs => b.toNat + 256 * leNat bs

/-- The low `n` bytes of a value, most significant first (R191, the cable). -/
def beBytes (n v : Nat) : List Byte := (leBytes n v).reverse

/-- The value of bytes, most significant first. -/
def beNat (bs : List Byte) : Nat := leNat bs.reverse

/-- The `n` bytes at an offset. -/
def bytesAt (bs : List Byte) (off n : Nat) : List Byte := (bs.drop off).take n

/-- The value of the `n` bytes at an offset, least significant first. -/
def leAt (bs : List Byte) (off n : Nat) : Nat := leNat (bytesAt bs off n)

/-- The value of the `n` bytes at an offset, most significant first. -/
def beAt (bs : List Byte) (off n : Nat) : Nat := beNat (bytesAt bs off n)

/-- `n` zero bytes (reserved bytes, R192). -/
def zeros (n : Nat) : List Byte := List.replicate n 0

/-- A flag as written: 1 when set (R191). -/
def flagCode (b : Bool) : Nat := if b then 1 else 0

/-- The 64-bit two's complement of a signed value (R191). -/
def signed64 (i : Int) : Nat := (BitVec.ofInt 64 i).toNat

/-- Bytes padded with zeros to a length. -/
def padTo (n : Nat) (bs : List Byte) : List Byte := bs ++ zeros (n - bs.length)

/-! ## Comparisons (00, Conventions) -/

/-- `a` is newer than `b` by the N-bit sequence comparison. -/
def newer {n : Nat} (a b : BitVec n) : Bool :=
  let d := (a - b).toNat
  decide (1 ≤ d ∧ d ≤ 2 ^ (n - 1) - 1)

/-- `a` is older than `b`: neither equal nor newer, so that a value half the range away is older. -/
def older {n : Nat} (a b : BitVec n) : Bool := !newer a b && a != b

/-- The rank comparison: candidate (rank, frame) `a` is better than `b`. -/
def betterRank (a b : Nat × Nat) : Bool := decide (b.1 < a.1) || (a.1 == b.1 && decide (a.2 < b.2))

/-! ## Codes (R191) -/

/-- The value of a list whose code is the one read, if any. -/
def ofCode {α : Type} (all : List α) (code : α → Nat) (n : Nat) : Option α := all.find? (fun a => code a == n)

def Kind.all : List Kind :=
  [.probe, .echo, .time, .trig, .beacon, .roll, .hello, .verdict, .leaveCell, .openCell, .openAnswer, .credit,
   .blockack, .halt, .close, .data, .note, .noteAnswer]

/-- Cell kinds 1..18 in the order of the kind table. The table lists CREDIT, BLOCKACK, HALT, CLOSE, DATA, NOTE,
NOTE_ANSWER as 12 to 18. -/
def kindCode : Kind → Nat
  | .probe => 1 | .echo => 2 | .time => 3 | .trig => 4 | .beacon => 5 | .roll => 6 | .hello => 7 | .verdict => 8
  | .leaveCell => 9 | .openCell => 10 | .openAnswer => 11 | .credit => 12 | .blockack => 13 | .halt => 14
  | .close => 15 | .data => 16 | .note => 17 | .noteAnswer => 18

def kindOfCode : Nat → Option Kind := ofCode Kind.all kindCode

def timeStateCode : TimeState → Nat
  | .free => 0 | .master => 1 | .acquiring => 2 | .locked => 3 | .holdover => 4

def timeStateOfCode : Nat → Option TimeState := ofCode [.free, .master, .acquiring, .locked, .holdover] timeStateCode

def standingCode : Standing → Nat
  | .unnumbered => 0 | .alone => 1 | .seeking => 2 | .held => 3 | .member => 4 | .refused => 5 | .leaving => 6

def standingOfCode : Nat → Option Standing :=
  ofCode [.unnumbered, .alone, .seeking, .held, .member, .refused, .leaving] standingCode

def entryStateCode : EntryState → Nat
  | .vacant => 0 | .quarantined => 1 | .member => 2 | .stray => 3 | .leaving => 4 | .refused => 5

def entryStateOfCode : Nat → Option EntryState :=
  ofCode [.vacant, .quarantined, .member, .stray, .leaving, .refused] entryStateCode

def portStateCode : PortState → Nat
  | .held => 0 | .dark => 1 | .lockout => 2 | .training => 3 | .up => 4 | .faulted => 5

def portCauseCode : PortCause → Nat
  | .reset => 0 | .wake => 1 | .noise => 2 | .quiet => 3 | .trained => 4 | .timeout => 5 | .lost => 6 | .loopback => 7
  | .changed => 8 | .health => 9 | .pulled => 10 | .retrain => 11 | .silent => 12 | .hold => 13 | .release => 14
  | .armed => 15

def exStateCode : ExState → Nat
  | .detached => 0 | .attached => 1 | .stalled => 2 | .broken => 3

/-- POSTED as a record state byte. -/
def posted : Nat := 1

/-- DONE as a record state byte. -/
def doneState : Nat := 2

def OrderKind.all : List OrderKind :=
  [.nop, .readState, .armPort, .holdPort, .join, .leave, .admitFrame, .refuse, .setFilter, .scheduleTrigger,
   .cancelTrigger, .openStream, .closeStream, .haltStream, .resumeStream, .sendNote, .setSettings, .storeSettings]

def orderKindCode : OrderKind → Nat
  | .nop => 1 | .readState => 2 | .armPort => 3 | .holdPort => 4 | .join => 5 | .leave => 6 | .admitFrame => 7
  | .refuse => 8 | .setFilter => 9 | .scheduleTrigger => 10 | .cancelTrigger => 11 | .openStream => 12
  | .closeStream => 13 | .haltStream => 14 | .resumeStream => 15 | .sendNote => 16 | .setSettings => 17
  | .storeSettings => 18

def orderKindOfCode : Nat → Option OrderKind := ofCode OrderKind.all orderKindCode

def outcomeCode : Outcome → Nat
  | .done => 0 | .badKind => 1 | .badOrder => 2 | .wrongState => 3 | .notMember => 4 | .notAnchor => 5 | .notHeld => 6
  | .unreachable => 7 | .slotBusy => 8 | .noOffer => 9 | .mismatch => 10 | .full => 11 | .cancelled => 12
  | .noTime => 13 | .tooSoon => 14 | .busy => 15 | .notAttached => 16 | .unconfirmed => 17 | .inUse => 18
  | .storeFailed => 19 | .memoryFault => 20

def blockOutcomeCode : BlockOutcome → Nat
  | .delivered => 1 | .damaged => 2 | .unconfirmed => 3 | .discarded => 4 | .rejected => 5 | .ended => 6

/-- The results a BLOCKACK can carry: DELIVERED 1, DAMAGED 2, END 6. -/
def ackResultOfCode : Nat → Option BlockOutcome := ofCode [.delivered, .damaged, .ended] blockOutcomeCode

def roleCode : Role → Nat
  | .source => 0 | .sink => 1

def streamStateCode : StreamState → Nat
  | .closed => 0 | .opening => 1 | .armed => 2 | .flowing => 3 | .timeheld => 4 | .halted => 5 | .stranded => 6
  | .draining => 7 | .offered => 1

def streamCauseCode : StreamCause → Nat
  | .none => 0 | .offered => 1 | .opening => 2 | .accepted => 3 | .halt => 4 | .peerHalt => 5 | .resumed => 6
  | .gate => 7 | .timebase => 8 | .drain => 9 | .returned => 10 | .peerUnreachable => 11 | .peerStray => 12
  | .notMember => 13 | .peerLeaving => 14 | .finish => 15 | .leaving => 16 | .cancelled => 17 | .noOffer => 18
  | .mismatch => 19 | .full => 20 | .unreachable => 21 | .closed => 22 | .peerClosed => 23 | .peerLost => 24
  | .ended => 25 | .exchangeReset => 26 | .exchangeBroken => 27 | .memoryFault => 28

def errorKindCode : ErrorKind → Nat
  | .memoryFault => 1 | .brokenChain => 2 | .badHeader => 3 | .settingsLost => 4

def whatCode : What → Nat
  | .none => 0 | .headerRead => 1 | .orderRead => 2 | .orderWrite => 3 | .parameterRead => 4 | .snapshotWrite => 5
  | .mirrorWrite => 6 | .statusWrite => 7 | .laneWrite => 8 | .rescanRead => 9 | .inboxWrite => 10
  | .noteBodyRead => 11 | .blockRecordRead => 12 | .blockRecordWrite => 13 | .bufferRead => 14 | .bufferWrite => 15

def snapshotKindCode : SnapshotKind → Nat
  | .roster => 0 | .reach => 1 | .ports => 2 | .timebase => 3 | .triggers => 4 | .settings => 5 | .identity => 6
  | .streamSlot => 7

def snapshotKindOfCode : Nat → Option SnapshotKind :=
  ofCode [.roster, .reach, .ports, .timebase, .triggers, .settings, .identity, .streamSlot] snapshotKindCode

def answerCode : Answer → Nat
  | .admitted => 1 | .quarantined => 2 | .refused => 3 | .wait => 4

def answerOfCode : Nat → Option Answer := ofCode [.admitted, .quarantined, .refused, .wait] answerCode

def reasonCode : RefusalReason → Nat
  | .none => 0 | .duplicate => 1 | .prior => 2 | .timeout => 3 | .host => 4

def reasonOfCode : Nat → Option RefusalReason := ofCode [.none, .duplicate, .prior, .timeout, .host] reasonCode

def openAnswerCode : OpenAnswer → Nat
  | .accept => 1 | .noOffer => 2 | .mismatch => 3 | .full => 4

def openAnswerOfCode : Nat → Option OpenAnswer := ofCode [.accept, .noOffer, .mismatch, .full] openAnswerCode

def closeReasonCode : CloseReason → Nat
  | .abort => 1 | .unmatched => 2 | .exchangeReset => 3 | .exchangeBroken => 4

def closeReasonOfCode : Nat → Option CloseReason :=
  ofCode [.abort, .unmatched, .exchangeReset, .exchangeBroken] closeReasonCode

def noteAnswerCode : NoteAnswer → Nat
  | .accepted => 1 | .busy => 2 | .notAttached => 3

def noteAnswerOfCode : Nat → Option NoteAnswer := ofCode [.accepted, .busy, .notAttached] noteAnswerCode

/-- Trigger insertion results (R191): an insertion LATE reports its own lateness to no order, so it has no code of its
own in the table (R114 states the results an order gives). -/
def insertionCode : Insertion → Nat
  | .scheduled => 1 | .merged => 2 | .dropped => 3 | .outputOff => 4 | .late => 0

def inputStageCode : InputStage → Nat
  | .idle => 0 | .asserted => 1 | .muted => 2

def stageCode : Stage → Nat
  | .waiting => 0 | .sending => 1 | .sent => 2 | .credited => 0 | .assembling => 1 | .faulted => 2 | .resolved => 3

def settingsOriginCode : SettingsOrigin → Nat
  | .stored => 0 | .defaults => 1

def stallCauseCode : Option StallCause → Nat
  | none => 0
  | some .badHeader => 1
  | some .brokenChain => 2
  | some .memoryFault => 3

def gateCode : Gate → Nat
  | .now => 0
  | .atTime _ => 1
  | .onLane _ => 2

def wakeCode : WakeInterval → Nat
  | .half => 0 | .one => 1 | .two => 2

def wakeOfCode : Nat → Option WakeInterval := ofCode [.half, .one, .two] wakeCode

/-- The wake interval in ns (R185). -/
def wakeTime : WakeInterval → Nat
  | .half => 500 * millisecond
  | .one => 1 * second
  | .two => 2 * second

/-- The quality codes (R191). -/
def qualityNone : Nat := 0
def qualityGood : Nat := 1
def qualityHeld : Nat := 2

end Sys2Proof.Machine
end

