-- ==== Sys2Proof/Machine/State.lean ====
section
/-! DEFINITION. The state of the FL440, unit by unit, and the state right after a device reset (R186). Tables over
frames are indexed by the frame number 0..31; index 0 is no entry of the spec's and stays at its reset value. Moments
and timers are readings of the local oscillator `now` in ns; a stopped timer is none. -/

namespace Sys2Proof.Machine

/-! ## Port units (R20) -/

/-- A PROBE sent and not yet answered (R20): its number, its departure time, which is the rack time of its start
delimiter (R26), and the signed sum of the steps taken since (R28). -/
structure OutstandingProbe where
  number : BitVec 8
  departure : Time
  steps : BitVec 64
  deriving DecidableEq, Repr

/-- The receive stage's condition (R7): ignoring the line with some IDLE symbols counted, or ready for a cell. -/
inductive RxStage
  | ignoring (idles : Nat)
  | ready
  deriving DecidableEq, Repr

/-- The port record of R20 with the timers and line conditions of R22 to R36. -/
structure Port where
  state : PortState
  cause : PortCause
  health : Nat
  settling : Nat
  partnerSerial : Serial
  partnerFrame : FrameNo
  partnerPort : PortIx
  partnerIncarnation : BitVec 16
  samples : List Nat
  attempts : BitVec 16
  probeNumber : BitVec 8
  outstanding : Option OutstandingProbe
  outliers : Count
  missedEchoes : Count
  rxStage : RxStage
  trips : Nat
  lastNull : Bool
  signal : Bool
  lock : Bool
  bursts : Count
  lastBurst : Nat
  noiseSince : Option Nat
  quietSince : Option Nat
  trainingSince : Option Nat
  lastProbe : Option Nat
  silenceSince : Option Nat
  deriving DecidableEq, Repr

/-- A port after device reset with its enable setting on: DARK, its entry burst sent (R20, R22). -/
def Port.reset : Port where
  state := .dark
  cause := .reset
  health := 0
  settling := 0
  partnerSerial := 0
  partnerFrame := 0
  partnerPort := 0
  partnerIncarnation := 0
  samples := []
  attempts := 0
  probeNumber := 0
  outstanding := none
  outliers := 0
  missedEchoes := 0
  rxStage := .ignoring 0
  trips := 0
  lastNull := false
  signal := false
  lock := false
  bursts := 1
  lastBurst := 0
  noiseSince := none
  quietSince := none
  trainingSince := none
  lastProbe := none
  silenceSince := none

/-! ## Cell switch (R9, R14, R15, R19) -/

/-- A queued cell; an ECHO keeps the arrival stamp of the PROBE it answers, corrected by later steps (R16, R26). -/
structure Queued where
  cell : Cell
  answers : Option Time
  deriving DecidableEq, Repr

/-- A cell of a local source block: its slot, opening, block, cell index, sample bytes and last flag (R151). -/
structure LocalCell where
  slot : SlotIx
  openNumber : BitVec 16
  block : BitVec 32
  index : Nat
  bytes : Nat
  last : Bool
  deriving DecidableEq, Repr

/-- A cell on the line; `src` for a local DATA cell; `endsAt` the moment its end delimiter is sent. -/
structure OnLine where
  cell : Cell
  src : Option LocalCell
  endsAt : Nat
  deriving DecidableEq, Repr

/-- The port counters of R19. -/
structure PortCounters where
  delimit : Count
  length : Count
  check : Count
  kind : Count
  trainingDiscard : Count
  own : Count
  noroute : Count
  reflect : Count
  hops : Count
  tDrops : Count
  cDrops : Count
  dDrops : Count
  flush : Count
  reroute : Count
  deriving DecidableEq, Repr

/-- Every counter 0. -/
def PortCounters.zero : PortCounters := ⟨0, 0, 0, 0, 0, 0, 0, 0, 0, 0, 0, 0, 0, 0⟩

/-- One port's share of the cell switch: the queues of R14, the arbiter's turn of R15 (0 the relay queue, k + 1 slot
k, the participant served last), the transmitter and the counters of R19. -/
structure Link where
  tQueue : List Queued
  cQueue : List Queued
  dQueue : List Queued
  turn : Fin 65
  line : Option OnLine
  gapEnds : Nat
  counters : PortCounters
  deriving DecidableEq, Repr

/-- A port's queues, transmitter and counters after device reset (R14, R15, R19). -/
def Link.reset : Link where
  tQueue := []
  cQueue := []
  dQueue := []
  turn := 64
  line := none
  gapEnds := 0
  counters := .zero

/-- A filled flood memory record (R9). -/
structure FloodRecord where
  incarnation : BitVec 16
  sequence : BitVec 16
  deriving DecidableEq, Repr

/-- The three flood memory records of one origin (R9). -/
structure FloodRow where
  trig : Option FloodRecord
  beacon : Option FloodRecord
  roll : Option FloodRecord
  deriving DecidableEq, Repr

/-- Every record empty. -/
def FloodRow.empty : FloodRow := ⟨none, none, none⟩

/-! ## Reach unit (R43, R46, R59) -/

/-- The beacon contents record of R46, its fields as the payload carries them. -/
structure Contents where
  frame : Byte
  anchorRank : Byte
  timeRank : Byte
  timeState : Byte
  serial : Serial
  incarnation : BitVec 16
  generation : BitVec 32
  followedAnchor : Byte
  followedMaster : Byte
  standing : Byte
  leaving : Byte
  deriving DecidableEq, Repr

/-- A REACHABLE entry of the Reach Table (R43). -/
structure Route where
  hops : Nat
  port : PortIx
  incarnation : BitVec 16
  sequence : BitVec 16
  age : Nat
  refreshed : Bool
  contents : Contents
  deriving DecidableEq, Repr

/-- The counters of R59. -/
structure ReachCounters where
  learned : Count
  improved : Count
  late : Count
  stale : Count
  far : Count
  malformed : Count
  conflict : Count
  lost : Count
  deriving DecidableEq, Repr

/-- The reach unit (R43). An UNKNOWN entry is none. -/
structure Reach where
  table : Vector (Option Route) 32
  ownSequence : BitVec 16
  portSet : Vector Bool 4
  lastPeriod : Nat
  counters : ReachCounters
  deriving DecidableEq, Repr

/-- The reach unit after device reset (R43). -/
def Reach.reset : Reach where
  table := Vector.replicate 32 none
  ownSequence := 0
  portSet := Vector.replicate 4 false
  lastPeriod := 0
  counters := ⟨0, 0, 0, 0, 0, 0, 0, 0⟩

/-! ## Roster unit (R60, R61, R83, R195) -/

/-- What the anchor holds of a candidate's latest HELLO (R61, R195). -/
structure Identity where
  frameClass : BitVec 16
  capabilities : BitVec 32
  rejoin : Bool
  entryFrame : FrameNo
  entryPort : PortIx
  deriving DecidableEq, Repr

/-- One roster copy entry (R61). The deadline is the window deadline of a QUARANTINED and the stray deadline of a
STRAY entry. -/
structure RosterEntry where
  state : EntryState
  serial : Serial
  identity : Option Identity
  deadline : Option Nat
  deriving DecidableEq, Repr

/-- A VACANT entry. -/
def RosterEntry.vacant : RosterEntry := ⟨.vacant, 0, none, none⟩

/-- A LEAVE order in progress: its sequence on the order chain and the moment it was taken (R80). -/
structure LeaveOrder where
  order : BitVec 32
  since : Nat
  deriving DecidableEq, Repr

/-- The counters of R83. -/
structure RosterCounters where
  helloForwarded : Count
  helloDropped : Count
  verdictForwarded : Count
  verdictDropped : Count
  leaveDropped : Count
  rollIgnored : Count
  deriving DecidableEq, Repr

/-- The roster unit (R60). -/
structure Roster where
  standing : Standing
  anchor : FrameNo
  entries : Vector RosterEntry 32
  generation : BitVec 32
  issuer : FrameNo
  leavingLatch : Bool
  refusedLatch : Bool
  heldLatch : Bool
  rejoin : Bool
  silenceSince : Option Nat
  lastHello : Option Nat
  lastRoll : Option Nat
  rollSequence : BitVec 16
  leave : Option LeaveOrder
  counters : RosterCounters
  deriving DecidableEq, Repr

/-- The roster unit after device reset of an unnumbered part (R60). -/
def Roster.reset : Roster where
  standing := .unnumbered
  anchor := 0
  entries := Vector.replicate 32 .vacant
  generation := 0
  issuer := 0
  leavingLatch := false
  refusedLatch := false
  heldLatch := false
  rejoin := false
  silenceSince := none
  lastHello := none
  lastRoll := none
  rollSequence := 0
  leave := none
  counters := ⟨0, 0, 0, 0, 0, 0⟩

/-! ## Timebase unit (R84, R102) -/

/-- The counters of R102. -/
structure TimeCounters where
  accepted : Count
  ignored : Count
  far : Count
  nodelay : Count
  held : Count
  excursion : Count
  steps : Count
  losses : Count
  gaps : Count
  deriving DecidableEq, Repr

/-- The timebase unit (R84). `slewResidue` counts hundred-thousandths of a ns of slew not yet worked off (entry 10). -/
structure Timebase where
  rackTime : Time
  state : TimeState
  master : FrameNo
  distance : Option Nat
  correction : Int
  slewResidue : Nat
  stepPending : Bool
  lockCount : Nat
  excursions : Nat
  lastOffset : Option Int
  watchSince : Option Nat
  holdoverSince : Option Nat
  lastEmission : Nat
  counters : TimeCounters
  deriving DecidableEq, Repr

/-- The timebase unit after device reset of an unnumbered part (R84). -/
def Timebase.reset : Timebase where
  rackTime := 0
  state := .free
  master := 0
  distance := none
  correction := 0
  slewResidue := 0
  stepPending := false
  lockCount := 0
  excursions := 0
  lastOffset := none
  watchSince := none
  holdoverSince := none
  lastEmission := 0
  counters := ⟨0, 0, 0, 0, 0, 0, 0, 0, 0⟩

/-! ## Trigger unit (R103, R116) -/

/-- One lane's stages, timers and input line (R103, R104). The output stage is pulsing while a pulse end is held. -/
structure Lane where
  stage : InputStage
  inputHigh : Bool
  holdSince : Option Nat
  unmuteSince : Option Nat
  pulseEnd : Option Nat
  deriving DecidableEq, Repr

/-- One entry of the Trigger Schedule (R103). -/
structure Trigger where
  lane : LaneIx
  fireTime : Time
  origin : FrameNo
  sequence : BitVec 16
  quality : Byte
  deriving DecidableEq, Repr

/-- The counters of R116. -/
structure TriggerCounters where
  fired : Count
  late : Count
  dropped : Count
  merged : Count
  localOnly : Count
  outputOff : Count
  trigIgnored : Count
  trigMalformed : Count
  mutedEdge : Count
  cancelled : Count
  deriving DecidableEq, Repr

/-- The trigger unit (R103). -/
structure TriggerUnit where
  lanes : Vector Lane 16
  schedule : List Trigger
  sequence : BitVec 16
  counters : TriggerCounters
  deriving DecidableEq, Repr

/-- The trigger unit after device reset (R103), its input lines low (entry 5). -/
def TriggerUnit.reset : TriggerUnit where
  lanes := Vector.replicate 16 ⟨.idle, false, none, none, none⟩
  schedule := []
  sequence := 0
  counters := ⟨0, 0, 0, 0, 0, 0, 0, 0, 0, 0⟩

/-! ## Stream engine (R117, R143, R145, R151, R152, R159) -/

/-- A fetched Block Record, with what its block has reached (R144, R145). The block FINISH makes is held in the same
form with no address (R138). -/
structure Rec where
  address : Option (BitVec 64)
  linked : Bool
  number : Option (BitVec 32)
  stage : Stage
  outcome : Option BlockOutcome
  buffer : BitVec 64
  length : Nat
  lengthDone : Nat
  timestamp : Time
  quality : Byte
  arrival : Time
  late : Bool
  cutOff : Bool
  ackSince : Option Nat
  deriving DecidableEq, Repr

/-- The last record whose link was read (R145): its address, whether the link was 0, whether it is DONE, its block
number. -/
structure LastRecord where
  address : BitVec 64
  linkZero : Bool
  done : Bool
  number : Option (BitVec 32)
  deriving DecidableEq, Repr

/-- A source block whose cells are being offered (R151). -/
structure Sending where
  block : BitVec 32
  index : Nat
  port : PortIx
  deriving DecidableEq, Repr

/-- A DATA cell on offer to the transmit arbiter of a port (R15). -/
structure Offer where
  cell : Cell
  port : PortIx
  src : LocalCell
  deriving DecidableEq, Repr

/-- The counters of R143 and R159. -/
structure SlotCounters where
  openSent : Count
  blocksStarted : Count
  missedPace : Count
  creditSent : Count
  unsent : Count
  delivered : Count
  damaged : Count
  unconfirmed : Count
  discarded : Count
  rejected : Count
  ended : Count
  cutOff : Count
  stale : Count
  beyond : Count
  heldOff : Count
  gap : Count
  late : Count
  ackIgnored : Count
  faults : Count
  deriving DecidableEq, Repr

/-- Every counter 0. -/
def SlotCounters.zero : SlotCounters := ⟨0, 0, 0, 0, 0, 0, 0, 0, 0, 0, 0, 0, 0, 0, 0, 0, 0, 0, 0⟩

/-- One slot of the Stream Table (R117, R145, R152). -/
structure Slot where
  role : Role
  state : StreamState
  cause : StreamCause
  tag : BitVec 16
  peer : FrameNo
  openNumber : BitVec 16
  openAbsent : Bool
  peerIncarnation : Option (BitVec 16)
  blockSize : Nat
  pace : Nat
  gate : Gate
  gateOpen : Bool
  startTime : Time
  nextPace : Nat
  interval : Nat
  lateness : Nat
  chainHead : BitVec 64
  selfHalt : Bool
  peerHalt : Bool
  drain : Bool
  creditLimit : BitVec 32
  unresolved : Nat
  strandDeadline : Option Nat
  closeDeadline : Option Nat
  openOrder : Option (BitVec 32)
  finishOrder : Option (BitVec 32)
  drainMode : Option DrainMode
  drainCause : StreamCause
  openSince : Nat
  lastOpen : Nat
  lastCredit : Nat
  lastHalt : Nat
  fetched : List Rec
  endBlock : Option Rec
  nextRecord : Option (BitVec 64)
  lastRecord : Option LastRecord
  stop : Option FetchStop
  fetchEnded : Bool
  writeStop : Bool
  nextBlock : BitVec 32
  released : BitVec 32
  releaseMark : BitVec 32
  sinceNotice : Nat
  doneCount : BitVec 32
  sending : Option Sending
  offer : Option Offer
  endStarted : Bool
  expBlock : BitVec 32
  expCell : Nat
  asmLength : Nat
  counters : SlotCounters
  deriving DecidableEq, Repr

/-- A slot after device reset: CLOSED with cause NONE, all else 0, clear or absent (R117). -/
def Slot.reset : Slot where
  role := .source
  state := .closed
  cause := .none
  tag := 0
  peer := 0
  openNumber := 0
  openAbsent := false
  peerIncarnation := none
  blockSize := 0
  pace := 0
  gate := .now
  gateOpen := false
  startTime := 0
  nextPace := 0
  interval := 0
  lateness := 0
  chainHead := 0
  selfHalt := false
  peerHalt := false
  drain := false
  creditLimit := 0
  unresolved := 0
  strandDeadline := none
  closeDeadline := none
  openOrder := none
  finishOrder := none
  drainMode := none
  drainCause := .peerLeaving
  openSince := 0
  lastOpen := 0
  lastCredit := 0
  lastHalt := 0
  fetched := []
  endBlock := none
  nextRecord := none
  lastRecord := none
  stop := none
  fetchEnded := false
  writeStop := false
  nextBlock := 0
  released := 0
  releaseMark := 0
  sinceNotice := 0
  doneCount := 0
  sending := none
  offer := none
  endStarted := false
  expBlock := 0
  expCell := 0
  asmLength := 0
  counters := .zero

/-- The stream engine: the Stream Table and the UNMATCHED counter (R117, R143). -/
structure StreamEngine where
  slots : Vector Slot 64
  unmatched : Count
  deriving DecidableEq, Repr

/-- The stream engine after device reset (R117). -/
def StreamEngine.reset : StreamEngine := ⟨Vector.replicate 64 .reset, 0⟩

/-! ## Exchange unit (R167, R168) -/

/-- A notice posted to a lane, with the fields of the lane (R177). -/
inductive Notice
  | orders (count : Count) (sequence : BitVec 32) (failed : Bool)
  | port (k : PortIx) (state : PortState) (cause : PortCause) (transitions : Count)
  | roster (generation : BitVec 32) (anchor : FrameNo) (standing : Standing) (changed : BitVec 32)
  | time (state : TimeState) (master : FrameNo) (steps : Count) (size : Int)
  | triggers (fired muted : BitVec 16) (quality : Byte) (late dropped localOnly merged : Count)
  | streams (slots : BitVec 64)
  | notes (slots : BitVec 8)
  | admission (quarantined expired : BitVec 32)
  | errors (first latest : ErrorKind) (what : What) (address : BitVec 64) (count : Count)
  deriving DecidableEq, Repr

/-- A pending notice with its merge count (R176). -/
structure PendingNotice where
  notice : Notice
  merges : Nat
  deriving DecidableEq, Repr

/-- The part's belief about a lane and its pending notice (R168, R176). -/
structure LaneBelief where
  full : Bool
  pending : Option PendingNotice
  deriving DecidableEq, Repr

/-- An access that stalled the exchange and awaits retry (R170). -/
inductive StallAccess
  | header
  | orderRead (address : BitVec 64)
  | linkRead
  | completion (order : BitVec 32)
  deriving DecidableEq, Repr

/-- Where order fetching resumes (R168, R171): nowhere, at the chain head field (not read since an exchange reset, or as
last read), or after the last record fetched, whose link was read as given. -/
inductive ChainPosition
  | absent
  | head
  | headField (value : BitVec 64)
  | last (address link : BitVec 64)
  deriving DecidableEq, Repr

/-- The completion of an order (R173). -/
structure Completion where
  outcome : Outcome
  detail : Nat
  results : List Byte
  deriving DecidableEq, Repr

/-- An order of the window: dispatched and not yet taken by its owner, taken and held by it, or completed with a
write that awaits a retry (R172, R173). -/
inductive OrderStatus
  | dispatched
  | held
  | completing (c : Completion)
  deriving DecidableEq, Repr

/-- An order of the window (R171, R172): record address, sequence, kind byte, the bytes of the record from the
parameter area on, read at its fetch (entry 7). -/
structure Order where
  address : BitVec 64
  sequence : BitVec 32
  kind : Byte
  parameters : List Byte
  status : OrderStatus
  deriving DecidableEq, Repr

/-- The exchange unit (R167, R168, R193). -/
structure Exchange where
  baseLo : BitVec 32
  baseHi : BitVec 32
  mask : BitVec 12
  attachFault : Bool
  state : ExState
  stallCause : Option StallCause
  area : Option (BitVec 64)
  stalls : List StallAccess
  chain : ChainPosition
  notPosted : Bool
  lastSequence : Option (BitVec 32)
  window : List Order
  mark : Option (BitVec 32)
  lanes : Vector LaneBelief 12
  ordersDone : Count
  ordersFailed : Count
  errorsPosted : Count
  deriving DecidableEq, Repr

/-- The exchange unit after device reset (R167, R168). -/
def Exchange.reset : Exchange where
  baseLo := 0
  baseHi := 0
  mask := 0
  attachFault := false
  state := .detached
  stallCause := none
  area := none
  stalls := []
  chain := .absent
  notPosted := false
  lastSequence := none
  window := []
  mark := none
  lanes := Vector.replicate 12 ⟨false, none⟩
  ordersDone := 0
  ordersFailed := 0
  errorsPosted := 0

/-! ## Note path (R160) -/

/-- A note sent and awaiting its answer (R160). -/
structure NoteEntry where
  order : BitVec 32
  dest : FrameNo
  number : BitVec 16
  length : Nat
  since : Nat
  deriving DecidableEq, Repr

/-- The counters of R166. -/
structure NoteCounters where
  sent : Count
  accepted : Count
  busy : Count
  notAttached : Count
  refused : Count
  malformed : Count
  unconfirmed : Count
  ignored : Count
  deriving DecidableEq, Repr

/-- The note path (R160). An inbox slot held FULL is true. -/
structure NotePath where
  window : List NoteEntry
  waiting : List (BitVec 32)
  number : BitVec 16
  inbox : Vector Bool 8
  counters : NoteCounters
  deriving DecidableEq, Repr

/-- The note path after device reset (R160). -/
def NotePath.reset : NotePath where
  window := []
  waiting := []
  number := 0
  inbox := Vector.replicate 8 false
  counters := ⟨0, 0, 0, 0, 0, 0, 0, 0⟩

/-! ## Settings store (R184, R185) -/

/-- The factory identity (R184). -/
structure FactoryIdentity where
  frameClass : BitVec 16
  serial : Serial
  capabilities : BitVec 32
  deriving DecidableEq, Repr

/-- A pattern of the Admission Filter (R76). -/
structure Pattern where
  enabled : Bool
  classValue : BitVec 16
  classMask : BitVec 16
  serialValue : Serial
  serialMask : Serial
  deriving DecidableEq, Repr

/-- The Admission Filter (R76). -/
structure Filter where
  armed : Bool
  required : BitVec 32
  patterns : Vector Pattern 4
  deriving DecidableEq, Repr

/-- The settings of one trigger lane (R185): lead and pulse width in µs. -/
structure LaneSettings where
  inputEnable : Bool
  fallingEdge : Bool
  outputEnable : Bool
  lead : Nat
  width : Nat
  deriving DecidableEq, Repr

/-- The settings of R185, the Admission Filter included. The quarantine window and holdover limit are in s, the hold
limit in ms. -/
structure Settings where
  frame : FrameNo
  anchorRank : Fin 16
  timeRank : Fin 16
  enable : Vector Bool 4
  wake : WakeInterval
  threshold : Nat
  window : Nat
  holdover : Nat
  holdLimit : Nat
  lanes : Vector LaneSettings 16
  filter : Filter
  deriving DecidableEq, Repr

/-- The defaults of R185 and R76. -/
def Settings.defaults : Settings where
  frame := 0
  anchorRank := 0
  timeRank := 0
  enable := Vector.replicate 4 true
  wake := .one
  threshold := 31
  window := 5
  holdover := 10
  holdLimit := 100
  lanes := Vector.replicate 16 ⟨false, false, false, 100, 1⟩
  filter := ⟨false, 0, Vector.replicate 4 ⟨false, 0, 0, 0, 0⟩⟩

/-- A store in progress (R189): its order unless abandoned, the snapshot, and whether a working setting changed since. -/
structure Storing where
  order : Option (BitVec 32)
  snapshot : Settings
  changed : Bool
  deriving DecidableEq, Repr

/-- The settings store (R184, R185). `storedIntact` says that the check of the non-volatile copy passes. -/
structure SettingsStore where
  identity : FactoryIdentity
  incarnation : BitVec 16
  working : Settings
  stored : Settings
  storedIntact : Bool
  origin : SettingsOrigin
  modified : Bool
  storedValid : Bool
  storing : Option Storing
  deriving DecidableEq, Repr

/-- The settings store after the device reset of a part whose stored copy is invalid (R186, entries 2 and 3). -/
def SettingsStore.reset : SettingsStore where
  identity := ⟨Config.frameClass, Config.serial, Config.capabilities⟩
  incarnation := Config.incarnation
  working := .defaults
  stored := .defaults
  storedIntact := false
  origin := .defaults
  modified := false
  storedValid := false
  storing := none

/-! ## Host memory -/

/-- A run of addresses. -/
structure Region where
  base : Nat
  size : Nat
  deriving DecidableEq, Repr

/-- Host memory as the part reaches it: the listed bytes (an unlisted byte reads 0, entry 4) and the regions in which
reads, or writes, fault. -/
structure Memory where
  cells : List Host.Cell
  readFaults : List Region
  writeFaults : List Region
  deriving DecidableEq, Repr

/-- Nothing listed, no region that faults (entry 4). -/
def Memory.empty : Memory := ⟨[], [], []⟩

/-! ## The part -/

/-- The state of the part and of what it reaches. `inReset`: the reset input is asserted (R186). `now`: the local
oscillator in ns (entry 1). `choices`: the number of free choices made (entry 6). `pending`: the commands waiting. -/
structure State where
  inReset : Bool
  now : Nat
  choices : Nat
  store : SettingsStore
  ports : Vector Port 4
  links : Vector Link 4
  flood : Vector FloodRow 32
  reach : Reach
  roster : Roster
  tb : Timebase
  trig : TriggerUnit
  stream : StreamEngine
  ex : Exchange
  notes : NotePath
  mem : Memory
  pending : List Instr
  deriving DecidableEq, Repr

/-- Why the machine could stop with a fault: never. Every fault the spec describes is taken inside the part and is a
next state (R5, R157, R181, R182), so no command raises one and there is no constructor. -/
inductive Fault
  deriving DecidableEq, Repr

/-- Why a command could be refused. -/
inductive Refusal
  /-- Raised only by an arm of exec whose row has no meaning yet; safe, since such a command has no next state. -/
  | notModelled (mnemonic : String)
  deriving DecidableEq, Repr

/-- The state right after device reset (R186) of a part whose stored copy is invalid, with nothing listed in host
memory and no command waiting. -/
def State.reset : State where
  inReset := false
  now := 0
  choices := 0
  store := .reset
  ports := Vector.replicate 4 .reset
  links := Vector.replicate 4 .reset
  flood := Vector.replicate 32 .empty
  reach := .reset
  roster := .reset
  tb := .reset
  trig := .reset
  stream := .reset
  ex := .reset
  notes := .reset
  mem := .empty
  pending := []

end Sys2Proof.Machine
end

