-- ==== Sys2Proof/Machine/Codec.lean ====
section
/-! DEFINITION. Cells as bytes on the line: the kind table, the fit test (R6), the header (R2 and its layout), the check
(R3), the tests of the receive stage (R5), and the payload of every kind as its originator writes it (R191, Cells). -/

namespace Sys2Proof.Machine

/-! ## The kind table (01) -/

/-- Transmit classes. -/
inductive TxClass
  | tq | cq | dq
  deriving DecidableEq, Repr

/-- The class of a kind. -/
def kindClass : Kind → TxClass
  | .probe | .echo | .time | .trig => .tq
  | .data => .dq
  | _ => .cq

/-- The flood destination. -/
def floodDest : Nat := 63

/-- The kind is flooded. -/
def isFloodKind : Kind → Bool
  | .trig | .beacon | .roll => true
  | _ => false

/-- The kind may be link-local (destination 0). -/
def mayBeLocal : Kind → Bool
  | .probe | .echo | .time | .hello | .verdict => true
  | _ => false

/-- The kind may be routed (destination 1..31). -/
def mayBeRouted : Kind → Bool
  | .probe | .echo | .time | .trig | .beacon | .roll => false
  | _ => true

/-- The destinations the kind table allows. -/
def destAllowed (k : Kind) (dest : Nat) : Bool :=
  if dest = 0 then mayBeLocal k
  else if dest ≤ 31 then mayBeRouted k
  else dest == floodDest && isFloodKind k

/-- The fit test of R6 for a kind, a destination and an origin. -/
def headerFits (k : Kind) (dest origin : Nat) : Bool := destAllowed k dest && (dest == 0 || origin != 0)

/-! ## The check (R3) -/

/-- One bit into the remainder register. -/
def crcBit (r : BitVec 32) (b : Bool) : BitVec 32 :=
  if r.msb != b then (r <<< 1) ^^^ 0x04C11DB7#32 else r <<< 1

/-- One byte into the remainder register, least significant bit first. -/
def crcByte (r : BitVec 32) (b : Byte) : BitVec 32 :=
  (List.range 8).foldl (fun r i => crcBit r (b.getLsbD i)) r

/-- The check over header and payload bytes: preset to all ones, final remainder complemented. -/
def crc (bs : List Byte) : BitVec 32 := ~~~(bs.foldl crcByte (BitVec.allOnes 32))

/-! ## Cells as bytes -/

/-- The 16 header bytes (12, Cells). -/
def headerBytes (c : Cell) : List Byte :=
  [BitVec.ofNat 8 (kindCode c.kind), BitVec.ofNat 8 c.origin.val, c.dest, BitVec.ofNat 8 c.hops.val]
    ++ beBytes 2 c.payload.length ++ beBytes 2 c.incarnation.toNat ++ beBytes 2 c.floodSeq.toNat ++ zeros 2
    ++ beBytes 4 c.word.toNat

/-- The data symbols of a cell: header, payload, check (R1). -/
def lineBytes (c : Cell) : List Byte :=
  headerBytes c ++ c.payload ++ beBytes 4 (crc (headerBytes c ++ c.payload)).toNat

/-- The payload length field of collected bytes. -/
def lengthField (bs : List Byte) : Nat := beAt bs 4 2

/-- The data symbols before the check. -/
def checkedBytes (bs : List Byte) : List Byte := bs.take (bs.length - 4)

/-- The check bytes received equal the check computed over what precedes them (R3, R5). -/
def checkPasses (bs : List Byte) : Bool :=
  beNat (bs.drop (bs.length - 4)) == (crc (checkedBytes bs)).toNat

/-- The header of collected bytes passes the fit test of R6. -/
def bytesFit (bs : List Byte) : Bool :=
  match kindOfCode (beAt bs 0 1) with
  | none => false
  | some k => headerFits k (beAt bs 2 1) (beAt bs 1 1)

/-- The most data symbols a cell carries (R1). -/
def maxSymbols : Nat := 276

/-- A DELIMIT error (R5): another symbol than an end delimiter ends the cell, or it outgrows a cell's length. -/
def delimitError (r : RawCell) : Bool :=
  r.ending == .startDelimiter || r.ending == .otherSymbol || decide (maxSymbols < r.bytes.length)

/-- The first error the receive stage finds in a collected cell, if any, in the order of R5. A cell cut short with no
delimiter and no other symbol is discarded unreported (R4, R35). -/
def rawError (r : RawCell) : Option RxError :=
  if delimitError r then some .delimit
  else if r.ending = .noDelimiter then none
  else if 256 < lengthField r.bytes ∨ r.bytes.length ≠ 20 + lengthField r.bytes then some .length
  else if checkPasses r.bytes = false then some .check
  else if bytesFit r.bytes = false then some .kind
  else none

/-- The null flag of an erroneous cell (R5). -/
def rawNull (r : RawCell) : Bool :=
  decide (rawError r = some .delimit) && !r.bytes.isEmpty && r.bytes.all (fun b => b == 0)

/-- The cell that the data symbols of a good cell spell; none where the origin is above 31 or hops taken above 7, which
no FL440 sends (R2). -/
def readCell (bs : List Byte) : Option Cell :=
  match kindOfCode (beAt bs 0 1) with
  | none => none
  | some k =>
    if h : beAt bs 1 1 < 32 ∧ beAt bs 3 1 < 8 then
      some { kind := k, origin := ⟨beAt bs 1 1, h.1⟩, dest := BitVec.ofNat 8 (beAt bs 2 1),
             hops := ⟨beAt bs 3 1, h.2⟩, incarnation := BitVec.ofNat 16 (beAt bs 6 2),
             floodSeq := BitVec.ofNat 16 (beAt bs 8 2), word := BitVec.ofNat 32 (beAt bs 12 4),
             payload := bytesAt bs 16 (lengthField bs) }
    else none

/-- The data symbols a cell puts on the line: 20 and the payload (R1). -/
def symbolCount (c : Cell) : Nat := 20 + c.payload.length

/-! ## Received cells -/

/-- A received cell with its kind. -/
def rxCell (k : Kind) (rx : Rx) : Cell :=
  { kind := k, origin := rx.origin, dest := rx.dest, hops := rx.hops, incarnation := rx.incarnation,
    floodSeq := rx.floodSeq, word := rx.word, payload := rx.payload }

/-- The arrival stamp corrected by the steps taken since (R95). -/
def rxCorrected (rx : Rx) : Time := rx.stamp + BitVec.ofInt 64 rx.steps

/-- The error under which the receive stage would have rejected the cell an operand describes (R5). A payload above 256
bytes makes more than 276 data symbols, which is a DELIMIT error before any other; its null flag is clear, since the
first symbol carries the kind, which is never 0. An unfit header is a KIND error (R6). -/
def rxError (k : Kind) (rx : Rx) : Option RxError :=
  if 256 < rx.payload.length then some .delimit
  else if headerFits k rx.dest.toNat rx.origin.val = false then some .kind
  else none

/-! ## Payloads as written at origination (12, Cells) -/

def probePayload (serial : Serial) (port : PortIx) (number : BitVec 8) : List Byte :=
  beBytes 6 serial.toNat ++ beBytes 1 port.val ++ beBytes 1 number.toNat

/-- The turnaround is written at the start delimiter (R16). -/
def echoPayload (number : BitVec 8) (turnaround : Time) : List Byte :=
  beBytes 1 number.toNat ++ zeros 3 ++ beBytes 8 turnaround.toNat

/-- The time is written at the start delimiter (R16). -/
def timePayload (master : FrameNo) (distance quality : Nat) (time : Time) : List Byte :=
  beBytes 1 master.val ++ beBytes 1 distance ++ beBytes 1 quality ++ zeros 1 ++ beBytes 8 time.toNat

def trigPayload (lane : LaneIx) (quality : Nat) (sequence : BitVec 16) (fire : Time) : List Byte :=
  beBytes 1 lane.val ++ beBytes 1 quality ++ beBytes 2 sequence.toNat ++ beBytes 8 fire.toNat

def helloPayload (serial : Serial) (cls : BitVec 16) (caps : BitVec 32) (frame anchor : FrameNo) (rejoin : Bool)
    (entryFrame : FrameNo) (entryPort : Nat) : List Byte :=
  beBytes 6 serial.toNat ++ beBytes 2 cls.toNat ++ beBytes 4 caps.toNat ++ beBytes 1 frame.val ++ beBytes 1 anchor.val
    ++ beBytes 1 (flagCode rejoin) ++ beBytes 1 entryFrame.val ++ beBytes 1 entryPort ++ zeros 3

def verdictPayload (serial : Serial) (frame : FrameNo) (answer : Answer) (reason : RefusalReason) (anchor : FrameNo)
    (entryPort : Nat) : List Byte :=
  beBytes 6 serial.toNat ++ beBytes 1 frame.val ++ beBytes 1 (answerCode answer) ++ beBytes 1 (reasonCode reason)
    ++ beBytes 1 anchor.val ++ beBytes 1 entryPort ++ zeros 1

def leavePayload (serial : Serial) : List Byte := beBytes 6 serial.toNat ++ zeros 2

def notePayload (number : BitVec 16) (serial : Serial) (body : List Byte) : List Byte :=
  beBytes 2 number.toNat ++ beBytes 2 body.length ++ beBytes 6 serial.toNat ++ zeros 6 ++ body

def noteAnswerPayload (number : BitVec 16) (answer : NoteAnswer) (slot : Nat) : List Byte :=
  beBytes 2 number.toNat ++ beBytes 1 (noteAnswerCode answer) ++ beBytes 1 slot

/-- Direction codes: toward the sink 0, toward the source 1 (R191). -/
def towardSink : Nat := 0
def towardSource : Nat := 1

/-- The 8-byte prefix of the stream cells. -/
def streamPrefix (tag openNumber : BitVec 16) (direction : Nat) : List Byte :=
  beBytes 2 tag.toNat ++ beBytes 2 openNumber.toNat ++ beBytes 1 direction ++ zeros 3

def openPayload (tag openNumber : BitVec 16) (blockSize pace : Nat) : List Byte :=
  streamPrefix tag openNumber towardSink ++ beBytes 4 blockSize ++ beBytes 4 pace

def openAnswerPayload (tag openNumber : BitVec 16) (answer : OpenAnswer) (limit : BitVec 32) : List Byte :=
  streamPrefix tag openNumber towardSource ++ beBytes 1 (openAnswerCode answer) ++ zeros 3 ++ beBytes 4 limit.toNat

def creditPayload (tag openNumber : BitVec 16) (limit : BitVec 32) (halted : Bool) : List Byte :=
  streamPrefix tag openNumber towardSource ++ beBytes 4 limit.toNat ++ beBytes 1 (flagCode halted) ++ zeros 3

def haltPayload (tag openNumber : BitVec 16) (direction : Nat) (on : Bool) : List Byte :=
  streamPrefix tag openNumber direction ++ beBytes 1 (flagCode on) ++ zeros 3

def closePayload (tag openNumber : BitVec 16) (direction : Nat) (reason : CloseReason) : List Byte :=
  streamPrefix tag openNumber direction ++ beBytes 1 (closeReasonCode reason) ++ zeros 3

def blockackPayload (tag openNumber : BitVec 16) (result : BlockOutcome) : List Byte :=
  streamPrefix tag openNumber towardSource ++ beBytes 1 (blockOutcomeCode result) ++ zeros 3

/-- The fields of a DATA payload common to all cells. -/
def dataHead (tag openNumber : BitVec 16) (index : Nat) (last : Bool) : List Byte :=
  beBytes 2 tag.toNat ++ beBytes 2 openNumber.toNat ++ beBytes 1 towardSink ++ beBytes 2 index
    ++ beBytes 1 (flagCode last)

/-- The further fields of cell 0. -/
def dataBlockHead (length : Nat) (timestamp : Time) (quality : Nat) : List Byte :=
  beBytes 4 length ++ beBytes 8 timestamp.toNat ++ beBytes 1 quality ++ zeros 3

def contentsPayload (c : Contents) : List Byte :=
  beBytes 1 c.frame.toNat ++ beBytes 1 c.anchorRank.toNat ++ beBytes 1 c.timeRank.toNat ++ beBytes 1 c.timeState.toNat
    ++ beBytes 6 c.serial.toNat ++ beBytes 2 c.incarnation.toNat ++ beBytes 4 c.generation.toNat
    ++ beBytes 1 c.followedAnchor.toNat ++ beBytes 1 c.followedMaster.toNat ++ beBytes 1 c.standing.toNat
    ++ beBytes 1 c.leaving.toNat

/-- A payload with a later-written field replaced, from a byte offset on. -/
def patchBytes (bs : List Byte) (off : Nat) (new : List Byte) : List Byte :=
  bs.take off ++ new ++ bs.drop (off + new.length)

end Sys2Proof.Machine
end

