-- ==== Sys2Proof/Machine/Ops.lean ====
section
/-! DEFINITION. The named operations every unit uses: indexed tables, host memory, the clock and the slew of rack time,
the choice among unordered receivers, and an act (a step in progress with what it posts to the exchange unit). -/

namespace Sys2Proof.Machine

/-! ## Indexed tables -/

/-- A table with one element changed. -/
def upd {α : Type} {n : Nat} (v : Vector α n) (i : Fin n) (f : α → α) : Vector α n := v.set i.val (f (v.get i)) i.isLt

def allPorts : List PortIx := [0, 1, 2, 3]

/-- Frames 1..31, ascending. -/
def allFrames : List FrameNo := (List.finRange 32).tail

def allLanes : List LaneIx := List.finRange 16

def allSlots : List SlotIx := List.finRange 64

def allInbox : List InboxIx := List.finRange 8

def allNotices : List NoticeIx := List.finRange 12

/-- A bitmap with one bit per element that satisfies a test. -/
def bitmap {n : Nat} (w : Nat) (ixs : List (Fin n)) (f : Fin n → Bool) : BitVec w :=
  ixs.foldl (fun b i => if f i then b ||| (1#w <<< i.val) else b) 0

/-- The bit of one element. -/
def bit (w k : Nat) : BitVec w := 1#w <<< k

/-! ## Host memory (entry 4) -/

/-- What an address that is not listed reads as. -/
def unlisted : Byte := 0

/-- Host addresses are 64 bits wide. -/
def addressSpace : Nat := 2 ^ 64

/-- The byte at an address. -/
def memByte (m : Memory) (a : Nat) : Byte :=
  match m.cells.find? (fun c => c.1 == a) with
  | some c => c.2
  | none => unlisted

/-- The lowest address of `a .. a + len - 1` that a region covers, if any. -/
def regionFault (r : Region) (a len : Nat) : Option Nat :=
  if max a r.base < min (a + len) (r.base + r.size) then some (max a r.base) else none

/-- The lower of two optional addresses. -/
def minFault : Option Nat → Option Nat → Option Nat
  | none, y => y
  | x, none => x
  | some x, some y => some (min x y)

/-- The lowest faulting address of an access, if any: in a faulting region, or outside the address space. -/
def firstFault (rs : List Region) (a len : Nat) : Option Nat :=
  rs.foldl (fun f r => minFault f (regionFault r a len))
    (if addressSpace < a + len then some (max a addressSpace) else none)

/-- Read `len` bytes, or the faulting address. -/
def memRead (m : Memory) (a len : Nat) : Except Nat (List Byte) :=
  match firstFault m.readFaults a len with
  | some x => .error x
  | none => .ok ((List.range len).map (fun i => memByte m (a + i)))

/-- Bytes as listed cells from an address on, those that read as unlisted left out. -/
def newCells : Nat → List Byte → List Host.Cell
  | _, [] => []
  | a, b :: bs => if b = unlisted then newCells (a + 1) bs else (a, b) :: newCells (a + 1) bs

/-- The cells with a run of bytes stored from an address on. -/
def storeCells (cells : List Host.Cell) (a : Nat) (bs : List Byte) : List Host.Cell :=
  cells.filter (fun c => decide (c.1 < a)) ++ newCells a bs ++ cells.filter (fun c => decide (a + bs.length ≤ c.1))

/-- Write a run of bytes whole, or answer the faulting address and write nothing. -/
def memWrite (m : Memory) (a : Nat) (bs : List Byte) : Except Nat Memory :=
  match firstFault m.writeFaults a bs.length with
  | some x => .error x
  | none => .ok { m with cells := storeCells m.cells a bs }

/-- The canonical form of memory: addresses strictly rising and inside the address space, and no listed byte equal to
what an unlisted address reads as. -/
def Memory.wf (m : Memory) : Bool :=
  decide (m.cells.Pairwise (fun c d => c.1 < d.1)) && m.cells.all (fun c => c.2 != unlisted && decide (c.1 < addressSpace))

/-! ## The clock and the slew (R85, entries 1 and 10) -/

/-- The part of a correction worked off by `whole` ns of slew: at most what remains, with its sign. -/
def slewPart (correction : Int) (whole : Nat) : Int :=
  if 0 ≤ correction then min correction whole else max correction (-(whole : Int))

/-- `d` ns pass at the local oscillator: rack time advances by as much, plus what the slew works off (R85). -/
def advance (s : State) (d : Nat) : State :=
  let total := s.tb.slewResidue + d
  let part := slewPart s.tb.correction (total / slewDivisor)
  { s with
    now := s.now + d
    tb := { s.tb with
      rackTime := s.tb.rackTime + BitVec.ofNat 64 d + BitVec.ofInt 64 part
      correction := s.tb.correction - part
      slewResidue := total % slewDivisor } }

/-- The clock moved on to a moment, when that is not yet past. -/
def advanceTo (s : State) (moment : Nat) : State := advance s (moment - s.now)

/-- The least number of ns after which rack time has advanced by `n` or more, for a correction and a residue. -/
def rackDelay (correction : Int) (residue n : Nat) : Nat :=
  let m := slewDivisor
  let c := correction.natAbs
  if correction = 0 ∨ n = 0 then n
  else if 0 < correction then max ((n * m - residue + m) / (m + 1)) (n - c)
  else min ((m * (n - 1) + residue) / (m - 1) + 1) (n + c)

/-- Rack time has reached a moment: it is equal to or later than it, as unsigned counts (R109, R110). -/
def reached (s : State) (t : Time) : Bool := decide (t.toNat ≤ s.tb.rackTime.toNat)

/-- The clock moved on until rack time has reached a moment. -/
def advanceToRack (s : State) (t : Time) : State :=
  if reached s t then s else advance s (rackDelay s.tb.correction s.tb.slewResidue (t.toNat - s.tb.rackTime.toNat))

/-! ## Choices (entry 6) -/

/-- The next free choice and the state that counts it. -/
def choose (s : State) : Nat × State := (Config.freeChoice s.choices, { s with choices := s.choices + 1 })

/-! ## Acts -/

/-- A header mirror of the Exchange Area (R180). -/
inductive Mirror
  | port (p : PortIx)
  | roster
  | timebase
  | origin
  | counters
  deriving DecidableEq, Repr

/-- What an act gives the exchange unit to do once its own changes are made (entry 35): write a mirror or a Stream
Status entry, or take a notice. -/
inductive Post
  | mirror (m : Mirror)
  | status (n : SlotIx)
  | notice (n : Notice)
  deriving DecidableEq, Repr

/-- A step in progress: the state so far and what has been posted, oldest first. -/
structure Act where
  s : State
  posts : List Post
  deriving DecidableEq, Repr

/-- An act with its state changed. -/
def Act.on (a : Act) (f : State → State) : Act := { a with s := f a.s }

/-- An act with something posted. -/
def Act.post (a : Act) (p : Post) : Act := { a with posts := a.posts ++ [p] }

/-- An ERRORS notice of one fault (R181). Of a faulting address of 2^64 or more it has the low 64
bits: the model's choice (entry 74). -/
def Act.error (a : Act) (k : ErrorKind) (w : What) (address : Nat) : Act :=
  a.post (.notice (.errors k k w (BitVec.ofNat 64 address) 1))

/-- A MEMORY_FAULT notice (R181). -/
def Act.memFault (a : Act) (w : What) (address : Nat) : Act := a.error .memoryFault w address

/-- The STREAMS notice of one slot, its Stream Status entry written first (R156, R180); one for each slot in an act. -/
def Act.streamNotice (a : Act) (n : SlotIx) : Act :=
  let p := Post.notice (.streams (bit 64 n.val))
  if a.posts.contains p then a else (a.post (.status n)).post p

/-- Run an act once for each element. -/
def Act.each {α : Type} (a : Act) (xs : List α) (f : Act → α → Act) : Act := xs.foldl f a

/-- Two receivers that are not ordered among themselves take an event in the order a free choice gives (entry 6). -/
def Act.race2 (a : Act) (f g : Act → Act) : Act :=
  let c := choose a.s
  let a := { a with s := c.2 }
  if c.1 % 2 = 0 then g (f a) else f (g a)

/-- Three receivers that are not ordered among themselves (entry 6). -/
def Act.race3 (a : Act) (f g h : Act → Act) : Act :=
  let c := choose a.s
  let a := { a with s := c.2 }
  match c.1 % 6 with
  | 0 => h (g (f a))
  | 1 => g (h (f a))
  | 2 => h (f (g a))
  | 3 => f (h (g a))
  | 4 => g (f (h a))
  | _ => f (g (h a))

/-- A timer row: a running timer has the clock moved on to its limit, then takes effect; a stopped one has none
(entry 1). -/
def Act.atTimer (a : Act) (since : Option Nat) (limit : Nat) (f : Act → Act) : Act :=
  match since with
  | none => a
  | some t => f (a.on (advanceTo · (t + limit)))

/-! ## Reading the state -/

def State.port (s : State) (p : PortIx) : Port := s.ports.get p

def State.link (s : State) (p : PortIx) : Link := s.links.get p

def State.slot (s : State) (n : SlotIx) : Slot := s.stream.slots.get n

def State.entry (s : State) (f : FrameNo) : RosterEntry := s.roster.entries.get f

def State.route (s : State) (f : FrameNo) : Option Route := s.reach.table.get f

/-- The own frame number (R185). -/
def State.own (s : State) : FrameNo := s.store.working.frame

/-- The own serial (R184). -/
def State.serial (s : State) : Serial := s.store.identity.serial

/-- The port is UP. -/
def State.isUp (s : State) (p : PortIx) : Bool := (s.port p).state == .up

/-- The ports that are UP, ascending. -/
def State.upPorts (s : State) : List PortIx := allPorts.filter s.isUp

/-- The exchange state lets the part reach host memory (R168). -/
def State.memOpen (s : State) : Bool := s.ex.state == .attached || s.ex.state == .stalled

/-! ## Changing one element -/

def State.modPort (s : State) (p : PortIx) (f : Port → Port) : State := { s with ports := upd s.ports p f }

def State.modLink (s : State) (p : PortIx) (f : Link → Link) : State := { s with links := upd s.links p f }

def State.modSlot (s : State) (n : SlotIx) (f : Slot → Slot) : State :=
  { s with stream := { s.stream with slots := upd s.stream.slots n f } }

def State.modEntry (s : State) (k : FrameNo) (f : RosterEntry → RosterEntry) : State :=
  { s with roster := { s.roster with entries := upd s.roster.entries k f } }

def State.modLane (s : State) (k : LaneIx) (f : Lane → Lane) : State :=
  { s with trig := { s.trig with lanes := upd s.trig.lanes k f } }

def State.modRoster (s : State) (f : Roster → Roster) : State := { s with roster := f s.roster }

def State.modTb (s : State) (f : Timebase → Timebase) : State := { s with tb := f s.tb }

def State.modReach (s : State) (f : Reach → Reach) : State := { s with reach := f s.reach }

def State.modTrig (s : State) (f : TriggerUnit → TriggerUnit) : State := { s with trig := f s.trig }

def State.modEx (s : State) (f : Exchange → Exchange) : State := { s with ex := f s.ex }

def State.modNotes (s : State) (f : NotePath → NotePath) : State := { s with notes := f s.notes }

def State.modStore (s : State) (f : SettingsStore → SettingsStore) : State := { s with store := f s.store }

/-- One of the counters of R19 changed. -/
def State.modCounters (s : State) (p : PortIx) (f : PortCounters → PortCounters) : State :=
  s.modLink p (fun l => { l with counters := f l.counters })

end Sys2Proof.Machine
end

