-- ==== Sys2Proof/Machine/Operands.lean ====
section
/-! DEFINITION. Operand forms: the parameters of each order kind by the alignment of R191 (entry 7), the results area,
and the settings and filter images (12, Images and snapshots). Every field is read little endian. -/

namespace Sys2Proof.Machine

/-! ## Order parameters (R191, entry 7) -/

/-- The bytes of a record kept at its fetch start at this offset of the record. -/
def parameterOffset : Nat := 0x10

/-- The bytes of a record kept at its fetch: the parameter area and the results area that a long list overruns into. -/
def parameterBytes : Nat := 48

/-- READ_STATE: snapshot kind, buffer pointer, buffer length, slot (R175). -/
def readStateKind (o : Order) : Nat := leAt o.parameters 0 1
def readStatePointer (o : Order) : Nat := leAt o.parameters 8 8
def readStateLength (o : Order) : Nat := leAt o.parameters 16 8
def readStateSlot (o : Order) : Nat := leAt o.parameters 24 1

/-- ARM_PORT and HOLD_PORT: port index, then the action (R41, R42). -/
def portParameter (o : Order) : Nat := leAt o.parameters 0 1
def holdAction (o : Order) : Nat := leAt o.parameters 1 1

/-- ADMIT and REFUSE: frame number, expected serial (R78). -/
def decideFrame (o : Order) : Nat := leAt o.parameters 0 1
def decideSerial (o : Order) : Nat := leAt o.parameters 8 8

/-- SET_FILTER: image pointer (R76). -/
def filterPointer (o : Order) : Nat := leAt o.parameters 0 8

/-- SCHEDULE_TRIGGER: lane, fire time (R114). -/
def scheduleLane (o : Order) : Nat := leAt o.parameters 0 1
def scheduleTime (o : Order) : Nat := leAt o.parameters 8 8

/-- CANCEL_TRIGGER: trigger sequence (R115). -/
def cancelSequence (o : Order) : Nat := leAt o.parameters 0 2

/-- OPEN_STREAM: slot, role, peer, tag, block size, pace period, gate kind, gate value, notice interval, lateness
limit, chain head (R120). -/
def openSlot (o : Order) : Nat := leAt o.parameters 0 1
def openRole (o : Order) : Nat := leAt o.parameters 1 1
def openPeer (o : Order) : Nat := leAt o.parameters 2 1
def openTag (o : Order) : Nat := leAt o.parameters 4 2
def openBlockSize (o : Order) : Nat := leAt o.parameters 8 4
def openPace (o : Order) : Nat := leAt o.parameters 12 4
def openGateKind (o : Order) : Nat := leAt o.parameters 16 1
def openGateValue (o : Order) : Nat := leAt o.parameters 24 8
def openInterval (o : Order) : Nat := leAt o.parameters 32 1
def openLateness (o : Order) : Nat := leAt o.parameters 36 4
def openChain (o : Order) : Nat := leAt o.parameters 40 8

/-- CLOSE_STREAM, HALT_STREAM, RESUME_STREAM: slot, then the mode (R131, R138). -/
def streamSlotParameter (o : Order) : Nat := leAt o.parameters 0 1
def closeMode (o : Order) : Nat := leAt o.parameters 1 1

/-- SEND_NOTE: destination, body pointer, body length (R161). -/
def noteDest (o : Order) : Nat := leAt o.parameters 0 1
def notePointer (o : Order) : Nat := leAt o.parameters 8 8
def noteLength (o : Order) : Nat := leAt o.parameters 16 1

/-- SET_SETTINGS: group mask, image pointer (R187). -/
def settingsMask (o : Order) : Nat := leAt o.parameters 0 4
def settingsPointer (o : Order) : Nat := leAt o.parameters 8 8

/-! ## Results -/

/-- The 16 bytes of the results area. -/
def resultsArea (results : List Byte) : List Byte := (padTo 16 results).take 16

/-! ## The settings image (12) -/

/-- The settings image is 144 bytes. -/
def settingsImageSize : Nat := 144

/-- Byte offsets of the image's fields. -/
def imageFrame (b : List Byte) : Nat := leAt b 0x00 1
def imageAnchorRank (b : List Byte) : Nat := leAt b 0x01 1
def imageTimeRank (b : List Byte) : Nat := leAt b 0x02 1
def imageEnable (b : List Byte) (p : PortIx) : Bool := (leAt b 0x03 1).testBit p.val
def imageWake (b : List Byte) : Nat := leAt b 0x04 1
def imageThreshold (b : List Byte) : Nat := leAt b 0x05 1
def imageHoldLimit (b : List Byte) : Nat := leAt b 0x06 2
def imageWindow (b : List Byte) : Nat := leAt b 0x08 2
def imageHoldover (b : List Byte) : Nat := leAt b 0x0A 2
def imageLaneFlags (b : List Byte) (k : LaneIx) : Nat := leAt b (0x10 + 8 * k.val) 1
def imageLead (b : List Byte) (k : LaneIx) : Nat := leAt b (0x10 + 8 * k.val + 2) 2
def imageWidth (b : List Byte) (k : LaneIx) : Nat := leAt b (0x10 + 8 * k.val + 4) 2

/-- A lane's settings as the image gives them. -/
def imageLane (b : List Byte) (k : LaneIx) : LaneSettings :=
  { inputEnable := (imageLaneFlags b k).testBit 0
    fallingEdge := (imageLaneFlags b k).testBit 1
    outputEnable := (imageLaneFlags b k).testBit 2
    lead := imageLead b k
    width := imageWidth b k }

/-- One lane of a settings image. -/
def laneImage (l : LaneSettings) : List Byte :=
  leBytes 1 (flagCode l.inputEnable + 2 * flagCode l.fallingEdge + 4 * flagCode l.outputEnable) ++ zeros 1
    ++ leBytes 2 l.lead ++ leBytes 2 l.width ++ zeros 2

/-- The settings image of the working settings (READ_STATE SETTINGS). -/
def settingsImage (w : Settings) : List Byte :=
  leBytes 1 w.frame.val ++ leBytes 1 w.anchorRank.val ++ leBytes 1 w.timeRank.val
    ++ leBytes 1 (bitmap 8 allPorts w.enable.get).toNat ++ leBytes 1 (wakeCode w.wake) ++ leBytes 1 w.threshold
    ++ leBytes 2 w.holdLimit ++ leBytes 2 w.window ++ leBytes 2 w.holdover ++ zeros 4
    ++ (allLanes.map (fun k => laneImage (w.lanes.get k))).flatten

/-! ## The filter image (12, R76) -/

/-- The filter image is 104 bytes. -/
def filterImageSize : Nat := 104

def imageArmed (b : List Byte) : Nat := leAt b 0 1
def imageRequired (b : List Byte) : Nat := leAt b 4 4
def imagePatternEnable (b : List Byte) (k : Fin 4) : Nat := leAt b (8 + 24 * k.val) 1

/-- Pattern k of a filter image. -/
def imagePattern (b : List Byte) (k : Fin 4) : Pattern :=
  let o := 8 + 24 * k.val
  { enabled := leAt b o 1 != 0
    classValue := BitVec.ofNat 16 (leAt b (o + 2) 2)
    classMask := BitVec.ofNat 16 (leAt b (o + 4) 2)
    serialValue := BitVec.ofNat 48 (leAt b (o + 8) 8)
    serialMask := BitVec.ofNat 48 (leAt b (o + 16) 8) }

/-- The Admission Filter as the image gives it. -/
def imageFilter (b : List Byte) : Filter :=
  { armed := imageArmed b != 0
    required := BitVec.ofNat 32 (imageRequired b)
    patterns := Vector.ofFn (fun k => imagePattern b k) }

/-- One pattern of a filter image. -/
def patternImage (p : Pattern) : List Byte :=
  leBytes 1 (flagCode p.enabled) ++ zeros 1 ++ leBytes 2 p.classValue.toNat ++ leBytes 2 p.classMask.toNat ++ zeros 2
    ++ leBytes 8 p.serialValue.toNat ++ leBytes 8 p.serialMask.toNat

/-- The filter image of the Admission Filter (READ_STATE SETTINGS). -/
def filterImage (f : Filter) : List Byte :=
  leBytes 1 (flagCode f.armed) ++ zeros 3 ++ leBytes 4 f.required.toNat
    ++ (allPorts.map (fun k => patternImage (f.patterns.get k))).flatten

end Sys2Proof.Machine
end

