-- ==== Sys2Proof/Machine/Orders.lean ====
section
/-! DEFINITION. The order window: which order its owner takes next (R172), the completion of an order (R173) and the
reclaim mark (R174). -/

namespace Sys2Proof.Machine

/-! ## The owner's next order (R172, entry 8) -/

/-- The unit that owns an order kind. -/
def orderOwner : OrderKind → OrderOwner
  | .nop | .readState => .exchange
  | .armPort | .holdPort => .ports
  | .join | .leave | .admitFrame | .refuse | .setFilter => .roster
  | .scheduleTrigger | .cancelTrigger => .trigger
  | .openStream | .closeStream | .haltStream | .resumeStream => .stream
  | .sendNote => .notePath
  | .setSettings | .storeSettings => .settings

/-- The owner of an order by its kind byte; a value that names no order is the exchange unit's. -/
def byteOwner (k : Byte) : OrderOwner :=
  match orderKindOfCode k.toNat with
  | some o => orderOwner o
  | none => .exchange

/-- The oldest order dispatched to an owner and not yet taken by it. -/
def nextOrder (s : State) (w : OrderOwner) : Option Order :=
  s.ex.window.find? (fun o => decide (o.status = .dispatched) && decide (byteOwner o.kind = w))

/-- The oldest order of its owner, when it is of the kind a row names (none: a kind value that names no order). -/
def orderFor (s : State) (k : Option OrderKind) : Option Order :=
  (nextOrder s (match k with | some o => orderOwner o | none => .exchange)).filter
    (fun o => decide (orderKindOfCode o.kind.toNat = k))

/-- An order row: the owner takes its oldest order when that is of the row's kind (entry 8). -/
def orderRow (k : Option OrderKind) (f : Act → Order → Act) (a : Act) : Act :=
  match orderFor a.s k with
  | none => a
  | some o => f a o

/-- The window with one order changed. -/
def modOrder (s : State) (seq : BitVec 32) (f : Order → Order) : State :=
  s.modEx (fun e => { e with window := e.window.map (fun o => if o.sequence = seq then f o else o) })

/-- The owner holds an order until an event ends it (R172). -/
def holdOrder (s : State) (seq : BitVec 32) : State := modOrder s seq (fun o => { o with status := .held })

/-- An order of the window by its sequence. -/
def windowOrder (s : State) (seq : BitVec 32) : Option Order := s.ex.window.find? (fun o => o.sequence == seq)

/-! ## Memory access of the part -/

/-- Write bytes to host memory, or answer the faulting address. -/
def writeHost (s : State) (address : Nat) (bs : List Byte) : Except Nat State :=
  match memWrite s.mem address bs with
  | .error x => .error x
  | .ok m => .ok { s with mem := m }

/-- Write several runs one after the other until one faults; the runs before a fault stay written. -/
def writeRuns (s : State) : List (Nat × List Byte) → State × Option Nat
  | [] => (s, none)
  | (a, bs) :: rest =>
    match writeHost s a bs with
    | .error x => (s, some x)
    | .ok s' => writeRuns s' rest

/-! ## The reclaim mark (R174) -/

/-- The base of the Exchange Area. -/
def areaBase (s : State) : Nat :=
  match s.ex.area with
  | some b => b.toNat
  | none => 0

/-- The mark as the window and the chain position give it, once a first record has been fetched. -/
def judgedMark (e : Exchange) : Option (BitVec 32) :=
  match e.lastSequence with
  | none => none
  | some last =>
    match e.window with
    | o :: _ => some (o.sequence - 1)
    | [] =>
      match e.chain with
      | .last _ link => if link = 0 then some (last - 1) else some last
      | _ => some last

/-- Write the mark into the header; a fault is reported with "what" MIRROR_WRITE and not retried (R180). -/
def writeMark (a : Act) (m : BitVec 32) : Act :=
  if a.s.memOpen then
    match writeHost a.s (areaBase a.s + 0x10) (leBytes 4 m.toNat) with
    | .ok s => { a with s := s }
    | .error x => a.memFault .mirrorWrite x
  else a

/-- The mark takes a value and is written. -/
def setMark (a : Act) (m : BitVec 32) : Act := writeMark (a.on (·.modEx (fun e => { e with mark := some m }))) m

/-- The mark is re-judged; each time it advances it is written. -/
def judgeMark (a : Act) : Act :=
  match a.s.ex.mark, judgedMark a.s.ex with
  | some old, some new => if newer new old then setMark a new else a
  | _, _ => a

/-! ## Completion (R173) -/

/-- The runs a completion writes: outcome and detail, the results, then the state DONE. -/
def completionRuns (address : Nat) (c : Completion) : List (Nat × List Byte) :=
  [(address + 0x0E, leBytes 1 (outcomeCode c.outcome) ++ leBytes 1 c.detail),
   (address + 0x30, resultsArea c.results),
   (address + 0x0D, leBytes 1 doneState)]

/-- Add a stall access and set the stall cause (R170). -/
def addStall (s : State) (x : StallAccess) (c : StallCause) : State :=
  s.modEx (fun e => { e with
    state := .stalled
    stallCause := some c
    stalls := if e.stalls.contains x then e.stalls else e.stalls ++ [x] })

/-- The order's completion stays held, awaiting a retry of its write. -/
def stallCompletion (a : Act) (o : Order) (c : Completion) (x : Nat) : Act :=
  (a.on (fun s => addStall (modOrder s o.sequence (fun o => { o with status := .completing c }))
    (.completion o.sequence) .memoryFault)).memFault .orderWrite x

/-- The order is DONE: it leaves the window, is counted, the mark is re-judged and one ORDERS notice is posted. -/
def orderDone (a : Act) (o : Order) (c : Completion) : Act :=
  let failed := decide (c.outcome ≠ .done)
  let a := a.on (·.modEx (fun e => { e with
    window := e.window.filter (fun w => w.sequence != o.sequence)
    stalls := e.stalls.filter (fun x => x != .completion o.sequence)
    ordersDone := if failed then e.ordersDone else e.ordersDone + 1
    ordersFailed := if failed then e.ordersFailed + 1 else e.ordersFailed }))
  (judgeMark a).post (.notice (.orders 1 o.sequence failed))

/-- Write an order's completion, or stall on the faulting write. -/
def writeCompletion (a : Act) (o : Order) (c : Completion) : Act :=
  match writeRuns a.s (completionRuns o.address.toNat c) with
  | (s, none) => orderDone { a with s := s } o c
  | (s, some x) => stallCompletion { a with s := s } o c x

/-- The owner gives an order its outcome, detail and results. An order no longer in the window was abandoned. -/
def complete (a : Act) (seq : BitVec 32) (outcome : Outcome) (detail : Nat := 0) (results : List Byte := []) : Act :=
  match windowOrder a.s seq with
  | none => a
  | some o => writeCompletion a o ⟨outcome, detail, results⟩

/-- Complete an order DONE. -/
def done (a : Act) (o : Order) (results : List Byte := []) : Act := complete a o.sequence .done 0 results

/-- Complete an order BAD_ORDER with a parameter's index. -/
def badOrder (a : Act) (o : Order) (index : Nat) : Act := complete a o.sequence .badOrder index

end Sys2Proof.Machine
end

