-- ==== Sys2Proof/Machine/Switch.lean ====
section
/-! DEFINITION. The cell switch (01): originated cells, the three queues of each port and their drops (R14), flood
memory and the newness test (R9, R10), flood copies (R11), relay (R13), the flush of a lost port's queues (R17) and of
rerouted cells (R18). -/

namespace Sys2Proof.Machine

/-- A cell originated by the part, its header fields filled under R2. -/
def ownCell (s : State) (k : Kind) (dest : Nat) (payload : List Byte) (floodSeq : BitVec 16 := 0)
    (word : BitVec 32 := 0) : Cell :=
  { kind := k, origin := s.own, dest := BitVec.ofNat 8 dest, hops := 0, incarnation := s.store.incarnation,
    floodSeq := floodSeq, word := word, payload := payload }

/-! ## The queues (R14) -/

/-- A class's queue accepts offers while its port is in this state. -/
def queueAccepts (c : TxClass) (st : PortState) : Bool :=
  st == .up || (c == .tq && st == .training)

/-- A queue of a link, by class. -/
def queueOf (l : Link) : TxClass → List Queued
  | .tq => l.tQueue
  | .cq => l.cQueue
  | .dq => l.dQueue

def capacityOf : TxClass → Nat
  | .tq => tCapacity
  | .cq => cCapacity
  | .dq => dCapacity

/-- A link with a queue replaced. -/
def setQueue (l : Link) (c : TxClass) (q : List Queued) : Link :=
  match c with
  | .tq => { l with tQueue := q }
  | .cq => { l with cQueue := q }
  | .dq => { l with dQueue := q }

/-- A drop at a full queue, by class (R19). -/
def countDrop (k : PortCounters) : TxClass → PortCounters
  | .tq => { k with tDrops := k.tDrops + 1 }
  | .cq => { k with cDrops := k.cDrops + 1 }
  | .dq => { k with dDrops := k.dDrops + 1 }

/-- `n` FLUSH drops (R19). -/
def countFlush (k : PortCounters) (n : Nat) : PortCounters := { k with flush := k.flush + BitVec.ofNat 32 n }

/-- What an offer does to a link whose port is in a state (R14). -/
def offerLink (l : Link) (st : PortState) (c : TxClass) (q : Queued) : Link :=
  if queueAccepts c st = false then { l with counters := countFlush l.counters 1 }
  else if (queueOf l c).length < capacityOf c then setQueue l c (queueOf l c ++ [q])
  else { l with counters := countDrop l.counters c }

/-- A cell offered to the queue of its class at a port. -/
def offer (s : State) (p : PortIx) (q : Queued) : State :=
  s.modLink p (fun l => offerLink l (s.port p).state (kindClass q.cell.kind) q)

/-- The cell joins the queue of its class at a port: the queue accepts offers and has space. -/
def offerJoins (s : State) (p : PortIx) (c : TxClass) : Bool :=
  queueAccepts c (s.port p).state && decide ((queueOf (s.link p) c).length < capacityOf c)

/-- A cell offered to several ports. -/
def offerEach (s : State) (ps : List PortIx) (c : Cell) : State := ps.foldl (fun s p => offer s p ⟨c, none⟩) s

/-- A routed cell originated here, offered to the port its destination's entry names; nothing where the entry is
UNKNOWN. -/
def sendRouted (s : State) (dest : FrameNo) (c : Cell) : State :=
  match s.route dest with
  | none => s
  | some r => offer s r.port ⟨c, none⟩

/-! ## Flood memory and copies (R9 to R11) -/

/-- The flood memory record of a flooded kind. -/
def floodRecord (r : FloodRow) : Kind → Option FloodRecord
  | .trig => r.trig
  | .beacon => r.beacon
  | .roll => r.roll
  | _ => none

/-- A row with the record of a flooded kind replaced. -/
def setFloodRecord (r : FloodRow) (k : Kind) (v : FloodRecord) : FloodRow :=
  match k with
  | .trig => { r with trig := some v }
  | .beacon => { r with beacon := some v }
  | .roll => { r with roll := some v }
  | _ => r

/-- The newness test of R10. -/
def isNew (held : Option FloodRecord) (incarnation floodSeq : BitVec 16) : Bool :=
  match held with
  | none => true
  | some h => h.incarnation != incarnation || newer floodSeq h.sequence

/-- The record of an origin and kind takes a cell's incarnation and sequence. -/
def recordFlood (s : State) (k : Kind) (rx : Rx) : State :=
  { s with flood := upd s.flood rx.origin (fun r => setFloodRecord r k ⟨rx.incarnation, rx.floodSeq⟩) }

/-- The three records of an origin are emptied (R9). -/
def clearFlood (s : State) (f : FrameNo) : State := { s with flood := upd s.flood f (fun _ => .empty) }

/-- The copies of a new flooded cell (R11). -/
def floodCopies (s : State) (k : Kind) (rx : Rx) : State :=
  if h : s.own ≠ 0 ∧ rx.hops.val < maxHops then
    offerEach s (s.upPorts.filter (· != rx.port))
      { rxCell k rx with hops := ⟨rx.hops.val + 1, by have := h.2; simp only [maxHops] at this; omega⟩ }
  else s

/-! ## Relay (R13) -/

/-- A routed cell for another frame: the three tests, then the offer. -/
def relayCell (s : State) (k : Kind) (rx : Rx) : State :=
  let dest : FrameNo := ⟨rx.dest.toNat % 32, Nat.mod_lt _ (by decide)⟩
  match (if s.own = 0 then none else s.route dest) with
  | none => s.modCounters rx.port (fun c => { c with noroute := c.noroute + 1 })
  | some r =>
    if r.port = rx.port then s.modCounters rx.port (fun c => { c with reflect := c.reflect + 1 })
    else if h : rx.hops.val < maxHops then
      offer s r.port
        ⟨{ rxCell k rx with hops := ⟨rx.hops.val + 1, by simp only [maxHops] at h; omega⟩ }, none⟩
    else s.modCounters rx.port (fun c => { c with hops := c.hops + 1 })

/-! ## Flushes (R17, R18) -/

/-- The transmitter still has the cell on the line: its end delimiter is to come, or it is a local DATA cell whose end
has not been reported (entry 11). -/
def lineBusy (now : Nat) (l : Link) : Bool :=
  match l.line with
  | none => false
  | some x => decide (now < x.endsAt) || x.src.isSome

/-- A lost port's queues emptied and its cell on the line abandoned, each counted as a FLUSH drop (R17). The moment of the
next arbiter decision stays that of the abandoned cell's gap: the model's choice (entry 53). -/
def flushLink (now : Nat) (l : Link) : Link :=
  { l with
    tQueue := []
    cQueue := []
    dQueue := []
    line := none
    counters := countFlush l.counters
      (l.tQueue.length + l.cQueue.length + l.dQueue.length + (if lineBusy now l then 1 else 0)) }

/-- The local DATA cell on the line of a port, if any. -/
def localOnLine (l : Link) : Option LocalCell := l.line.bind (·.src)

/-- Relayed DATA for a rerouted frame leaves the old port's queue, counted as REROUTE drops (R18). -/
def rerouteLink (f : FrameNo) (l : Link) : Link :=
  let gone := l.dQueue.filter (fun q => q.cell.dest.toNat == f.val)
  { l with
    dQueue := l.dQueue.filter (fun q => q.cell.dest.toNat != f.val)
    counters := { l.counters with reroute := l.counters.reroute + BitVec.ofNat 32 gone.length } }

end Sys2Proof.Machine
end

