-- ==== Sys2Proof/Machine/PortUnit.lean ====
section
/-! DEFINITION. The port record alone (02): what entering each state does to it, the delay filter (R31), the health
balance (R32 to R34), the neighbour record (R27), and the cells a port originates (R26). The events a change of state
gives the other units are in PortEvents. -/

namespace Sys2Proof.Machine

/-! ## What the transmitter and the filter show -/

/-- What a port's transmitter sends (02, table of port states; R25). -/
def transmitting (p : Port) : Transmitting :=
  match p.state with
  | .held => .off
  | .dark | .lockout => .silent
  | .training => if p.lock then .cells else .trainingSymbols
  | .up => .cells
  | .faulted => .idleOnly

/-- The filtered delay: the mean of the samples, rounded down; 0 while there are none (R31). -/
def filteredDelay (p : Port) : Nat := if p.samples = [] then 0 else p.samples.sum / p.samples.length

/-- How far a measurement may lie from the filtered delay once four samples are held (R31). -/
def outlierLimit : Nat := 100

/-- A measurement offered to the delay filter (R31); one below 0 is an outlier (R28). -/
def offerMeasurement (p : Port) (m : Int) : Port :=
  if m < 0 then { p with outliers := p.outliers + 1 }
  else if p.samples.length < 4 then { p with samples := p.samples ++ [m.toNat] }
  else if (m - filteredDelay p).natAbs ≤ outlierLimit then { p with samples := p.samples.drop 1 ++ [m.toNat] }
  else { p with outliers := p.outliers + 1 }

/-! ## Entering a state -/

/-- Leaving UP (R39): the silence watch stops, the outstanding probe is dropped, the attempts are cleared. -/
def leaveUp (p : Port) : Port := { p with silenceSince := none, outstanding := none, attempts := 0 }

/-- Entering DARK sends a burst; the noise count starts where signal without lock is present (R22, R23). That signal
without lock from before the entry does not count is the model's choice (entry 63). -/
def enterDark (now : Nat) (p : Port) : Port :=
  { p with
    bursts := p.bursts + 1
    lastBurst := now
    noiseSince := if p.signal && !p.lock then some now else none
    trainingSince := none
    lastProbe := none }

/-- Entering LOCKOUT: the quiet count runs while signal is absent (R24). -/
def enterLockout (now : Nat) (p : Port) : Port :=
  { p with noiseSince := none, quietSince := if p.signal then none else some now }

/-- Entering TRAINING (R25): the record is cleared, the training limit starts, the receive stage ignores the line. Lock
is to be gained in this training (entry 13). -/
def enterTraining (now : Nat) (p : Port) : Port :=
  { p with
    health := 0
    settling := 0
    partnerSerial := 0
    partnerFrame := 0
    partnerPort := 0
    partnerIncarnation := 0
    samples := []
    outstanding := none
    rxStage := .ignoring 0
    trips := 0
    lastNull := false
    lock := false
    noiseSince := none
    quietSince := none
    trainingSince := some now
    lastProbe := none
    silenceSince := none }

/-- Settling cells after UP (R29, R32). -/
def settlingCells : Nat := 4

/-- Entering UP (R29, R36). -/
def enterUp (now : Nat) (p : Port) : Port :=
  { p with
    settling := settlingCells
    health := 0
    lastNull := false
    trainingSince := none
    silenceSince := if p.partnerFrame = 0 then none else some now }

/-- Entering HELD or FAULTED stops what the earlier state timed. -/
def enterIdle (p : Port) : Port :=
  { p with noiseSince := none, quietSince := none, trainingSince := none, lastProbe := none }

/-- What entering a state does to the record. -/
def enterState (now : Nat) (p : Port) : PortState → Port
  | .held | .faulted => enterIdle p
  | .dark => { enterDark now p with quietSince := none }
  | .lockout => enterLockout now p
  | .training => enterTraining now p
  | .up => enterUp now p

/-- The record after a change of state with its cause (R21). -/
def changeRecord (now : Nat) (p : Port) (st : PortState) (cause : PortCause) : Port :=
  let p := if p.state = .up ∧ st ≠ .up then leaveUp p else p
  { enterState now p st with state := st, cause := cause }

/-! ## Reports of the receive stage (R32 to R34) -/

/-- A good cell reported to the port unit. -/
def goodReport (p : Port) : Port :=
  let p := { p with lastNull := false }
  if p.state ≠ .up then p
  else if 0 < p.settling then { p with settling := p.settling - 1 }
  else { p with health := p.health - 1 }

/-- What an erroneous cell reported to the port unit leads to. -/
inductive ErrorVerdict
  | pulled
  | faulted
  | record (p : Port)
  deriving DecidableEq, Repr

/-- An erroneous cell reported to the port unit, with its null flag: PULLED first, then settling, then health. -/
def errorReport (threshold : Nat) (null : Bool) (p : Port) : ErrorVerdict :=
  if p.state ≠ .up then .record { p with lastNull := false }
  else if null && p.lastNull then .pulled
  else if 0 < p.settling then .record { p with settling := p.settling - 1, lastNull := null }
  else if threshold < p.health + 1 then .faulted
  else .record { p with health := p.health + 1, lastNull := null }

/-! ## The neighbour record and the silence watch (R27, R36) -/

/-- The partner frame takes a value in UP: a change from 0 starts the watch, a change to 0 stops it. -/
def setPartnerFrame (now : Nat) (f : FrameNo) (p : Port) : Port :=
  { p with
    partnerFrame := f
    silenceSince :=
      if f = 0 then none
      else if p.partnerFrame = 0 then some now
      else p.silenceSince }

/-- A partner beacon at an UP port: the partner frame takes its origin and the watch restarts. -/
def partnerBeacon (now : Nat) (f : FrameNo) (p : Port) : Port :=
  if p.state = .up then { setPartnerFrame now f p with silenceSince := if f = 0 then none else some now } else p

/-- Training has succeeded (R29). -/
def trainingDone (now : Nat) (p : Port) : Bool :=
  p.state == .training && p.lock && decide (2 ≤ p.trips) && p.partnerSerial != 0 &&
    (match p.trainingSince with | some t => decide (now ≤ t + trainingLimit) | none => false)

/-! ## PROBE and ECHO (R26, R28) -/

/-- A PROBE's serial, port index and probe number, if its form fits; a serial is never 0 (R6, R184, R191). -/
structure ProbeFields where
  serial : Serial
  port : PortIx
  number : BitVec 8
  deriving DecidableEq, Repr

def parseProbe (b : List Byte) : Option ProbeFields :=
  if h : b.length = 8 ∧ beAt b 6 1 < 4 ∧ beAt b 0 6 ≠ 0 then
    some ⟨BitVec.ofNat 48 (beAt b 0 6), ⟨beAt b 6 1, h.2.1⟩, BitVec.ofNat 8 (beAt b 7 1)⟩
  else none

/-- An ECHO's probe number and turnaround, if its form fits. -/
structure EchoFields where
  number : BitVec 8
  turnaround : Nat
  deriving DecidableEq, Repr

def parseEcho (b : List Byte) : Option EchoFields :=
  if b.length = 12 then some ⟨BitVec.ofNat 8 (beAt b 0 1), beAt b 4 8⟩ else none

/-- The PROBE a port sends now (R26). -/
def probeCell (s : State) (p : PortIx) : Cell :=
  ownCell s .probe 0 (probePayload s.serial p (s.port p).probeNumber)

/-- A port's PROBE is offered to its T queue; the probe number advances when it joins (R25, R26, entry 14). The probe
period runs on from `due`. -/
def sendProbe (s : State) (p : PortIx) (due : Nat) : State :=
  let joins := offerJoins s p .tq
  let s := offer s p ⟨probeCell s p, none⟩
  s.modPort p (fun r => { r with
    lastProbe := some due
    probeNumber := if joins then r.probeNumber + 1 else r.probeNumber })

/-- The departure of a PROBE makes it the outstanding probe; an earlier one is a missed echo (R26). -/
def probeDeparts (number : BitVec 8) (time : Time) (p : Port) : Port :=
  { p with
    outstanding := some ⟨number, time, 0⟩
    missedEchoes := if p.outstanding.isSome then p.missedEchoes + 1 else p.missedEchoes }

/-- The measurement an ECHO gives: the round trip, less the steps taken within it, less the turnaround, halved and rounded
down (R28). The arrival stamp given is corrected by the steps taken since, which the probe's sum of steps has too. -/
def measurement (o : OutstandingProbe) (arrival : Time) (turnaround : Nat) : Int :=
  ((arrival - o.departure - o.steps).toInt - turnaround) / 2

/-- A round trip completed by an ECHO (R28). -/
def completeTrip (p : Port) (arrival : Time) (e : EchoFields) : Port :=
  match p.outstanding with
  | none => p
  | some o =>
    if o.number ≠ e.number then p
    else offerMeasurement { p with outstanding := none, trips := p.trips + 1 } (measurement o arrival e.turnaround)

/-- A step of rack time reaches a port: it joins the steps of the outstanding probe (R26, R28). -/
def stepPort (size : BitVec 64) (p : Port) : Port :=
  { p with outstanding := p.outstanding.map (fun o => { o with steps := o.steps + size }) }

/-- A step of rack time reaches queued ECHOs: the arrival stamps they answer move with it (R26). -/
def stepLink (size : BitVec 64) (l : Link) : Link :=
  { l with tQueue := l.tQueue.map (fun q => { q with answers := q.answers.map (· + size) }) }

end Sys2Proof.Machine
end

