-- ==== Sys2Proof/Machine/Flags.lean ====
section
/-! DEFINITION. What is computed from the state and shown outside: the quality of a stamp (R86), the interrupt line
(R179), the registers as read (R167), the lane outputs (R110) and the transmitters (02). -/

namespace Sys2Proof.Machine

/-- The quality a timebase state gives (R86). -/
def qualityOf : TimeState → Nat
  | .master | .locked => qualityGood
  | .holdover => qualityHeld
  | .free | .acquiring => qualityNone

/-- The quality of a stamp written now (R86). -/
def quality (s : State) : Nat := qualityOf s.tb.state

/-- The timebase has no rack time to pace by: FREE or ACQUIRING (R125, R128). -/
def noSync (s : State) : Bool := s.tb.state == .free || s.tb.state == .acquiring

/-- The lanes held FULL, bit k for lane k. -/
def fullLanes (e : Exchange) : BitVec 12 := bitmap 12 allNotices (fun k => (e.lanes.get k).full)

/-- The interrupt line (R179): outside BROKEN some lane held FULL has its mask bit set; in BROKEN always. -/
def lineAsserted (e : Exchange) : Bool := e.state == .broken || (fullLanes e &&& e.mask) != 0

/-- The stall cause as read: only in STALLED (R167). -/
def shownStall (e : Exchange) : Option StallCause := if e.state = .stalled then e.stallCause else none

/-- LINE as read (R167, 12 Registers). -/
def lineRegister (e : Exchange) : BitVec 32 :=
  BitVec.ofNat 32 ((fullLanes e).toNat + 2 ^ 16 * flagCode (lineAsserted e) + 2 ^ 17 * exStateCode e.state
    + 2 ^ 19 * stallCauseCode (shownStall e) + 2 ^ 21 * flagCode e.attachFault)

/-- IDENT (12 Registers). -/
def identRegister : BitVec 32 :=
  BitVec.ofNat 32 (Config.vendorCode.toNat + 2 ^ 16 * Config.partCode.toNat + 2 ^ 24 * Config.revision.toNat)

/-- The exchange unit as its registers show it: while the reset input is asserted they read as after reset (R186). -/
def shownExchange (s : State) : Exchange := if s.inReset then .reset else s.ex

/-- A read of the register window: NUDGE and every offset that names no register read 0 (R167). -/
def readRegister (s : State) (offset : BitVec 8) : BitVec 32 :=
  if offset = 0x00 then identRegister
  else if offset = 0x08 then (shownExchange s).baseLo
  else if offset = 0x0C then (shownExchange s).baseHi
  else if offset = 0x14 then lineRegister (shownExchange s)
  else 0

/-- What a port puts on the cable: nothing while the reset input is asserted (R186). -/
def portOutput (s : State) (p : PortIx) : Transmitting := if s.inReset then .off else transmitting (s.port p)

/-- A lane's output line is at the asserted level while its output stage pulses (R110). That it is low while the reset input
is asserted, a pulse in progress included, is the model's choice (entry 71). -/
def outputHigh (s : State) (k : LaneIx) : Bool := !s.inReset && (s.trig.lanes.get k).pulseEnd.isSome

end Sys2Proof.Machine
end

