-- ==== Sys2Proof/Machine/StreamBase.lean ====
section
/-! DEFINITION. Stream slots: the cells a slot sends (R119), its state, settled state and gate (R125, R126), cut-offs
(R151), the completion of Block Records (R148, R149), memory faults (R157) and closing (R141, R142). -/

namespace Sys2Proof.Machine

/-- The strand deadline (R133). -/
def strandTime : Nat := 2 * second

/-- The close deadline (R136, R138). -/
def closeTime : Nat := 1 * second

/-! ## Sending stream cells (R119) -/

/-- The direction a slot's cells travel. -/
def slotDirection (sl : Slot) : Nat := if sl.role = .source then towardSink else towardSource

/-- A slot's cell offered to the port its peer's entry names; counted UNSENT in the slot when the entry is UNKNOWN. -/
def sendSlotCell (s : State) (n : SlotIx) (k : Kind) (payload : List Byte) (word : BitVec 32 := 0) : State :=
  let peer := (s.slot n).peer
  match s.route peer with
  | none => s.modSlot n (fun x => { x with counters := { x.counters with unsent := x.counters.unsent + 1 } })
  | some r => offer s r.port ⟨ownCell s k peer.val payload 0 word, none⟩

/-- The slot's peer is REACHABLE. -/
def peerReachable (s : State) (n : SlotIx) : Bool := (s.route (s.slot n).peer).isSome

/-- OPEN (R122), counted OPEN SENT when it is sent. -/
def sendOpen (s : State) (n : SlotIx) : State :=
  let x := s.slot n
  let sent := peerReachable s n
  (sendSlotCell s n .openCell (openPayload x.tag x.openNumber x.blockSize x.pace)).modSlot n (fun x =>
    { x with counters := { x.counters with openSent := if sent then x.counters.openSent + 1 else x.counters.openSent } })

/-- CREDIT with the limit and the self halt flag (R130), counted CREDIT SENT when it is sent. -/
def sendCredit (s : State) (n : SlotIx) : State :=
  let x := s.slot n
  let sent := peerReachable s n
  (sendSlotCell s n .credit (creditPayload x.tag x.openNumber x.creditLimit x.selfHalt)).modSlot n (fun x =>
    { x with counters :=
      { x.counters with creditSent := if sent then x.counters.creditSent + 1 else x.counters.creditSent } })

/-- HALT on or off (R131). -/
def sendHalt (s : State) (n : SlotIx) (on : Bool) : State :=
  let x := s.slot n
  sendSlotCell s n .halt (haltPayload x.tag x.openNumber (slotDirection x) on)

/-- CLOSE with a reason (R141). -/
def sendClose (s : State) (n : SlotIx) (reason : CloseReason) : State :=
  let x := s.slot n
  sendSlotCell s n .close (closePayload x.tag x.openNumber (slotDirection x) reason)

/-- BLOCKACK of a block (R154). -/
def sendAck (s : State) (n : SlotIx) (block : BitVec 32) (result : BlockOutcome) : State :=
  let x := s.slot n
  sendSlotCell s n .blockack (blockackPayload x.tag x.openNumber result) block

/-! ## Notices and states -/

/-- A STREAMS notice for the slot; the done-since-notice count starts again (R156). -/
def notify (a : Act) (n : SlotIx) : Act := (a.on (·.modSlot n (fun x => { x with sinceNotice := 0 }))).streamNotice n

/-- The slot takes a state with a cause, reported by a STREAMS notice (R117). -/
def setSlotState (a : Act) (n : SlotIx) (st : StreamState) (cause : StreamCause) : Act :=
  notify (a.on (·.modSlot n (fun x => { x with state := st, cause := cause }))) n

/-- The start time with which a slot's gate opens now, if it does (R126; a NOW gate is judged wherever the slot would
be ARMED, entry 17). -/
def gateDue (s : State) (x : Slot) : Option Time :=
  match x.gate with
  | .now => some s.tb.rackTime
  | .atTime t => if reached s t then some t else none
  | .onLane _ => none

/-- A slot with its gate opened at a start time. -/
def openGate (t : Time) (x : Slot) : Slot := { x with gateOpen := true, startTime := t, nextPace := 0 }

/-- A source whose gate is closed and neither halt flag set would be ARMED: its gate is judged. -/
def judgeGate (s : State) (n : SlotIx) : State :=
  let x := s.slot n
  if x.role = .source ∧ x.gateOpen = false ∧ x.selfHalt = false ∧ x.peerHalt = false then
    match gateDue s x with
    | some t => s.modSlot n (openGate t)
    | none => s
  else s

/-- The settled state (R125). -/
def settledState (s : State) (x : Slot) : StreamState :=
  match x.role with
  | .source =>
    if x.selfHalt || x.peerHalt then .halted
    else if x.gateOpen = false then .armed
    else if x.pace ≠ 0 ∧ noSync s = true then .timeheld
    else .flowing
  | .sink => if x.selfHalt || x.peerHalt || x.drain then .halted else .flowing

/-- The slot takes its settled state now, whatever state it leaves. -/
def takeSettled (a : Act) (n : SlotIx) (cause : StreamCause) : Act :=
  let a := a.on (judgeGate · n)
  setSlotState a n (settledState a.s (a.s.slot n)) cause

/-- The state is one an opened slot settles in. -/
def isSettling (st : StreamState) : Bool :=
  match st with
  | .armed | .flowing | .timeheld | .halted => true
  | _ => false

/-- An input of the settled state changed: a slot in a settled state takes the one that now applies (R125). Where its gate
opens in this judgement too, the one change has the cause given, not GATE: the model's choice (entry 82). -/
def settle (a : Act) (n : SlotIx) (cause : StreamCause) : Act :=
  if isSettling (a.s.slot n).state then
    let b := a.on (judgeGate · n)
    let st := settledState b.s (b.s.slot n)
    if st = (a.s.slot n).state then b else setSlotState b n st cause
  else a

/-! ## Records of a slot -/

/-- A record just fetched. -/
def newRec (address : Option (BitVec 64)) (linked : Bool) (number : Option (BitVec 32)) (stage : Stage)
    (outcome : Option BlockOutcome) (buffer : BitVec 64) (length : Nat) : Rec :=
  { address := address, linked := linked, number := number, stage := stage, outcome := outcome, buffer := buffer,
    length := length, lengthDone := 0, timestamp := 0, quality := 0, arrival := 0, late := false, cutOff := false,
    ackSince := none }

/-- The record of a block number, the END block of FINISH included. -/
def findRec (x : Slot) (b : BitVec 32) : Option Rec :=
  match x.fetched.find? (fun r => r.number == some b) with
  | some r => some r
  | none => x.endBlock.filter (fun r => r.number == some b)

/-- A slot with the record of a block number changed. -/
def modRec (b : BitVec 32) (f : Rec → Rec) (x : Slot) : Slot :=
  { x with
    fetched := x.fetched.map (fun r => if r.number = some b then f r else r)
    endBlock := x.endBlock.map (fun r => if r.number = some b then f r else r) }

/-- The sending of a block ends: its record is SENT and its acknowledgement timer runs (R151). -/
def endSending (now : Nat) (x : Slot) : Slot :=
  match x.sending with
  | none => x
  | some d => { modRec d.block (fun r => { r with stage := .sent, ackSince := some now }) x with
      sending := none, offer := none }

/-- The block whose cells are being offered is cut off (R151). -/
def cutOffSlot (now : Nat) (x : Slot) : Slot :=
  match x.sending with
  | none => x
  | some d =>
    let y := modRec d.block (fun r => { r with cutOff := true }) (endSending now x)
    { y with counters := { y.counters with cutOff := y.counters.cutOff + 1 } }

/-- A slot's block in progress is cut off. -/
def cutOff (s : State) (n : SlotIx) : State := s.modSlot n (cutOffSlot s.now)

/-- Blocks started and not resolved: the count falls by 1. -/
def lowerUnresolved (x : Slot) : Slot := { x with unresolved := x.unresolved - 1 }

/-! ## Completion writes (R144, R148) -/

/-- The fields a completion writes after the outcome byte, at 0x16 (12, Block Record): flags, quality, length done,
block number, timestamp, and at a sink the arrival time. -/
def recFields (role : Role) (r : Rec) : List Byte :=
  leBytes 1 (flagCode r.late + 2 * flagCode r.cutOff) ++ leBytes 1 r.quality.toNat ++ leBytes 4 r.lengthDone
    ++ leBytes 4 (match r.number with | some b => b.toNat | none => 0) ++ leBytes 8 r.timestamp.toNat
    ++ (match role with | .source => [] | .sink => leBytes 8 r.arrival.toNat)

/-- The runs that complete a record: outcome and fields, then the state DONE. -/
def recRuns (role : Role) (address : Nat) (o : BlockOutcome) (r : Rec) : List (Nat × List Byte) :=
  [(address + 0x15, leBytes 1 (blockOutcomeCode o) ++ recFields role r), (address + 0x14, leBytes 1 doneState)]

/-- The counter of an outcome (R159). -/
def countOutcome (c : SlotCounters) : BlockOutcome → SlotCounters
  | .delivered => { c with delivered := c.delivered + 1 }
  | .damaged => { c with damaged := c.damaged + 1 }
  | .unconfirmed => { c with unconfirmed := c.unconfirmed + 1 }
  | .discarded => { c with discarded := c.discarded + 1 }
  | .rejected => { c with rejected := c.rejected + 1 }
  | .ended => { c with ended := c.ended + 1 }

/-- One record released (R149). -/
def releaseRec (number : Option (BitVec 32)) (x : Slot) : Slot :=
  { x with
    released := x.released + 1
    releaseMark := match number with | some b => b | none => x.releaseMark }

/-- The oldest record is DONE with an outcome: it leaves the list, is counted, and is released unless it is the tail. -/
def recDone (o : BlockOutcome) (r : Rec) (x : Slot) : Slot :=
  let x := { x with
    fetched := x.fetched.drop 1
    doneCount := x.doneCount + 1
    sinceNotice := x.sinceNotice + 1
    counters := countOutcome x.counters o
    lastRecord := x.lastRecord.map (fun l => if some l.address = r.address then { l with done := true } else l) }
  if r.linked then releaseRec r.number x else x

/-- The outcome calls for a notice by itself (R156). -/
def isExceptional : BlockOutcome → Bool
  | .delivered | .ended => false
  | .damaged | .unconfirmed | .discarded | .rejected => true

/-- Write one record's completion; the faulting address when the write faults. -/
def writeRec (s : State) (n : SlotIx) (o : BlockOutcome) (r : Rec) : State × Option Nat :=
  match r.address with
  | none => (s, none)
  | some ad => writeRuns s (recRuns (s.slot n).role ad.toNat o r)

/-- One memory fault on block access counted (R159) and reported (R157, R158). -/
def blockFault (a : Act) (n : SlotIx) (w : What) (address : Nat) : Act :=
  (a.on (·.modSlot n (fun x => { x with counters := { x.counters with faults := x.counters.faults + 1 } }))).memFault
    w address

/-- A memory fault sets the self halt as HALT_STREAM sets it (R157), unless the slot is OFFERED, OPENING or CLOSED or
the flag is set. In a slot whose state this does not change (HALTED by its peer, STRANDED, DRAINING) the cause stays as
it was: the model's choice (entry 49). -/
def faultHalt (a : Act) (n : SlotIx) : Act :=
  let x := a.s.slot n
  if x.state = .offered ∨ x.state = .opening ∨ x.state = .closed ∨ x.selfHalt = true then a
  else
    settle (a.on (fun s => sendHalt (s.modSlot n (fun x => { x with selfHalt := true, lastHalt := s.now })) n true)) n
      .memoryFault

/-- A completion write faulted: the record and those behind it wait (R157). -/
def completionFault (a : Act) (n : SlotIx) (address : Nat) : Act :=
  faultHalt (blockFault (a.on (·.modSlot n (fun x => { x with writeStop := true }))) n .blockRecordWrite address) n

/-- What a run of completions did: whether an outcome called for a notice, whether an END of a source was made DONE. -/
structure Run where
  exceptional : Bool
  ended : Bool
  any : Bool
  deriving DecidableEq, Repr

/-- The oldest records with held outcomes are made DONE, one after the other (R148). The END of a source is an END
outcome of a block of length 0; END for any other block is made DONE as given and ends nothing (entry 50). -/
def completeRun (n : SlotIx) : Nat → Act → Run → Act × Run
  | 0, a, r => (a, r)
  | fuel + 1, a, run =>
    match (a.s.slot n).fetched with
    | [] => (a, run)
    | r :: _ =>
      match r.outcome with
      | none => (a, run)
      | some o =>
        match writeRec a.s n o r with
        | (s, some x) => (completionFault { a with s := s } n x, run)
        | (s, none) =>
          completeRun n fuel (a.on (fun _ => s.modSlot n (recDone o r)))
            ⟨run.exceptional || isExceptional o, run.ended || (o == .ended && r.length == 0), true⟩

/-- The act has a STREAMS notice of the slot to post already. -/
def noticeDue (a : Act) (n : SlotIx) : Bool := a.posts.contains (.notice (.streams (bit 64 n.val)))

/-- Whether a run of completions is to be noticed (R156): by what it did itself, or by the one notice its act has to
post for the slot already, which covers every record the act makes DONE. -/
def runNoticed (a : Act) (n : SlotIx) (r : Run) : Bool :=
  r.exceptional ||
    (r.any && (noticeDue a n || decide ((a.s.slot n).interval ≤ (a.s.slot n).sinceNotice)))

/-- Held outcomes completed in chain order, unless a faulted write awaits its retry, and noticed; whether an END was
among them. -/
def completeHeld (a : Act) (n : SlotIx) : Act × Bool :=
  if (a.s.slot n).writeStop then (a, false)
  else
    let (b, run) := completeRun n (a.s.slot n).fetched.length a ⟨false, false, false⟩
    (if runNoticed b n run then notify b n else b, run.ended)

/-- A closing slot's records completed in chain order, DISCARDED where no outcome is held; a fault leaves that record
and those behind it unwritten (R148, R157). A record whose write faulted before, in this act or an earlier one, is
among them (inferred, entry 78). That LATE is not judged for a record DISCARDED so, and that
a sink's record has the fields its block had reached, are the model's choices (entries 59 and 73). -/
def completeAll (n : SlotIx) : Nat → Act → Act
  | 0, a => a
  | fuel + 1, a =>
    match (a.s.slot n).fetched with
    | [] => a
    | r :: _ =>
      let o := r.outcome.getD .discarded
      match writeRec a.s n o r with
      | (s, some x) => blockFault { a with s := s } n .blockRecordWrite x
      | (s, none) => completeAll n fuel (a.on (fun _ => s.modSlot n (recDone o r)))

/-! ## Closing (R141, R142) -/

/-- The results of a finish order: the cause (R138). -/
def causeResult (c : StreamCause) : List Byte := leBytes 1 (streamCauseCode c)

/-- A slot's open or finish order completes with an outcome (R141 step 5). R138 gives the results with DONE and UNCONFIRMED;
that they are 0 with CANCELLED is the model's choice (entry 72). -/
def completeSlotOrders (a : Act) (n : SlotIx) (outcome : Outcome) (cause : StreamCause) : Act :=
  let x := a.s.slot n
  let a := a.on (·.modSlot n (fun x => { x with openOrder := none, finishOrder := none }))
  let a := match x.openOrder with | some q => complete a q outcome | none => a
  match x.finishOrder with
  | some q => complete a q outcome 0 (if outcome = .done ∨ outcome = .unconfirmed then causeResult cause else [])
  | none => a

/-- What a closed slot no longer holds. -/
def dropRunning (x : Slot) : Slot :=
  { x with
    strandDeadline := none
    closeDeadline := none
    drainMode := none
    fetched := []
    endBlock := none
    nextRecord := none
    stop := none
    fetchEnded := true
    writeStop := false
    sending := none
    offer := none }

/-- A slot closes with a cause; it sends a CLOSE of reason ABORT where the rule that closes it sends one; its open or
finish order completes with an outcome (R141). -/
def closeSlot (a : Act) (n : SlotIx) (cause : StreamCause) (sends : Bool) (outcome : Outcome := .cancelled) : Act :=
  let sends := sends && (a.s.slot n).state != .offered
  let a := a.on (cutOff · n)
  let a := setSlotState a n .closed cause
  let a := completeAll n (a.s.slot n).fetched.length a
  let a := a.on (·.modSlot n (fun x => { dropRunning x with sinceNotice := 0 }))
  let a := if sends then a.on (sendClose · n .abort) else a
  completeSlotOrders a n outcome cause

/-- A slot closes at an exchange reset or on entering BROKEN: no record is written, no order completes (R142). -/
def closeForExchange (reason : CloseReason) (cause : StreamCause) (s : State) (n : SlotIx) : State :=
  let st := (s.slot n).state
  if st = .closed then s
  else
    let s := cutOff s n
    let s := s.modSlot n (fun x =>
      { dropRunning x with state := .closed, cause := cause, openOrder := none, finishOrder := none })
    if st = .offered then s else sendClose s n reason

/-- After held outcomes are completed: a source whose END was made DONE closes ENDED (R155). -/
def completeAndEnd (a : Act) (n : SlotIx) : Act :=
  let (b, ended) := completeHeld a n
  if ended && (b.s.slot n).role == .source then closeSlot b n .ended false .done else b

end Sys2Proof.Machine
end

