-- ==== Sys2Proof/Machine/StreamFetch.lean ====
section
/-! DEFINITION. Fetching Block Records (R146, R147), fetch stops and their retry, and the tail record's release (R149). -/

namespace Sys2Proof.Machine

/-- The fetched list holds at most this many records (R145). -/
def fetchWindow : Nat := 16

/-- A Block Record is 48 bytes (R144). -/
def blockRecordSize : Nat := 48

/-- The slot drains under FINISH, its peer leaving or not (R136, R138). -/
def finishing (x : Slot) : Bool :=
  x.state == .draining && (x.drainMode == some .finish || x.drainMode == some .finishPeerLeaving)

/-- A fetch stop; the first not-posted or tail stop of a source DRAINING under FINISH ends its fetching (R138, R146). -/
def stopFetch (st : FetchStop) (x : Slot) : Slot :=
  { x with stop := some st, fetchEnded := x.fetchEnded || (finishing x && st != .memoryFault) }

/-- A slot in a state in which a sink sends CREDIT (R130). -/
def sendsCredit (x : Slot) : Bool :=
  x.role == .sink && (x.state == .flowing || x.state == .halted || x.state == .stranded)

/-- A record is bad at its fetch (R147). -/
def badRecord (x : Slot) (buffer length : Nat) : Bool :=
  buffer % 64 != 0 ||
    (match x.role with
     | .source => decide (x.blockSize < length)
     | .sink => decide (length < x.blockSize))

/-- The record read at an address joins the fetched list (R146, R147). -/
def appendRec (address : BitVec 64) (b : List Byte) (x : Slot) : Slot :=
  let link := leAt b 0 8
  let buffer := leAt b 8 8
  let length := leAt b 0x10 4
  let bad := badRecord x buffer length
  let number := if bad then none else some x.nextBlock
  let stage : Stage :=
    if bad then .resolved else match x.role with | .source => .waiting | .sink => .credited
  let r := newRec (some address) (link != 0) number stage (if bad then some .rejected else none)
    (BitVec.ofNat 64 buffer) length
  let x := { x with
    fetched := x.fetched ++ [r]
    nextRecord := if link = 0 then none else some (BitVec.ofNat 64 link)
    lastRecord := some ⟨address, link == 0, false, number⟩
    nextBlock := if bad then x.nextBlock else x.nextBlock + 1
    creditLimit := if bad = false ∧ x.role = .sink then x.nextBlock + 1 else x.creditLimit }
  if link = 0 then stopFetch .tail x else x

/-- A record read that faulted stops the fetch (R157). -/
def fetchFault (a : Act) (n : SlotIx) (address : Nat) : Act :=
  faultHalt (blockFault (a.on (·.modSlot n (stopFetch .memoryFault))) n .blockRecordRead address) n

/-- One record read whole and judged (R146, R147). -/
def fetchRecord (a : Act) (n : SlotIx) (address : BitVec 64) : Act :=
  match memRead a.s.mem address.toNat blockRecordSize with
  | .error x => fetchFault a n x
  | .ok b =>
    if leAt b 0x14 1 ≠ posted then a.on (·.modSlot n (stopFetch .notPosted))
    else
      let old := (a.s.slot n).creditLimit
      let a := a.on (·.modSlot n (appendRec address b))
      let a := if (a.s.slot n).creditLimit ≠ old ∧ sendsCredit (a.s.slot n) = true then a.on (sendCredit · n) else a
      completeAndEnd a n

/-- The engine may fetch for the slot: room in the list, the next record known, no stop pending, fetching not ended. -/
def mayFetch (x : Slot) : Bool :=
  x.state != .closed && decide (x.fetched.length < fetchWindow) && x.stop.isNone && !x.fetchEnded

/-- A tail's link is read nonzero: its target is the next record, and the tail is released if it is DONE (R146, R149). -/
def linkTail (link : Nat) (l : LastRecord) (x : Slot) : Slot :=
  let x := { x with
    stop := none
    nextRecord := some (BitVec.ofNat 64 link)
    lastRecord := some { l with linkZero := false }
    fetched := x.fetched.map (fun r => if r.address = some l.address then { r with linked := true } else r) }
  if l.done then releaseRec l.number x else x

/-- The tail's link alone is read again; the Stream Status entry is written when this releases the tail (R149). -/
def rereadLink (a : Act) (n : SlotIx) : Act :=
  match (a.s.slot n).lastRecord with
  | none => a
  | some l =>
    match memRead a.s.mem l.address.toNat 8 with
    | .error x => fetchFault a n x
    | .ok b =>
      let link := leNat b
      if link = 0 then a.on (·.modSlot n (stopFetch .tail))
      else
        let a := a.on (·.modSlot n (linkTail link l))
        if l.done then a.post (.status n) else a

/-- The slot's next record is read, or its tail's link where no record is known. -/
def readNext (a : Act) (n : SlotIx) : Act :=
  match (a.s.slot n).nextRecord with
  | some ad => fetchRecord (a.on (·.modSlot n (fun x => { x with stop := none }))) n ad
  | none => rereadLink a n

/-- A pending fetch stop is retried as a NUDGE for the slot retries it (R146). Once fetching has ended only a tail's
link is read, for its release (R149), again where that read itself faulted (R157). -/
def retryStop (a : Act) (n : SlotIx) : Act :=
  let x := a.s.slot n
  match x.stop with
  | none => a
  | some .tail => rereadLink a n
  | some _ => if x.fetchEnded ∧ x.nextRecord.isSome then a else readNext a n

/-- A faulted completion write is made again, whole, and completion goes on (R157). -/
def retryWrite (a : Act) (n : SlotIx) : Act :=
  if (a.s.slot n).writeStop then completeAndEnd (a.on (·.modSlot n (fun x => { x with writeStop := false }))) n else a

end Sys2Proof.Machine
end

