-- ==== Sys2Proof/Machine/StreamSend.lean ====
section
/-! DEFINITION. A source's blocks: which block is ready (R129), its DATA cells (R150, R151), pace points (R127), the
report of a sent cell, and the resolution of blocks (R155). -/

namespace Sys2Proof.Machine

/-- Sample bytes of cell 0 and of each later cell, at most (R150). -/
def cell0Bytes : Nat := 232
def cellBytes : Nat := 248

/-- The offset of a cell's first sample byte in its block. -/
def cellOffset (i : Nat) : Nat := if i = 0 then 0 else cell0Bytes + cellBytes * (i - 1)

/-- The sample bytes a cell of a block of a length carries (R150). -/
def cellCount (length i : Nat) : Nat :=
  if i = 0 then min length cell0Bytes else min cellBytes (length - cellOffset i)

/-- The last flag is set on a cell (R150). -/
def cellLast (length i : Nat) : Bool := cellOffset i + cellCount length i == length

/-- The most blocks started and not resolved (R129). -/
def sendWindow : Nat := 16

/-- The block a source sends next: the oldest record waiting, or, once fetching under FINISH has ended, the END block
(R129, R138). -/
def nextToSend (x : Slot) : Option (BitVec 32) :=
  if x.endStarted then none
  else
    match x.fetched.find? (fun r => r.stage == .waiting) with
    | some r => r.number
    | none => if x.state = .draining ∧ x.drainMode = some .finish ∧ x.fetchEnded = true then some x.nextBlock else none

/-- The block that is ready to start, if any (R129). -/
def readyBlock (s : State) (n : SlotIx) : Option (BitVec 32) :=
  let x := s.slot n
  let stateOk := x.role == .source &&
    (x.state == .flowing ||
      (x.state == .draining && x.drainMode == some .finish && !(x.pace != 0 && noSync s)))
  if stateOk && !x.selfHalt && !x.peerHalt && x.sending.isNone && decide (x.unresolved < sendWindow)
      && peerReachable s n then
    (nextToSend x).filter (fun b => newer x.creditLimit b)
  else none

/-- The cell of a block at an index. -/
def dataCell (s : State) (x : Slot) (b : BitVec 32) (i length : Nat) (timestamp : Time) (samples : List Byte) : Cell :=
  ownCell s .data x.peer.val
    (dataHead x.tag x.openNumber i (cellLast length i)
      ++ (if i = 0 then dataBlockHead length timestamp (quality s) else []) ++ samples) 0 b

/-- A buffer read that faults cuts the block off and sets the self halt (R158). -/
def bufferFault (a : Act) (n : SlotIx) (address : Nat) : Act :=
  faultHalt (blockFault (a.on (cutOff · n)) n .bufferRead address) n

/-- A cell of the block in progress is read from its buffer and offered to the arbiter of its port (R151). -/
def offerCell (a : Act) (n : SlotIx) (d : Sending) (timestamp : Time) : Act :=
  let x := a.s.slot n
  match findRec x d.block with
  | none => a
  | some r =>
    let count := cellCount r.length d.index
    match memRead a.s.mem (r.buffer.toNat + cellOffset d.index) count with
    | .error e => bufferFault a n e
    | .ok samples =>
      let cell := dataCell a.s x d.block d.index r.length timestamp samples
      let src : LocalCell := ⟨n, x.openNumber, d.block, d.index, count, cellLast r.length d.index⟩
      a.on (·.modSlot n (fun x => { x with sending := some d, offer := some ⟨cell, d.port, src⟩ }))

/-- The block's record becomes SENDING; the END block of FINISH is made here (R129, R138). -/
def startRec (b : BitVec 32) (port : PortIx) (x : Slot) : Slot :=
  let isHost := x.fetched.any (fun r => r.number == some b)
  let x := if isHost then x else
    { x with endBlock := some (newRec none false (some b) .waiting none 0 0), nextBlock := x.nextBlock + 1 }
  let x := modRec b (fun r => { r with stage := .sending }) x
  { x with
    unresolved := x.unresolved + 1
    sending := some ⟨b, 0, port⟩
    endStarted := x.endStarted || ((findRec x b).map (·.length) == some 0)
    counters := { x.counters with blocksStarted := x.counters.blocksStarted + 1 } }

/-- A ready block starts on the port its peer's entry names (R129, R151). -/
def startBlock (a : Act) (n : SlotIx) (b : BitVec 32) (timestamp : Time) : Act :=
  match a.s.route (a.s.slot n).peer with
  | none => a
  | some r => offerCell (a.on (·.modSlot n (startRec b r.port))) n ⟨b, 0, r.port⟩ timestamp

/-! ## Pace points (R127) -/

/-- The pace point of an index. -/
def pacePoint (x : Slot) (k : Nat) : Time := x.startTime + BitVec.ofNat 64 (k * x.pace)

/-- The index of the first pace point later than a rack time. -/
def indexAfter (x : Slot) (t : Time) : Nat :=
  if t.toNat < x.startTime.toNat then 0 else (t.toNat - x.startTime.toNat) / x.pace + 1

/-- The index of the first pace point at or after a rack time (R128). -/
def indexFrom (x : Slot) (t : Time) : Nat :=
  if t.toNat < x.startTime.toNat then 0 else (t.toNat - x.startTime.toNat + x.pace - 1) / x.pace

/-- A pace point is taken: a ready block starts, or a miss is counted, or the point passes (R127). -/
def takePoint (a : Act) (n : SlotIx) : Act :=
  let x := a.s.slot n
  let p := pacePoint x x.nextPace
  let a :=
    match readyBlock a.s n with
    | some b => startBlock a n b p
    | none =>
      if x.state = StreamState.flowing then
        a.on (·.modSlot n (fun x => { x with counters := { x.counters with missedPace := x.counters.missedPace + 1 } }))
      else a
  a.on (fun s => s.modSlot n (fun x => { x with nextPace := indexAfter x s.tb.rackTime }))

/-! ## A sent cell (R151) -/

/-- A cell reported sent adds to its record: length done, and from cell 0 the timestamp and quality. -/
def cellSentRec (c : Cell) (lc : LocalCell) (r : Rec) : Rec :=
  let r := { r with lengthDone := r.lengthDone + lc.bytes }
  if lc.index = 0 then
    { r with timestamp := BitVec.ofNat 64 (beAt c.payload 12 8), quality := BitVec.ofNat 8 (beAt c.payload 20 1) }
  else r

/-- The arbiter reports a local DATA cell sent: the block goes on with its next cell or its sending ends (R151). A cell
of an opening the slot no longer holds, a source's, concerns nothing. -/
def cellSent (a : Act) (c : Cell) (lc : LocalCell) : Act :=
  let n := lc.slot
  let x := a.s.slot n
  if x.role ≠ .source ∨ x.state = .closed ∨ x.openNumber ≠ lc.openNumber then a
  else
    let a := a.on (·.modSlot n (modRec lc.block (cellSentRec c lc)))
    match x.sending with
    | none => a
    | some d =>
      if d.block ≠ lc.block ∨ d.index ≠ lc.index then a
      else if lc.last then a.on (fun s => s.modSlot n (endSending s.now))
      else offerCell a n { d with index := d.index + 1 } 0

/-! ## Resolution (R155) -/

/-- A source DRAINING for a leaving peer closes when nothing is unresolved (R136). -/
def closeIfResolved (a : Act) (n : SlotIx) : Act :=
  let x := a.s.slot n
  if x.role = .source ∧ x.state = .draining ∧ x.unresolved = 0
      ∧ (x.drainMode = some .peerLeaving ∨ x.drainMode = some .finishPeerLeaving) then
    closeSlot a n .peerLeaving true
  else a

/-- The record of a block takes its outcome and is RESOLVED (R155). -/
def resolveRec (b : BitVec 32) (o : BlockOutcome) (x : Slot) : Slot :=
  lowerUnresolved (modRec b (fun r => { r with stage := .resolved, outcome := some o, ackSince := none }) x)

/-- What the resolution of an END block does (R155). For DELIVERED the table has no row: the outcome is held as given
and the slot stays open, which is the model's choice (entry 50); so is that END at a source draining for a leaving peer
closes it ENDED (entry 37). -/
def endResolved (a : Act) (n : SlotIx) (r : Rec) (o : BlockOutcome) : Act :=
  if r.address.isNone ∧ o = .ended then closeSlot a n .ended false .done
  else if r.address.isSome ∧ (o = .unconfirmed ∨ o = .damaged) ∧ (a.s.slot n).state ≠ .draining then
    closeSlot a n .peerLost true
  else closeIfResolved (completeAndEnd a n) n

/-- A block that is SENDING or SENT resolves with an outcome (R155). -/
def resolveBlock (a : Act) (n : SlotIx) (r : Rec) (b : BitVec 32) (o : BlockOutcome) : Act :=
  let a := if r.stage = .sending then a.on (cutOff · n) else a
  let a := a.on (·.modSlot n (resolveRec b o))
  if r.length = 0 then endResolved a n r o else closeIfResolved (completeAndEnd a n) n

/-- A block awaits its acknowledgement. -/
def awaitsAck (r : Rec) : Bool := r.stage == .sending || r.stage == .sent

end Sys2Proof.Machine
end

