-- ==== Sys2Proof/Machine/StreamSink.lean ====
section
/-! DEFINITION. A sink's assembly (R152, R153), the completion of its blocks (R154) and buffer faults (R158). -/

namespace Sys2Proof.Machine

/-- A DATA payload's fields (12, DATA payload). -/
structure DataFields where
  tag : BitVec 16
  openNumber : BitVec 16
  index : Nat
  last : Bool
  length : Nat
  timestamp : Time
  quality : Byte
  samples : List Byte
  deriving DecidableEq, Repr

/-- The cell index range (R150). -/
def maxCellIndex : Nat := 264

/-- The fields of a DATA payload whose form fits (R6, entry 24): direction toward the sink, an index 0..264, a last
flag 0 or 1, and in cell 0 the whole lead with a quality that has a name. -/
def parseData (b : List Byte) : Option DataFields :=
  let i := beAt b 5 2
  let head := if i = 0 then 24 else 8
  if b.length < head ∨ 256 < b.length ∨ beAt b 4 1 ≠ towardSink ∨ maxCellIndex < i ∨ 1 < beAt b 7 1
      ∨ (i = 0 ∧ 2 < beAt b 20 1) then none
  else
    some { tag := BitVec.ofNat 16 (beAt b 0 2), openNumber := BitVec.ofNat 16 (beAt b 2 2), index := i,
           last := beAt b 7 1 == 1,
           length := if i = 0 then beAt b 8 4 else 0,
           timestamp := if i = 0 then BitVec.ofNat 64 (beAt b 12 8) else 0,
           quality := if i = 0 then BitVec.ofNat 8 (beAt b 20 1) else 0,
           samples := b.drop head }

/-- The block is late: a limit is set, and the arrival time less the timestamp exceeds it (R154). A block whose cell 0
was not taken has both times 0, so it is not late. -/
def isLate (x : Slot) (r : Rec) : Bool :=
  x.lateness != 0 && decide ((x.lateness * 1000 : Nat) < (r.arrival - r.timestamp).toInt)

/-- A sink block completes: its record holds the outcome, and the assembly goes on to the next block (R154). -/
def finishRec (b : BitVec 32) (o : BlockOutcome) (x : Slot) : Slot :=
  let late := match findRec x b with | some r => isLate x r | none => false
  let x := modRec b (fun r => { r with stage := .resolved, outcome := some o, late := isLate x r }) x
  { x with counters := { x.counters with late := if late then x.counters.late + 1 else x.counters.late } }

/-- The assembly goes on to the block after `b` (R154). -/
def nextBlockOf (b : BitVec 32) (x : Slot) : Slot := { x with expBlock := b + 1, expCell := 0, asmLength := 0 }

/-- A sink block completes, its BLOCKACK is sent, and held outcomes are completed (R154, R148). That the BLOCKACK is
offered before the completion is written is the model's choice (entry 67). -/
def sinkComplete (a : Act) (n : SlotIx) (b : BitVec 32) (o : BlockOutcome) : Act :=
  let a := a.on (·.modSlot n (fun x => nextBlockOf b (finishRec b o x)))
  (completeHeld (a.on (sendAck · n b o)) n).1

/-- A sink block completes DAMAGED; GAP is counted where it took no cell (R153). -/
def sinkDamaged (a : Act) (n : SlotIx) (b : BitVec 32) : Act :=
  let x := a.s.slot n
  let a :=
    if b = x.expBlock ∧ x.expCell ≠ 0 then a
    else a.on (·.modSlot n (fun x => { x with counters := { x.counters with gap := x.counters.gap + 1 } }))
  sinkComplete a n b .damaged

/-- Blocks from the expected one on, `k` of them, complete DAMAGED in order (R153). -/
def sinkGap (n : SlotIx) : Nat → Act → Act
  | 0, a => a
  | k + 1, a => sinkGap n k (sinkDamaged a n (a.s.slot n).expBlock)

/-- A sink whose drain is set closes once it has no block in assembly (R136, R154). -/
def closeIfDrained (a : Act) (n : SlotIx) : Act :=
  let x := a.s.slot n
  if x.role = .sink ∧ x.state ≠ .closed ∧ x.drain = true ∧ x.expCell = 0 then closeSlot a n x.drainCause true else a

/-- The cell at the expected index fits the block (R153). -/
def cellFits (x : Slot) (d : DataFields) : Bool :=
  let length := if d.index = 0 then d.length else x.asmLength
  decide (length ≤ x.blockSize) && d.samples.length == cellCount length d.index && d.last == cellLast length d.index

/-- A cell taken into assembly updates its record (R153). -/
def takeCellRec (d : DataFields) (stamp : Time) (r : Rec) : Rec :=
  let r := { r with lengthDone := r.lengthDone + d.samples.length, arrival := stamp }
  if d.index = 0 then { r with stage := .assembling, timestamp := d.timestamp, quality := d.quality } else r

/-- A cell taken into assembly moves the expected cell on. -/
def takeCellSlot (d : DataFields) (x : Slot) : Slot :=
  { x with expCell := x.expCell + 1, asmLength := if d.index = 0 then d.length else x.asmLength }

/-- A buffer write faulted: the cell is discarded, the block's assembly ends and its record is FAULTED (R158). -/
def sinkBufferFault (a : Act) (n : SlotIx) (b : BitVec 32) (address : Nat) : Act :=
  let a := a.on (·.modSlot n (fun x => nextBlockOf b (modRec b (fun r => { r with stage := .faulted }) x)))
  faultHalt (blockFault a n .bufferWrite address) n

/-- The last cell of a block was taken: the block completes DELIVERED, or END, which closes the sink (R154)
ENDED, draining or not: the model's choice (entry 37). -/
def lastTaken (a : Act) (n : SlotIx) (b : BitVec 32) (length : Nat) : Act :=
  if length = 0 then
    let a := sinkComplete a n b .ended
    closeSlot a n .ended false
  else closeIfDrained (sinkComplete a n b .delivered) n

/-- A cell that fits is written into the buffer of the expected block's record and taken (R153). -/
def takeCell (a : Act) (n : SlotIx) (d : DataFields) (stamp : Time) : Act :=
  let x := a.s.slot n
  let b := x.expBlock
  match findRec x b with
  | none => a
  | some r =>
    match writeHost a.s (r.buffer.toNat + cellOffset d.index) d.samples with
    | .error e => sinkBufferFault a n b e
    | .ok s =>
      let a := a.on (fun _ => s.modSlot n (fun x => takeCellSlot d (modRec b (takeCellRec d stamp) x)))
      if d.last then lastTaken a n b (a.s.slot n).asmLength else a

/-- A cell of the expected block (R153). -/
def expectedCell (a : Act) (n : SlotIx) (d : DataFields) (stamp : Time) : Act :=
  let x := a.s.slot n
  if d.index = x.expCell ∧ cellFits x d = true then takeCell a n d stamp
  else closeIfDrained (sinkDamaged a n x.expBlock) n

/-- A cell of a block after the expected one: the blocks between complete DAMAGED, and a first cell begins its block
(R153). -/
def gapCell (a : Act) (n : SlotIx) (b : BitVec 32) (d : DataFields) (stamp : Time) : Act :=
  let k := (b - (a.s.slot n).expBlock).toNat
  if d.index = 0 then expectedCell (sinkGap n k a) n d stamp else sinkGap n (k + 1) a

/-- A slot counter raised. -/
def countSlot (a : Act) (n : SlotIx) (f : SlotCounters → SlotCounters) : Act :=
  a.on (·.modSlot n (fun x => { x with counters := f x.counters }))

/-- A first cell of a block the sink expects clears the peer halt flag (R132, entry 18). -/
def clearPeerHalt (a : Act) (n : SlotIx) (d : DataFields) : Act :=
  if d.index = 0 ∧ (a.s.slot n).peerHalt = true then
    settle (a.on (·.modSlot n (fun x => { x with peerHalt := false }))) n .resumed
  else a

/-- A cell neither STALE nor BEYOND, judged by the remaining cases of R152. -/
def assembleData (a : Act) (n : SlotIx) (b : BitVec 32) (d : DataFields) (stamp : Time) : Act :=
  let x := a.s.slot n
  let inAssembly := decide (0 < x.expCell) && b == x.expBlock
  if (x.state == .halted || x.state == .stranded) && !inAssembly then
    countSlot a n (fun c => { c with heldOff := c.heldOff + 1 })
  else if b = x.expBlock then expectedCell a n d stamp
  else gapCell a n b d stamp

/-- A matched DATA cell at a sink, judged by the first case of R152 that applies. -/
def sinkData (a : Act) (n : SlotIx) (b : BitVec 32) (d : DataFields) (stamp : Time) : Act :=
  let x := a.s.slot n
  if older b x.expBlock then countSlot a n (fun c => { c with stale := c.stale + 1 })
  else if newer x.creditLimit b = false then countSlot a n (fun c => { c with beyond := c.beyond + 1 })
  else assembleData (clearPeerHalt a n d) n b d stamp

end Sys2Proof.Machine
end

