-- ==== Sys2Proof/Machine/StreamEvents.lean ====
section
/-! DEFINITION. What the other units' events do to streams: reach, roster and standing (R124, R133 to R137), the
timebase (R125, R128), firings (R126), route changes and port losses (R151). -/

namespace Sys2Proof.Machine

/-- The conditions under which a stream runs: the peer MEMBER and REACHABLE, the own standing MEMBER (R133). -/
def mayRun (s : State) (n : SlotIx) : Bool :=
  (s.entry (s.slot n).peer).state == .member && peerReachable s n && s.roster.standing == .member

/-- The slot strands when a condition of R133 fails: a source ARMED, FLOWING, TIMEHELD or HALTED, or a sink FLOWING or
HALTED whose drain is clear. -/
def mayStrand (x : Slot) : Bool :=
  match x.role with
  | .source => isSettling x.state
  | .sink => (x.state == .flowing || x.state == .halted) && !x.drain

/-- The slot becomes STRANDED with a cause; its block in progress is cut off (R133). -/
def strand (a : Act) (n : SlotIx) (cause : StreamCause) : Act :=
  if mayStrand (a.s.slot n) then
    setSlotState (a.on (fun s => (cutOff s n).modSlot n (fun x => { x with strandDeadline := some (s.now + strandTime) })))
      n .stranded cause
  else a

/-- A STRANDED slot whose conditions all hold again returns (R134). -/
def judgeReturn (a : Act) (n : SlotIx) : Act :=
  if (a.s.slot n).state = .stranded ∧ mayRun a.s n = true then
    let a := takeSettled (a.on (·.modSlot n (fun x => { x with strandDeadline := none }))) n .returned
    if (a.s.slot n).role = .sink then a.on (sendCredit · n) else a
  else a

/-- An OPENING source closes, its open order completing with an outcome (R124). -/
def closeOpening (a : Act) (n : SlotIx) (cause : StreamCause) (outcome : Outcome) : Act :=
  if (a.s.slot n).state = .opening then closeSlot a n cause true outcome else a

/-- The slots whose peer is a frame, in the ascending order in which they take its events: the model's choice (entry 66),
as it is for an event that concerns all slots. -/
def slotsOf (s : State) (f : FrameNo) : List SlotIx := allSlots.filter (fun n => (s.slot n).peer == f)

/-- A reach-lost event at the stream engine (R124, R133). -/
def streamReachLost (f : FrameNo) (a : Act) : Act :=
  a.each (slotsOf a.s f) (fun a n =>
    if (a.s.slot n).state = .opening then closeOpening a n .unreachable .unreachable else strand a n .peerUnreachable)

/-- A reach-gained event at the stream engine (R134). -/
def streamReachGained (_f : FrameNo) (a : Act) : Act := a.each allSlots judgeReturn

/-- The slot drains under FINISH (R137, R138): DRAINING with a close deadline; an ARMED slot's gate opens now. -/
def drainFinish (a : Act) (n : SlotIx) : Act :=
  let a := a.on (fun s => s.modSlot n (fun x =>
    let x := if x.state = .armed then openGate s.tb.rackTime x else x
    { x with strandDeadline := none, closeDeadline := some (s.now + closeTime), drainMode := some .finish }))
  let a := setSlotState a n .draining .finish
  match (a.s.slot n).stop with
  | some .notPosted => retryStop a n
  | some .tail => retryStop a n
  | _ => a

/-- A source drains for a leaving peer (R136). -/
def drainPeerLeaving (a : Act) (n : SlotIx) : Act :=
  let a := a.on (fun s => s.modSlot n (fun x =>
    { x with strandDeadline := none, closeDeadline := some (s.now + closeTime), drainMode := some .peerLeaving,
             fetchEnded := true }))
  closeIfResolved (setSlotState a n .draining .peerLeaving) n

/-- A sink's drain is set (R136, R137): it closes at once with no block in assembly, else it becomes
HALTED with cause DRAIN, whatever it was (entry 16); one that drains already is HALTED so. -/
def drainSink (a : Act) (n : SlotIx) (cause : StreamCause) : Act :=
  let a := a.on (fun s => s.modSlot n (fun x =>
    { x with drain := true, drainCause := cause, strandDeadline := none, closeDeadline := some (s.now + closeTime) }))
  let x := a.s.slot n
  if x.expCell = 0 then closeSlot a n cause true
  else if x.state = .halted ∧ x.cause = .drain then a
  else setSlotState a n .halted .drain

/-- The peer's roster copy entry becomes LEAVING (R136). That a sink that drains already does so anew, with a new deadline
and for its peer, and that an entry which stays LEAVING under another serial counts as becoming LEAVING, are the model's
choices (entry 79). -/
def slotPeerLeaving (a : Act) (n : SlotIx) : Act :=
  let x := a.s.slot n
  match x.role with
  | .source =>
    if isSettling x.state || x.state == .stranded then drainPeerLeaving a n
    else if x.state = .draining ∧ x.drainMode = some .finish then
      closeIfResolved (a.on (·.modSlot n (fun x => { x with drainMode := some .finishPeerLeaving }))) n
    else a
  | .sink =>
    if x.state == .flowing || x.state == .halted || x.state == .stranded then drainSink a n .peerLeaving
    else a

/-- The slot closes when its peer's entry becomes VACANT or REFUSED (R135). -/
def slotPeerGone (a : Act) (n : SlotIx) : Act :=
  let st := (a.s.slot n).state
  if st = .closed ∨ st = .offered ∨ st = .opening then a else closeSlot a n .peerLost true

/-- An entry-changed event at the stream engine (R124, R133 to R136). It is judged by the state the entry now has, also
where only the serial changed (R63): for LEAVING that is the model's choice (entry 79). -/
def streamEntryChanged (f : FrameNo) (a : Act) : Act :=
  let st := (a.s.entry f).state
  let a := a.each (slotsOf a.s f) (fun a n =>
    if (a.s.slot n).state = .opening then
      if st = .member then a else closeOpening a n .unreachable .unreachable
    else
      match st with
      | .vacant | .refused => slotPeerGone a n
      | .leaving => slotPeerLeaving a n
      | .stray | .quarantined => strand a n .peerStray
      | .member => a)
  a.each allSlots judgeReturn

/-- A standing-changed event at the stream engine (R124, R133, R134). -/
def streamStandingChanged (a : Act) : Act :=
  let st := a.s.roster.standing
  let a := a.each allSlots (fun a n =>
    if st = .member then a
    else if (a.s.slot n).state = .opening then closeOpening a n .notMember .notMember
    else if st = .leaving then a
    else strand a n .notMember)
  a.each allSlots judgeReturn

/-- LEAVE is taken: the part's own streams close by kind (R137). That a sink draining for a leaving peer keeps its cause
and its deadline is the model's choice (entry 57). -/
def streamsLeave (a : Act) : Act :=
  a.each allSlots (fun a n =>
    let x := a.s.slot n
    match x.role with
    | .source => if isSettling x.state || x.state == .stranded then drainFinish a n else a
    | .sink =>
      if x.state = .offered then closeSlot a n .leaving false
      else if (x.state == .flowing || x.state == .halted || x.state == .stranded) && !x.drain then
        drainSink a n .leaving
      else a)

/-- A change of the timebase state at the stream engine (R125, R128). -/
def streamTimeChanged (a : Act) : Act := a.each allSlots (fun a n => settle a n .timebase)

/-- A STEP at a slot: a paced source past its gate takes the first pace point from the rack time after the step; an
ARMED source judges its gate (R128). That a source whose gate this STEP opens keeps the index 0 its gate gives it (R127),
and is not past its gate for the same STEP, is the model's choice (entry 77). -/
def stepSlot (a : Act) (n : SlotIx) : Act :=
  let x := a.s.slot n
  if x.role = .source ∧ x.state ≠ .closed ∧ x.gateOpen = true ∧ x.pace ≠ 0 then
    a.on (fun s => s.modSlot n (fun x => { x with nextPace := indexFrom x s.tb.rackTime }))
  else if x.state = .armed then settle a n .gate
  else a

/-- A STEP event at the stream engine (R128). -/
def streamStep (a : Act) : Act := a.each allSlots stepSlot

/-- A firing event at the stream engine: the first firing of its lane opens an ARMED source's gate (R126). -/
def streamFiring (k : LaneIx) (t : Time) (a : Act) : Act :=
  a.each allSlots (fun a n =>
    let x := a.s.slot n
    if x.state = .armed ∧ x.gate = .onLane k ∧ x.gateOpen = false then
      settle (a.on (·.modSlot n (openGate t))) n .gate
    else a)

/-- A route-changed event at the stream engine: the block in progress toward the frame is cut off (R54, R151). -/
def streamRouteChanged (f : FrameNo) (a : Act) : Act := a.each (slotsOf a.s f) (fun a n => a.on (cutOff · n))

/-- The slot's block in progress is lost with a port: a cell on offer there, or the abandoned cell on its line (R151). -/
def lostWithPort (p : PortIx) (abandoned : Option LocalCell) (n : SlotIx) (x : Slot) : Bool :=
  (match x.offer with | some o => o.port == p | none => false) ||
  (match abandoned, x.sending with
   | some lc, some d => lc.slot == n && lc.openNumber == x.openNumber && lc.block == d.block
   | _, _ => false)

/-- A port loss at the stream engine (R17, R151). -/
def streamPortLost (p : PortIx) (abandoned : Option LocalCell) (a : Act) : Act :=
  a.each allSlots (fun a n => if lostWithPort p abandoned n (a.s.slot n) then a.on (cutOff · n) else a)

end Sys2Proof.Machine
end

