-- ==== Sys2Proof/Machine/Trigger.lean ====
section
/-! DEFINITION. The trigger unit (06): input stages, triggers and their flood, the Trigger Schedule, firing, steps and
settings changes. -/

namespace Sys2Proof.Machine

/-! ## Notices (R112) -/

/-- The counts one act reports on the TRIGGERS lane. -/
structure TrigReport where
  fired : BitVec 16
  quality : Nat
  late : Nat
  dropped : Nat
  localOnly : Nat
  merged : Nat
  deriving DecidableEq, Repr

def TrigReport.none : TrigReport := ⟨0, qualityNone, 0, 0, 0, 0⟩

/-- The lanes muted now. -/
def mutedLanes (s : State) : BitVec 16 := bitmap 16 allLanes (fun k => (s.trig.lanes.get k).stage == .muted)

/-- The TRIGGERS notice of an act. -/
def postTriggers (a : Act) (r : TrigReport) : Act :=
  a.post (.notice (.triggers r.fired (mutedLanes a.s) (BitVec.ofNat 8 r.quality) (BitVec.ofNat 32 r.late)
    (BitVec.ofNat 32 r.dropped) (BitVec.ofNat 32 r.localOnly) (BitVec.ofNat 32 r.merged)))

/-- The TRIGGERS notice of an act that has something to report. -/
def reportTriggers (a : Act) (r : TrigReport) : Act := if r = .none then a else postTriggers a r

/-- A trigger counter changed. -/
def countTrig (a : Act) (f : TriggerCounters → TriggerCounters) : Act :=
  a.on (·.modTrig (fun t => { t with counters := f t.counters }))

/-! ## The Trigger Schedule (R109) -/

/-- One entry stands before another: by fire time, then by lane. -/
def triggerBefore (x y : Trigger) : Bool :=
  decide (x.fireTime.toNat < y.fireTime.toNat) || (x.fireTime == y.fireTime && decide (x.lane.val < y.lane.val))

/-- An entry inserted at its place in the order. -/
def insertAt (t : Trigger) : List Trigger → List Trigger
  | [] => [t]
  | x :: xs => if triggerBefore t x then t :: x :: xs else x :: insertAt t xs

/-- The settings of a lane. -/
def laneSettings (s : State) (k : LaneIx) : LaneSettings := s.store.working.lanes.get k

/-- What an insertion into the Schedule comes to: the first case of R109 that applies. -/
def judgeInsertion (s : State) (t : Trigger) : Insertion :=
  if (laneSettings s t.lane).outputEnable = false then .outputOff
  else if s.trig.schedule.any (fun x => x.lane == t.lane && x.fireTime == t.fireTime) then .merged
  else if reached s t.fireTime then .late
  else if scheduleCapacity ≤ s.trig.schedule.length then .dropped
  else .scheduled

/-- A trigger judged and, where SCHEDULED, inserted; each other case is counted (R109). -/
def insertTrigger (a : Act) (t : Trigger) : Act :=
  match judgeInsertion a.s t with
  | .outputOff => countTrig a (fun c => { c with outputOff := c.outputOff + 1 })
  | .merged => countTrig a (fun c => { c with merged := c.merged + 1 })
  | .late => countTrig a (fun c => { c with late := c.late + 1 })
  | .dropped => countTrig a (fun c => { c with dropped := c.dropped + 1 })
  | .scheduled => a.on (·.modTrig (fun u => { u with schedule := insertAt t u.schedule }))

/-- What an insertion adds to the act's notice. -/
def insertionReport (r : TrigReport) : Insertion → TrigReport
  | .merged => { r with merged := r.merged + 1 }
  | .late => { r with late := r.late + 1 }
  | .dropped => { r with dropped := r.dropped + 1 }
  | .outputOff | .scheduled => r

/-! ## Making triggers (R105, R107) -/

/-- The TRIG that carries a trigger. -/
def trigCell (s : State) (t : Trigger) : Cell :=
  ownCell s .trig floodDest (trigPayload t.lane t.quality.toNat t.sequence t.fireTime) t.sequence

/-- A trigger of this part is flooded to the rack. -/
def floodsTriggers (s : State) : Bool := s.own != 0 && !noSync s

/-- The trigger this part makes next. -/
def ownTrigger (s : State) (k : LaneIx) (fire : Time) : Trigger :=
  { lane := k, fireTime := fire, origin := s.own, sequence := s.trig.sequence + 1, quality := BitVec.ofNat 8 (quality s) }

/-- A trigger is made: flooded or counted LOCAL_ONLY, inserted here, and reported (R105, R114). -/
def makeTrigger (a : Act) (k : LaneIx) (fire : Time) (floods : Bool) : Act :=
  let t := ownTrigger a.s k fire
  let a := a.on (·.modTrig (fun u => { u with sequence := t.sequence }))
  let a :=
    if floods then a.on (fun s => offerEach s s.upPorts (trigCell s t))
    else countTrig a (fun c => { c with localOnly := c.localOnly + 1 })
  let r : TrigReport := { TrigReport.none with localOnly := if floods then 0 else 1 }
  let j := judgeInsertion a.s t
  reportTriggers (insertTrigger a t) (insertionReport r j)

/-! ## Lane inputs (R104, R106) -/

/-- The lead in ns (R105). -/
def leadTime (l : LaneSettings) : Nat := l.lead * microsecond

/-- The line level a lane's settings call asserted (R104). -/
def assertedLevel (l : LaneSettings) : Bool := !l.fallingEdge

/-- An enabled edge on a lane. -/
def inputEdge (a : Act) (k : LaneIx) : Act :=
  let l := laneSettings a.s k
  let ln := a.s.trig.lanes.get k
  if ln.inputHigh = assertedLevel l then a
  else
    let a := a.on (·.modLane k (fun x => { x with inputHigh := assertedLevel l }))
    if l.inputEnable = false then a
    else
      match ln.stage with
      | .idle =>
        let a := a.on (fun s => s.modLane k (fun x => { x with stage := .asserted, holdSince := some s.now }))
        makeTrigger a k (a.s.tb.rackTime + BitVec.ofNat 64 (leadTime l)) (floodsTriggers a.s)
      | .asserted => a
      | .muted =>
        countTrig (a.on (·.modLane k (fun x => { x with unmuteSince := none })))
          (fun c => { c with mutedEdge := c.mutedEdge + 1 })

/-- A lane input leaves the asserted level. -/
def inputLeaves (s : State) (k : LaneIx) : State :=
  let l := laneSettings s k
  let ln := s.trig.lanes.get k
  if ln.inputHigh ≠ assertedLevel l then s
  else
    let s := s.modLane k (fun x => { x with inputHigh := !assertedLevel l })
    if l.inputEnable = false then s
    else
      match ln.stage with
      | .idle => s
      | .asserted => s.modLane k (fun x => { x with stage := .idle, holdSince := none })
      | .muted => s.modLane k (fun x => { x with unmuteSince := some s.now })

/-- A stage becomes muted (R106). -/
def muteLane (s : State) (k : LaneIx) : State :=
  s.modLane k (fun x => { x with stage := .muted, holdSince := none, unmuteSince := none })

/-- A stage becomes idle, its timers stopped. -/
def idleLane (s : State) (k : LaneIx) : State :=
  s.modLane k (fun x => { x with stage := .idle, holdSince := none, unmuteSince := none })

/-- The hold limit in ns (R106). -/
def holdTime (w : Settings) : Nat := w.holdLimit * millisecond

/-! ## TRIG cells (R108) -/

/-- A new TRIG at the trigger unit. -/
def takeTrig (rx : Rx) (a : Act) : Act :=
  let lane := beAt rx.payload 0 1
  if (a.s.entry rx.origin).state ≠ .member then countTrig a (fun c => { c with trigIgnored := c.trigIgnored + 1 })
  else if h : rx.payload.length = 12 ∧ lane < 16 ∧ beAt rx.payload 2 2 = rx.floodSeq.toNat then
    let k : LaneIx := ⟨lane, h.2.1⟩
    if (laneSettings a.s k).outputEnable = false then countTrig a (fun c => { c with outputOff := c.outputOff + 1 })
    else
      let t : Trigger := { lane := k, fireTime := BitVec.ofNat 64 (beAt rx.payload 4 8), origin := rx.origin,
                           sequence := rx.floodSeq, quality := BitVec.ofNat 8 (beAt rx.payload 1 1) }
      let j := judgeInsertion a.s t
      reportTriggers (insertTrigger a t) (insertionReport .none j)
  else countTrig a (fun c => { c with trigMalformed := c.trigMalformed + 1 })

/-! ## Firing (R110) -/

/-- A lane's output pulses until a pulse width from now, or until the later end it already has. -/
def pulseLane (now width : Nat) (x : Lane) : Lane :=
  let e := now + width * microsecond
  { x with pulseEnd := some (match x.pulseEnd with | some t => max t e | none => e) }

/-- One entry fires. -/
def fireOne (a : Act) (t : Trigger) : Act :=
  let a := a.on (fun s => s.modLane t.lane (pulseLane s.now (laneSettings s t.lane).width))
  let a := countTrig a (fun c => { c with fired := c.fired + 1 })
  streamFiring t.lane t.fireTime a

/-- Every entry whose fire time has been reached fires, in Schedule order, in one act with one notice (R110), posted behind
the STREAMS notices of the gates it opens: the model's choice (entry 81). -/
def fireReached (a : Act) : Act :=
  let due := a.s.trig.schedule.filter (fun t => reached a.s t.fireTime)
  if due.isEmpty then a
  else
    let a := a.on (fun s => s.modTrig (fun u => { u with schedule := u.schedule.filter (fun t => !reached s t.fireTime) }))
    let a := a.each due fireOne
    let fired := due.foldl (fun b t => b ||| bit 16 t.lane.val) (0 : BitVec 16)
    postTriggers a { TrigReport.none with fired := fired, quality := quality a.s }

/-! ## Steps and settings (R111, R113) -/

/-- A STEP event at the trigger unit: a forward step removes the entries it has passed as LATE. -/
def trigStep (size : Int) (a : Act) : Act :=
  if size ≤ 0 then a
  else
    let passed := a.s.trig.schedule.filter (fun t => reached a.s t.fireTime)
    if passed.isEmpty then a
    else
      let a := a.on (fun s => s.modTrig (fun u => { u with
        schedule := u.schedule.filter (fun t => !reached s t.fireTime)
        counters := { u.counters with late := u.counters.late + BitVec.ofNat 32 passed.length } }))
      postTriggers a { TrigReport.none with late := passed.length }

/-- A stage reads its line: at the asserted level it becomes asserted and starts its hold timer, making no trigger. -/
def readLine (s : State) (k : LaneIx) : State :=
  if (s.trig.lanes.get k).inputHigh = assertedLevel (laneSettings s k) then
    s.modLane k (fun x => { x with stage := .asserted, holdSince := some s.now })
  else s

/-- One lane after a settings change: the input stage, and the entries of a lane whose output is turned off. -/
def laneChanged (old : LaneSettings) (k : LaneIx) (s : State) : State :=
  let l := laneSettings s k
  let s :=
    if l.inputEnable = false then (if old.inputEnable then idleLane s k else s)
    else if old.inputEnable = false ∨ old.fallingEdge ≠ l.fallingEdge then readLine (idleLane s k) k
    else s
  if old.outputEnable ∧ l.outputEnable = false then
    let gone := s.trig.schedule.filter (fun t => t.lane == k)
    s.modTrig (fun u => { u with
      schedule := u.schedule.filter (fun t => t.lane != k)
      counters := { u.counters with outputOff := u.counters.outputOff + BitVec.ofNat 32 gone.length } })
  else s

/-- A stage asserted for the hold limit or longer is muted (R113, hold limit). -/
def judgeHold (s : State) (k : LaneIx) : State :=
  match (s.trig.lanes.get k).stage, (s.trig.lanes.get k).holdSince with
  | .asserted, some t => if t + holdTime s.store.working ≤ s.now then muteLane s k else s
  | _, _ => s

/-- The trigger settings changed from `old` to the working settings (R113): one notice where a lane was muted or
unmuted. -/
def trigSettingsChanged (old : Settings) (a : Act) : Act :=
  let before := mutedLanes a.s
  let a := a.on (fun s => allLanes.foldl (fun s k => laneChanged (old.lanes.get k) k s) s)
  let a := if old.holdLimit ≠ a.s.store.working.holdLimit then a.on (fun s => allLanes.foldl judgeHold s) else a
  if mutedLanes a.s = before then a else postTriggers a .none

end Sys2Proof.Machine
end

