-- ==== Sys2Proof/Machine/TimeUnit.lean ====
section
/-! DEFINITION. The timebase unit (05): the choice of followed master (R87 to R91), the upstream port (R92), TIME cells
(R93 to R97, R99), losses of upstream (R98), steps (R100) and settings changes (R101). -/

namespace Sys2Proof.Machine

/-! ## Who is fit (R87) -/

/-- The own time rank, 0 while the leaving latch is set. -/
def ownTimeRank (s : State) : Nat := if s.roster.leavingLatch then 0 else s.store.working.timeRank.val

/-- The own standing is MEMBER. -/
def isMember (s : State) : Bool := s.roster.standing == .member

/-- The contents of a REACHABLE entry. -/
def contentsOf (s : State) (f : FrameNo) : Option Contents := (s.route f).map (·.contents)

/-- The entry is REACHABLE and its contents show a time rank above 0 and the leaving flag clear. -/
def timeFit (s : State) (f : FrameNo) : Bool :=
  match contentsOf s f with
  | some c => c.timeRank != 0 && c.leaving == 0
  | none => false

/-- A frame advertises as master at this part. -/
def advertisesMaster (s : State) (f : FrameNo) : Bool :=
  timeFit s f && (match contentsOf s f with | some c => c.followedMaster.toNat == f.val | none => false)

/-- The roster copy entry of a frame is MEMBER. -/
def copyMember (s : State) (f : FrameNo) : Bool := (s.entry f).state == .member

/-- A followed master, not 0, remains fit to follow. The own number is the own only while the part names itself master,
which is while it is MASTER (R91): a part renumbered to the number of the master it followed does not. -/
def masterFit (s : State) (m : FrameNo) : Bool :=
  if m = s.own then
    s.tb.state == .master && s.roster.standing == (if isMember s then .member else .alone) && ownTimeRank s != 0
  else if isMember s then timeFit s m && copyMember s m
  else advertisesMaster s m

/-- The time rank a frame's contents show, or the own. -/
def timeRankOf (s : State) (f : FrameNo) : Nat :=
  if f = s.own then ownTimeRank s else match contentsOf s f with | some c => c.timeRank.toNat | none => 0

/-- The best of a list of frames by a rank; 0 when the list is empty. -/
def bestBy (rank : FrameNo → Nat) (fs : List FrameNo) : FrameNo :=
  match fs with
  | [] => 0
  | f :: rest => rest.foldl (fun b g => if betterRank (rank g, g.val) (rank b, b.val) then g else b) f

/-! ## The choice (R88 to R90) -/

/-- Some REACHABLE entry, of 1 hop where asked, names a frame as followed master. -/
def namedMaster (s : State) (neighboursOnly : Bool) (f : FrameNo) : Bool :=
  allFrames.any (fun g =>
    match s.route g with
    | some r => (!neighboursOnly || r.hops == 1) && r.contents.followedMaster.toNat == f.val
    | none => false)

/-- The own frame is a candidate for master. -/
def selfMaster (s : State) : Bool :=
  s.own != 0 && ownTimeRank s != 0 && (isMember s || s.roster.standing == .alone)

/-- The candidates for master (R88, R89). -/
def masterCandidates (s : State) : List FrameNo :=
  allFrames.filter (fun f =>
    if f = s.own then selfMaster s
    else if isMember s then copyMember s f && timeFit s f
    else advertisesMaster s f && namedMaster s true f)

/-- The master the part chooses (R88, R89). -/
def chosenMaster (s : State) : FrameNo := bestBy (timeRankOf s) (masterCandidates s)

/-- The frames the merge rule collects (R90). -/
def mergeMasters (s : State) : List FrameNo :=
  allFrames.filter (fun f =>
    f != s.own && advertisesMaster s f && namedMaster s (!isMember s) f && (!isMember s || copyMember s f))

/-! ## Changes of master and losses (R91, R98) -/

/-- The state after a loss of upstream (R98). -/
def loseUpstream (now : Nat) (t : Timebase) : Timebase :=
  match t.state with
  | .locked =>
    { t with state := .holdover, holdoverSince := some now, watchSince := none,
             counters := { t.counters with losses := t.counters.losses + 1 } }
  | .acquiring =>
    { t with state := .free, correction := 0, slewResidue := 0, stepPending := false, lockCount := 0, watchSince := none,
             counters := { t.counters with losses := t.counters.losses + 1 } }
  | _ => t

/-- The part names itself master (R91). -/
def becomeMaster (own : FrameNo) (t : Timebase) : Timebase :=
  { t with state := .master, master := own, correction := 0, slewResidue := 0, stepPending := false, lockCount := 0,
           excursions := 0, watchSince := none, holdoverSince := none, lastOffset := none, distance := some 0 }

/-- The part ceases to be master (R91). -/
def leaveMaster (now : Nat) (m : FrameNo) (t : Timebase) : Timebase :=
  { t with state := .holdover, master := m, holdoverSince := some now }

/-- The followed master becomes a value (R91): a change to the own number makes the part MASTER, also where the value
followed was that number as another frame's. -/
def setMaster (s : State) (m : FrameNo) : State :=
  if m ≠ 0 ∧ m = s.own then
    (if s.tb.state = .master ∧ s.tb.master = m then s else s.modTb (becomeMaster s.own))
  else if m = s.tb.master then s
  else if s.tb.state = .master then s.modTb (leaveMaster s.now m)
  else s.modTb (fun t => loseUpstream s.now { t with master := m })

/-- The followed master is tested, and where it is 0 or not fit the part chooses (R87). -/
def retestMaster (s : State) : State :=
  if s.tb.master = 0 ∨ masterFit s s.tb.master = false then setMaster s (chosenMaster s) else s

/-- The merge rule (R90). -/
def mergeMaster (s : State) : State :=
  if s.tb.master = 0 then s
  else
    let b := bestBy (timeRankOf s) (mergeMasters s)
    if b ≠ 0 ∧ betterRank (timeRankOf s b, b.val) (timeRankOf s s.tb.master, s.tb.master.val) = true then setMaster s b
    else s

/-- The upstream port (R92). -/
def upstreamPort (s : State) : Option PortIx :=
  if s.tb.master = 0 ∨ s.tb.master = s.own then none else (s.route s.tb.master).map (·.port)

/-! ## Acts of the unit (R100) -/

/-- An act of the timebase unit: a change of its state or followed master, or a step, gives one TIME notice, the
summary mirrored first; a change of state is read by the stream engine. That the TIME notice is posted behind the notices
of the act's events is the model's choice (entry 81). -/
def tbAct (f : Act → Act × Option Int) (a : Act) : Act :=
  let before := a.s.tb
  let (b, step) := f a
  let changed := b.s.tb.state ≠ before.state
  let b := if changed then streamTimeChanged b else b
  if changed ∨ b.s.tb.master ≠ before.master ∨ step.isSome then
    (b.post (.mirror .timebase)).post
      (.notice (.time b.s.tb.state b.s.tb.master (if step.isSome then 1 else 0) (step.getD 0)))
  else b

/-- An act of the timebase unit that takes no step. -/
def tbPlain (f : State → State) (a : Act) : Act := tbAct (fun a => (a.on f, none)) a

/-! ## Events of other units (R87, R98, R101) -/

/-- A reach-lost event: for the followed master a loss of upstream, then a new choice. -/
def timeReachLost (f : FrameNo) (a : Act) : Act :=
  tbPlain (fun s =>
    if s.tb.master = f ∧ f ≠ 0 then retestMaster (s.modTb (loseUpstream s.now))
    else if s.tb.master = 0 then retestMaster s
    else s) a

/-- A reach-gained event: a part with no master chooses. -/
def timeReachGained (_f : FrameNo) (a : Act) : Act := tbPlain (fun s => if s.tb.master = 0 then retestMaster s else s) a

/-- An advert: the fitness of the frame if it is the master (R87, R88), then the merge rule (R90), an order that is the
model's choice (entry 65). -/
def timeAdvert (f : FrameNo) (a : Act) : Act :=
  tbPlain (fun s => mergeMaster (if s.tb.master = f ∨ s.tb.master = 0 then retestMaster s else s)) a

/-- An entry-changed event. -/
def timeEntryChanged (f : FrameNo) (a : Act) : Act :=
  tbPlain (fun s => if s.tb.master = f ∨ s.tb.master = 0 then retestMaster s else s) a

/-- A standing-changed event, or a change of the own time rank. -/
def timeRetest (a : Act) : Act := tbPlain retestMaster a

/-- A port-loss event: loss of upstream when the port is the upstream port as read now. -/
def timePortLost (p : PortIx) (a : Act) : Act :=
  tbPlain (fun s => if upstreamPort s = some p then s.modTb (loseUpstream s.now) else s) a

/-- A change of the frame number: a part that was its own master under the old number ceases to be, then chooses. -/
def timeRenumber (old : FrameNo) (a : Act) : Act :=
  tbPlain (fun s =>
    let s := if s.tb.state = .master ∧ s.tb.master = old then s.modTb (leaveMaster s.now 0) else s
    retestMaster s) a

/-- The holdover time in ns. -/
def holdoverTime (w : Settings) : Nat := w.holdover * second

/-- The holdover limit is reached: FREE (R99). -/
def endHoldover (t : Timebase) : Timebase :=
  { t with state := .free, holdoverSince := none, correction := 0, slewResidue := 0 }

/-- A change of the holdover limit applies to the running timer (R101). -/
def holdoverChanged (a : Act) : Act :=
  tbPlain (fun s =>
    match s.tb.state, s.tb.holdoverSince with
    | .holdover, some t => if t + holdoverTime s.store.working ≤ s.now then s.modTb endHoldover else s
    | _, _ => s) a

/-! ## Steps (R96, R100) -/

/-- Rack time steps by a signed size; the correction is dropped (R85). -/
def stepTime (size : Int) (t : Timebase) : Timebase :=
  { t with
    rackTime := t.rackTime + BitVec.ofInt 64 size
    correction := 0
    slewResidue := 0
    stepPending := false
    lockCount := 0
    counters := if size = 0 then t.counters else { t.counters with steps := t.counters.steps + 1 } }

/-- Every port and queued ECHO takes a step (R26, R28). -/
def portsStep (size : Int) (s : State) : State :=
  let d := BitVec.ofInt 64 size
  allPorts.foldl (fun s p => (s.modPort p (stepPort d)).modLink p (stepLink d)) s

/-- The part steps rack time by an offset: a STEP event unless the size is 0 (R100). That the ports take it first, then
the trigger unit, then the stream engine, is the model's choice (entry 48). -/
def doStep (size : Int) (a : Act) : Act × Option Int :=
  let a := a.on (·.modTb (stepTime size))
  if size = 0 then (a, none)
  else (streamStep (trigStep size (a.on (portsStep size))), some size)

/-! ## TIME cells (R94 to R97, R99) -/

/-- The limits of R96, R97 and R99. -/
def stepThreshold : Nat := 1000
def lockWindow : Nat := 40
def lockTarget : Nat := 8
def excursionTarget : Nat := 3

/-- What the tests of R94 make of a TIME cell. -/
inductive TimeTest
  | ignored
  | far
  | nodelay
  | held
  | accepted
  deriving DecidableEq, Repr

/-- The carried fields of a TIME payload. -/
def timeMasterField (b : List Byte) : Nat := beAt b 0 1
def timeDistanceField (b : List Byte) : Nat := beAt b 1 1
def timeQualityField (b : List Byte) : Nat := beAt b 2 1
def timeTimeField (b : List Byte) : Time := BitVec.ofNat 64 (beAt b 4 8)

/-- The tests of R94, in their order. -/
def testTime (s : State) (rx : Rx) : TimeTest :=
  let b := rx.payload
  let q := timeQualityField b
  if b.length ≠ 12 ∨ (q ≠ qualityGood ∧ q ≠ qualityHeld) then .ignored
  else if s.tb.state = .master ∨ s.tb.master = 0 then .ignored
  else if upstreamPort s ≠ some rx.port ∨ timeMasterField b ≠ s.tb.master.val then .ignored
  else if 7 ≤ timeDistanceField b then .far
  else if (s.port rx.port).samples = [] then .nodelay
  else if q = qualityHeld ∧ s.tb.state ≠ .holdover then .held
  else .accepted

/-- The offset of an accepted TIME (R95), a signed count of ns. -/
def timeOffset (s : State) (rx : Rx) : Int :=
  (timeTimeField rx.payload + BitVec.ofNat 64 (filteredDelay (s.port rx.port)) - rxCorrected rx).toInt

/-- The correction remaining is replaced by an offset (R85). -/
def slewBy (offset : Int) (t : Timebase) : Timebase := { t with correction := offset, slewResidue := 0 }

/-- A good TIME in ACQUIRING (R96). -/
def acquire (offset : Int) (a : Act) : Act × Option Int :=
  let t := a.s.tb
  if t.stepPending ∨ stepThreshold < offset.natAbs then doStep offset a
  else if lockWindow < offset.natAbs then (a.on (·.modTb (fun t => { slewBy offset t with lockCount := 0 })), none)
  else
    (a.on (·.modTb (fun t =>
      let t := slewBy offset t
      if t.lockCount + 1 = lockTarget then { t with state := .locked, lockCount := 0, excursions := 0 }
      else { t with lockCount := t.lockCount + 1 })), none)

/-- A good TIME in LOCKED (R97). -/
def follow (offset : Int) (now : Nat) (t : Timebase) : Timebase :=
  if offset.natAbs ≤ stepThreshold then { slewBy offset t with excursions := 0 }
  else
    let t := { t with counters := { t.counters with excursion := t.counters.excursion + 1 }, excursions := t.excursions + 1 }
    if t.excursions = excursionTarget then
      { t with state := .acquiring, excursions := 0, lockCount := 0, stepPending := true, correction := 0,
               slewResidue := 0, watchSince := some now }
    else t

/-- A good TIME in HOLDOVER within 1000 ns relocks (R99). -/
def relock (offset : Int) (t : Timebase) : Timebase :=
  { slewBy offset t with state := .locked, excursions := 0, lockCount := 0, holdoverSince := none }

/-- A part begins to acquire, its next step pending (R96, R99). -/
def startAcquiring (t : Timebase) : Timebase :=
  { t with state := .acquiring, stepPending := true, lockCount := 0, holdoverSince := none }

/-- An accepted TIME sets the distance and the last offset; a good one restarts the TIME watch (R94). -/
def acceptTime (rx : Rx) (offset : Int) (now : Nat) (t : Timebase) : Timebase :=
  { t with
    distance := some (timeDistanceField rx.payload + 1)
    lastOffset := some offset
    watchSince := if timeQualityField rx.payload = qualityGood then some now else t.watchSince
    counters := { t.counters with accepted := t.counters.accepted + 1 } }

/-- An accepted TIME taken by the rule of the part's state. -/
def useTime (rx : Rx) (offset : Int) (a : Act) : Act × Option Int :=
  match a.s.tb.state with
  | .free => acquire offset (a.on (·.modTb startAcquiring))
  | .acquiring => acquire offset a
  | .locked => (a.on (fun s => s.modTb (follow offset s.now)), none)
  | .holdover =>
    if timeQualityField rx.payload = qualityGood then
      if offset.natAbs ≤ stepThreshold then (a.on (·.modTb (relock offset)), none)
      else acquire offset (a.on (·.modTb startAcquiring))
    else if offset.natAbs ≤ stepThreshold then (a.on (·.modTb (slewBy offset)), none)
    else
      (a.on (·.modTb (fun t => { t with counters := { t.counters with excursion := t.counters.excursion + 1 } })), none)
  | .master => (a, none)

/-- A TIME cell handed to the timebase unit (R94). -/
def takeTime (rx : Rx) (a : Act) : Act :=
  tbAct (fun a =>
    match testTime a.s rx with
    | .ignored => (a.on (·.modTb (fun t => { t with counters := { t.counters with ignored := t.counters.ignored + 1 } })), none)
    | .far => (a.on (·.modTb (fun t => { t with counters := { t.counters with far := t.counters.far + 1 } })), none)
    | .nodelay => (a.on (·.modTb (fun t => { t with counters := { t.counters with nodelay := t.counters.nodelay + 1 } })), none)
    | .held => (a.on (·.modTb (fun t => { t with counters := { t.counters with held := t.counters.held + 1 } })), none)
    | .accepted =>
      let offset := timeOffset a.s rx
      useTime rx offset (a.on (fun s => s.modTb (acceptTime rx offset s.now)))) a

/-! ## Emission (R93) -/

/-- The part emits TIME. -/
def emitsTime (s : State) : Bool :=
  match s.tb.state with
  | .master | .locked => true
  | .holdover => s.tb.master != 0
  | .acquiring | .free => false

/-- The TIME cell offered now; its time is written at transmission (R16). -/
def timeCell (s : State) : Cell :=
  ownCell s .time 0
    (timePayload s.tb.master (if s.tb.state = .master then 0 else s.tb.distance.getD 0) (quality s) 0)

/-- One TIME cell to every UP port but the upstream port. -/
def emitTime (s : State) : State :=
  if emitsTime s then offerEach s (s.upPorts.filter (fun p => upstreamPort s != some p)) (timeCell s) else s

end Sys2Proof.Machine
end

