-- ==== Sys2Proof/Machine/RosterUnit.lean ====
section
/-! DEFINITION. The roster unit (04): standing (R62), the choice of anchor (R64 to R69), issuing and taking the roster
(R70, R71), joining (R72 to R75), the Admission Filter (R76), quarantine and strays (R77, R79), leaving (R80). -/

namespace Sys2Proof.Machine

/-! ## Standing (R62) -/

/-- The own entry: the entry at the own number when it carries the own serial. -/
def ownEntry (s : State) : Option RosterEntry :=
  if s.own = 0 ∨ (s.entry s.own).serial ≠ s.serial ∨ (s.entry s.own).state = .vacant then none else some (s.entry s.own)

/-- The own entry has a state. -/
def ownEntryIs (s : State) (st : EntryState) : Bool := (ownEntry s).map (·.state) == some st

/-- The part is anchor (R60). -/
def isAnchor (s : State) : Bool := s.own != 0 && s.roster.anchor == s.own

/-- The standing as its inputs give it: the first row of R62 that applies. -/
def standingOf (s : State) : Standing :=
  let r := s.roster
  if s.own = 0 then .unnumbered
  else if r.leavingLatch then .leaving
  else if r.anchor = s.own then .member
  else if r.anchor ≠ 0 ∧ ownEntryIs s .member = true then .member
  else if r.refusedLatch then .refused
  else if r.anchor = 0 then .alone
  else if r.heldLatch || ownEntryIs s .quarantined then .held
  else .seeking

/-- The standing evaluated afresh, with what it clears and sets when it becomes MEMBER or REFUSED. -/
def evaluateStanding (s : State) : State :=
  let st := standingOf s
  if st = s.roster.standing then s
  else
    s.modRoster (fun r =>
      let r := { r with standing := st }
      match st with
      | .member => { r with heldLatch := false, refusedLatch := false, rejoin := true }
      | .refused => { r with heldLatch := false }
      | _ => r)

/-! ## Issuing the roster (R70) -/

/-- The payload of a ROLL. -/
def rollPayload (r : Roster) : List Byte :=
  beBytes 4 r.generation.toNat ++ beBytes 1 r.issuer.val ++ zeros 3
    ++ (allFrames.map (fun f =>
      let e := r.entries.get f
      beBytes 1 (entryStateCode e.state) ++ zeros 1 ++ beBytes 6 e.serial.toNat)).flatten

/-- A ROLL flooded with the ROLL sequence advanced. -/
def floodRoll (s : State) : State :=
  let s := s.modRoster (fun r => { r with rollSequence := r.rollSequence + 1 })
  offerEach s s.upPorts (ownCell s .roll floodDest (rollPayload s.roster) s.roster.rollSequence)

/-- One roster change: the generation rises by 1 and a ROLL is flooded. -/
def issueRoster (s : State) : State := floodRoll (s.modRoster (fun r => { r with generation := r.generation + 1 }))

/-! ## Choosing the anchor (R64 to R69) -/

/-- The own anchor rank, 0 while the leaving latch is set. -/
def ownAnchorRank (s : State) : Nat := if s.roster.leavingLatch then 0 else s.store.working.anchorRank.val

/-- The entry is REACHABLE and its contents show an anchor rank above 0 and the leaving flag clear. -/
def anchorReady (s : State) (f : FrameNo) : Bool :=
  match contentsOf s f with
  | some c => c.anchorRank != 0 && c.leaving == 0
  | none => false

/-- A frame advertises as anchor (R64). -/
def advertisesAnchor (s : State) (f : FrameNo) : Bool :=
  anchorReady s f && (match contentsOf s f with | some c => c.followedAnchor.toNat == f.val | none => false)

/-- A followed anchor, not 0, remains fit to follow (R64). -/
def anchorFit (s : State) (f : FrameNo) : Bool := if f = s.own then ownAnchorRank s != 0 else anchorReady s f

/-- The anchor rank of a frame, or the own. -/
def anchorRankOf (s : State) (f : FrameNo) : Nat :=
  if f = s.own then ownAnchorRank s else match contentsOf s f with | some c => c.anchorRank.toNat | none => 0

/-- The candidates of an election (R65). -/
def anchorCandidates (s : State) : List FrameNo :=
  allFrames.filter (fun f =>
    if f = s.own then ownEntryIs s .member && ownAnchorRank s != 0 else copyMember s f && anchorReady s f)

/-- The frames that advertise as anchor and that some REACHABLE entry names as followed anchor (R66, R67). -/
def namedAnchors (s : State) : List FrameNo :=
  allFrames.filter (fun f =>
    f != s.own && advertisesAnchor s f && allFrames.any (fun g =>
      match contentsOf s g with | some c => c.followedAnchor.toNat == f.val | none => false))

/-- What a part that ceases to be anchor discards (R69). -/
def ceaseAnchor (r : Roster) : Roster :=
  { r with
    lastRoll := none
    entries := allFrames.foldl (fun v f => upd v f (fun e => { e with identity := none, deadline := none })) r.entries }

/-- The followed anchor becomes another frame or 0 (R65, R69); the silence count starts when it becomes 0. -/
def setAnchor (s : State) (m : FrameNo) : State :=
  let wasAnchor := isAnchor s
  let s := s.modRoster (fun r =>
    { r with anchor := m, silenceSince := if m = 0 ∧ s.own ≠ 0 then some s.now else none })
  if wasAnchor ∧ m ≠ s.own then s.modRoster ceaseAnchor else s

/-- What an inherited entry becomes when the part names itself anchor (R68, steps 2 to 6). -/
def inheritEntry (s : State) (f : FrameNo) (e : RosterEntry) : RosterEntry :=
  let stray : RosterEntry := ⟨.stray, e.serial, none, some (s.now + strayTime)⟩
  if f = s.own then ⟨.member, s.serial, none, none⟩
  else if e.state = .vacant ∨ e.serial = s.serial then .vacant
  else
    match e.state with
    | .quarantined => .vacant
    | .member => if (s.route f).isSome then ⟨.member, e.serial, none, none⟩ else stray
    | .stray => stray
    | .leaving | .refused => if (s.route f).isSome then ⟨e.state, e.serial, none, none⟩ else .vacant
    | .vacant => .vacant

/-- The part names itself anchor (R68). -/
def nameSelf (s : State) : State :=
  let entries := allFrames.foldl (fun v f => upd v f (inheritEntry s f)) s.roster.entries
  issueRoster (s.modRoster (fun r =>
    { r with anchor := s.own, issuer := s.own, entries := entries, silenceSince := none, lastRoll := some s.now }))

/-- An election (R65). -/
def electAnchor (s : State) : State :=
  let b := bestBy (anchorRankOf s) (anchorCandidates s)
  if b ≠ 0 ∧ b = s.own then nameSelf s else setAnchor s b

/-- The followed anchor is tested; where it is not fit the part elects (R64). -/
def retestAnchor (s : State) : State :=
  if s.roster.anchor ≠ 0 ∧ anchorFit s s.roster.anchor = false then electAnchor s else s

/-- The part looks for an anchor (R66): none followed, a number of its own, refused and leaving latches clear. -/
def seeksAnchor (s : State) : Bool :=
  s.roster.anchor == 0 && s.own != 0 && !s.roster.refusedLatch && !s.roster.leavingLatch

/-- Adoption and the island-merge rule at an advert (R66, R67). -/
def adoptOrMerge (s : State) : State :=
  let b := bestBy (anchorRankOf s) (namedAnchors s)
  if b = 0 then s
  else if seeksAnchor s then setAnchor s b
  else if s.roster.anchor ≠ 0
      ∧ betterRank (anchorRankOf s b, b.val) (anchorRankOf s s.roster.anchor, s.roster.anchor.val) = true then
    setAnchor s b
  else s

/-- The silence count has reached its limit and the rank is above 0 (R66). -/
def selfAnchorDue (s : State) : Bool :=
  seeksAnchor s && ownAnchorRank s != 0 &&
    (match s.roster.silenceSince with | some t => decide (t + anchorSilenceLimit ≤ s.now) | none => false)

/-- Self-anchoring, where both its conditions are met. -/
def selfAnchor (s : State) : State := if selfAnchorDue s then nameSelf s else s

/-! ## HELLO (R72) -/

/-- The standing is one that sends HELLO. -/
def sendsHello (st : Standing) : Bool := st == .seeking || st == .held

/-- The part's HELLO. -/
def helloCell (s : State) : Cell :=
  ownCell s .hello 0
    (helloPayload s.serial s.store.identity.frameClass s.store.identity.capabilities s.own s.roster.anchor s.roster.rejoin
      0 0)

/-- A HELLO offered on every UP port; the period runs on from `due`. -/
def sendHello (s : State) (due : Nat) : State :=
  (offerEach s s.upPorts (helloCell s)).modRoster (fun r => { r with lastHello := some due })

/-- The HELLO timer follows the standing: a HELLO when it becomes SEEKING or HELD, none in any other (R72). -/
def helloOnStanding (before : Standing) (s : State) : State :=
  if sendsHello s.roster.standing then (if sendsHello before then s else sendHello s s.now)
  else s.modRoster (fun r => { r with lastHello := none })

/-! ## Acts of the unit (R63) -/

/-- The state or serial of an entry differs. -/
def entryDiffers (x y : RosterEntry) : Bool := x.state != y.state || x.serial != y.serial

/-- The frames whose entries an act changed. -/
def changedFrames (before after : Roster) : List FrameNo :=
  allFrames.filter (fun f => entryDiffers (before.entries.get f) (after.entries.get f))

/-- The ROSTER notice of an act, the summary mirrored first. -/
def rosterNotice (a : Act) (changed : List FrameNo) : Act :=
  let r := a.s.roster
  (a.post (.mirror .roster)).post
    (.notice (.roster r.generation r.anchor r.standing (bitmap 32 changed (fun _ => true))))

/-- An act of the roster unit: the standing is evaluated, one notice reports what changed, and each entry change and
the standing change go to the stream engine and the timebase unit, which are not ordered among themselves. That several
entry changes go out in ascending frame number, before the standing change, is the model's choice (entry 54); so is that
the cells of this act itself are offered before those its events cause at the stream engine, its HELLO behind the others
(entry 70), and that its ROSTER notice is posted before the STREAMS and TIME notices its events cause (entry 81). -/
def rosterAct (f : Act → Act) (a : Act) : Act :=
  let before := a.s.roster
  let b := f a
  let b := b.on evaluateStanding
  let b := b.on (helloOnStanding before.standing)
  let changed := changedFrames before b.s.roster
  let moved := b.s.roster.standing ≠ before.standing
  let b := if changed ≠ [] ∨ moved ∨ b.s.roster.anchor ≠ before.anchor then rosterNotice b changed else b
  let b := b.each changed (fun b f => b.race2 (streamEntryChanged f) (timeEntryChanged f))
  if moved then b.race2 streamStandingChanged timeRetest else b

/-- An act of the roster unit on the state alone. -/
def rosterPlain (f : State → State) (a : Act) : Act := rosterAct (fun a => a.on f) a

/-! ## Changes the anchor makes -/

/-- An entry takes a state, keeping its serial and identity; its deadline is dropped. -/
def setEntryState (s : State) (f : FrameNo) (st : EntryState) : State :=
  s.modEntry f (fun e => if st = .vacant then .vacant else { e with state := st, deadline := none })

/-- The anchor marks a frame LEAVING (R80). -/
def markLeaving (s : State) (f : FrameNo) : State :=
  match (s.entry f).state with
  | .member | .stray => issueRoster (setEntryState s f .leaving)
  | .quarantined => issueRoster (setEntryState s f .vacant)
  | _ => s

/-- A reach-lost event at the anchor (R79). -/
def strayOnLoss (s : State) (f : FrameNo) : State :=
  match (s.entry f).state with
  | .member => issueRoster (s.modEntry f (fun e => { e with state := .stray, deadline := some (s.now + strayTime) }))
  | .leaving | .refused | .quarantined => issueRoster (setEntryState s f .vacant)
  | .stray | .vacant => s

/-! ## Reach events (R64, R66, R67, R79) -/

/-- A reach-lost event at the roster unit. -/
def rosterReachLost (f : FrameNo) (a : Act) : Act :=
  rosterPlain (fun s =>
    if isAnchor s then strayOnLoss s f
    else if s.roster.anchor = f then retestAnchor s
    else s) a

/-- A reach-gained event at the roster unit: at the anchor a STRAY frame is MEMBER again. -/
def rosterReachGained (f : FrameNo) (a : Act) : Act :=
  rosterPlain (fun s =>
    if isAnchor s ∧ (s.entry f).state = .stray then issueRoster (setEntryState s f .member) else s) a

/-- The frame's contents show the leaving flag set. -/
def showsLeaving (s : State) (f : FrameNo) : Bool :=
  match contentsOf s f with | some c => c.leaving != 0 | none => false

/-- The followed anchor is tested at an advert for it (R64). -/
def advertTest (f : FrameNo) (s : State) : State := if s.roster.anchor = f then retestAnchor s else s

/-- The anchor marks a frame whose advert shows the leaving flag (R80). -/
def advertLeaving (f : FrameNo) (s : State) : State :=
  if isAnchor s ∧ showsLeaving s f = true then markLeaving s f else s

/-- An advert at the roster unit: up to three acts, each with its own evaluation of the standing and its own notice
(R62, R63, R65). Their order is the model's choice (entry 45): the test and its election, then the LEAVING mark with its
ROLL, before R67 may switch the anchor away; and a part that the election leaves with no anchor adopts at this same
advert. -/
def rosterAdvert (f : FrameNo) (a : Act) : Act :=
  rosterPlain adoptOrMerge (rosterPlain (advertLeaving f) (rosterPlain (advertTest f) a))

/-- A change of the own anchor rank (R64, R66). -/
def rosterRankChanged (a : Act) : Act := rosterPlain (fun s => selfAnchor (retestAnchor s)) a

/-- A change of the frame number clears the roster (R82). -/
def rosterRenumber (a : Act) : Act :=
  rosterPlain (fun s => s.modRoster (fun r =>
    { r with
      anchor := 0
      entries := Vector.replicate 32 .vacant
      generation := 0
      issuer := 0
      refusedLatch := false
      heldLatch := false
      silenceSince := if s.own ≠ 0 then some s.now else none
      lastHello := none
      lastRoll := none })) a

/-! ## ROLL (R71) -/

/-- The state code of entry f in a ROLL payload. -/
def rollState (b : List Byte) (f : FrameNo) : Option EntryState := entryStateOfCode (beAt b (8 * f.val) 1)

/-- The form of a ROLL payload fits (entry 23). -/
def rollFits (b : List Byte) : Bool :=
  b.length == 256 && decide (beAt b 4 1 ≤ 31) && allFrames.all (fun f => (rollState b f).isSome)

/-- Entry f as a ROLL carries it. -/
def rollEntry (b : List Byte) (f : FrameNo) : RosterEntry :=
  match rollState b f with
  | none | some .vacant => .vacant
  | some st => ⟨st, BitVec.ofNat 48 (beAt b (8 * f.val + 2) 6), none, none⟩

/-- A frame number field, taken modulo 32 where it has already been found in range. -/
def frameOf (n : Nat) : FrameNo := ⟨n % 32, Nat.mod_lt _ (by decide)⟩

/-- The copy replaced by a ROLL; the own entry becoming REFUSED sets the refused latch. -/
def replaceCopy (b : List Byte) (s : State) : State :=
  let wasRefused := ownEntryIs s .refused
  let s := s.modRoster (fun r =>
    { r with
      generation := BitVec.ofNat 32 (beAt b 0 4)
      issuer := frameOf (beAt b 4 1)
      entries := allFrames.foldl (fun v f => upd v f (fun _ => rollEntry b f)) r.entries })
  if ownEntryIs s .refused && !wasRefused then s.modRoster (fun r => { r with refusedLatch := true }) else s

/-- A roster counter changed. -/
def countRoster (s : State) (f : RosterCounters → RosterCounters) : State :=
  s.modRoster (fun r => { r with counters := f r.counters })

/-- A new ROLL at the roster unit. -/
def takeRoll (rx : Rx) (a : Act) : Act :=
  rosterPlain (fun s =>
    let b := rx.payload
    if s.roster.anchor ≠ rx.origin ∨ isAnchor s = true ∨ rollFits b = false then
      countRoster s (fun c => { c with rollIgnored := c.rollIgnored + 1 })
    else if newer (BitVec.ofNat 32 (beAt b 0 4)) s.roster.generation ∨ beAt b 4 1 ≠ s.roster.issuer.val then
      replaceCopy b s
    else s) a

/-! ## VERDICT (R75) -/

/-- The anchor sends a VERDICT to an entry frame and port. -/
def sendVerdict (s : State) (serial : Serial) (n : FrameNo) (answer : Answer) (reason : RefusalReason) (entryFrame : FrameNo)
    (entryPort : PortIx) : State :=
  let payload := verdictPayload serial n answer reason s.roster.anchor entryPort.val
  if entryFrame = s.own then offer s entryPort ⟨ownCell s .verdict 0 payload, none⟩
  else sendRouted s entryFrame (ownCell s .verdict entryFrame.val payload)

/-- A VERDICT about an entry, sent where an entry frame is known. -/
def verdictFor (s : State) (n : FrameNo) (answer : Answer) (reason : RefusalReason) : State :=
  match (s.entry n).identity with
  | some i => sendVerdict s (s.entry n).serial n answer reason i.entryFrame i.entryPort
  | none => s

/-- The fields of a VERDICT. -/
structure VerdictFields where
  serial : Serial
  frame : FrameNo
  answer : Answer
  reason : RefusalReason
  anchor : FrameNo
  port : PortIx
  deriving DecidableEq, Repr

/-- The fields of a VERDICT whose form fits; serial 0 does not fit (entry 42). -/
def parseVerdict (b : List Byte) : Option VerdictFields :=
  match answerOfCode (beAt b 7 1), reasonOfCode (beAt b 8 1) with
  | some answer, some reason =>
    if h : b.length = 12 ∧ beAt b 6 1 < 32 ∧ beAt b 9 1 < 32 ∧ beAt b 10 1 < 4 ∧ beAt b 0 6 ≠ 0 then
      some ⟨BitVec.ofNat 48 (beAt b 0 6), ⟨beAt b 6 1, h.2.1⟩, answer, reason, ⟨beAt b 9 1, h.2.2.1⟩,
        ⟨beAt b 10 1, h.2.2.2.1⟩⟩
    else none
  | _, _ => none

/-- A VERDICT routed to this part as entry frame: sent on link-local, its reserved byte written 0 (R192). -/
def forwardVerdict (v : VerdictFields) (s : State) : State :=
  if s.isUp v.port ∧ (s.port v.port).partnerSerial = v.serial then
    let payload := verdictPayload v.serial v.frame v.answer v.reason v.anchor v.port.val
    countRoster (offer s v.port ⟨ownCell s .verdict 0 payload, none⟩)
      (fun c => { c with verdictForwarded := c.verdictForwarded + 1 })
  else countRoster s (fun c => { c with verdictDropped := c.verdictDropped + 1 })

/-- A link-local VERDICT at the candidate. -/
def candidateVerdict (v : VerdictFields) (s : State) : State :=
  if v.serial ≠ s.serial ∨ v.frame ≠ s.own ∨ v.anchor ≠ s.roster.anchor then
    countRoster s (fun c => { c with verdictDropped := c.verdictDropped + 1 })
  else
    match v.answer with
    | .admitted | .wait => s
    | .quarantined => s.modRoster (fun r => { r with heldLatch := true })
    | .refused => s.modRoster (fun r => { r with refusedLatch := true })

/-- A VERDICT for this part. -/
def takeVerdict (rx : Rx) (a : Act) : Act :=
  match parseVerdict rx.payload with
  | none => a
  | some v => if rx.dest = 0 then rosterPlain (candidateVerdict v) a else a.on (forwardVerdict v)

/-! ## The decision on a candidate (R74, R76) -/

/-- A candidate as its HELLO gives it. -/
structure Candidate where
  frame : FrameNo
  serial : Serial
  identity : Identity
  deriving DecidableEq, Repr

/-- A pattern matches: every bit whose mask bit is 0 agrees. -/
def patternMatches (p : Pattern) (c : Candidate) : Bool :=
  p.enabled && ((c.identity.frameClass ^^^ p.classValue) &&& ~~~p.classMask) == 0
    && ((c.serial ^^^ p.serialValue) &&& ~~~p.serialMask) == 0

/-- The Admission Filter matches a candidate (R76). -/
def filterMatches (f : Filter) (c : Candidate) : Bool :=
  f.armed && allPorts.any (fun k => patternMatches (f.patterns.get k) c)
    && (f.required == 0 || (c.identity.capabilities &&& f.required) != 0)

/-- The most QUARANTINED entries (R61). -/
def quarantineCapacity : Nat := 4

/-- How many entries are QUARANTINED. -/
def quarantinedCount (s : State) : Nat := (allFrames.filter (fun f => (s.entry f).state == .quarantined)).length

/-- A decision: the answer, the reason of a refusal, and the state it leaves before its ROLL. -/
structure Decision where
  state : State
  changed : Bool
  answer : Answer
  reason : RefusalReason
  deriving DecidableEq, Repr

/-- The entry at the candidate's number comes to hold the candidate in a state. -/
def holdCandidate (s : State) (c : Candidate) (st : EntryState) (deadline : Option Nat) : State :=
  s.modEntry c.frame (fun _ => ⟨st, c.serial, some c.identity, deadline⟩)

/-- Step 1 of R74: the candidate is known at its number in a state that answers at once. -/
def decideKnown (s : State) (c : Candidate) : Option Decision :=
  let e := s.entry c.frame
  let refresh := s.modEntry c.frame (fun e => { e with identity := some c.identity })
  if e.serial ≠ c.serial then none
  else
    match e.state with
    | .member => some ⟨refresh, false, .admitted, .none⟩
    | .stray => some ⟨setEntryState refresh c.frame .member, true, .admitted, .none⟩
    | .quarantined => some ⟨refresh, false, .quarantined, .none⟩
    | _ => none

/-- Step 2 of R74: other entries that carry the serial become VACANT. -/
def vacateOthers (s : State) (c : Candidate) : State × Bool :=
  let others := allFrames.filter (fun f => f != c.frame && (s.entry f).state != .vacant && (s.entry f).serial == c.serial)
  (others.foldl (fun s f => setEntryState s f .vacant) s, !others.isEmpty)

/-- The entry at the candidate's number is taken by another serial (R74 step 3). -/
def numberTaken (e : RosterEntry) (c : Candidate) : Bool :=
  e.serial != c.serial && (e.state == .member || e.state == .stray || e.state == .quarantined || e.state == .leaving)

/-- The quarantine window in ns (R74). -/
def windowTime (w : Settings) : Nat := w.window * second

/-- Steps 3 to 6 of R74. -/
def decideRest (s : State) (c : Candidate) (changed : Bool) : Decision :=
  let e := s.entry c.frame
  if numberTaken e c then ⟨s, changed, .refused, .duplicate⟩
  else if e.state = .refused ∧ e.serial = c.serial then ⟨s, changed, .refused, .prior⟩
  else if filterMatches s.store.working.filter c then ⟨holdCandidate s c .member none, true, .admitted, .none⟩
  else if quarantinedCount s < quarantineCapacity then
    ⟨holdCandidate s c .quarantined (some (s.now + windowTime s.store.working)), true, .quarantined, .none⟩
  else ⟨s, changed, .wait, .none⟩

/-- The decision on a candidate (R74). -/
def decide74 (s : State) (c : Candidate) : Decision :=
  match decideKnown s c with
  | some d => d
  | none =>
    let (s, changed) := vacateOthers s c
    decideRest s c changed

/-- The decision begins a quarantine: it posts an ADMISSION notice (R74 step 6). -/
def beginsQuarantine (s : State) (c : Candidate) (d : Decision) : Bool :=
  d.answer == .quarantined && !((s.entry c.frame).state == .quarantined && (s.entry c.frame).serial == c.serial)

/-- The anchor decides a candidate: the roster change, the VERDICT, the ADMISSION notice (R74, R75). That the ROLL of the
change is offered before the VERDICT is the model's choice (entry 55), and so is that the ADMISSION notice is posted
behind the other notices of the act (entry 81). -/
def decideCandidate (c : Candidate) (a : Act) : Act :=
  let quarantine := beginsQuarantine a.s c (decide74 a.s c)
  let a := rosterAct (fun a => a.on (fun s =>
    let d := decide74 s c
    let s := if d.changed then issueRoster d.state else d.state
    sendVerdict s c.serial c.frame d.answer d.reason c.identity.entryFrame c.identity.entryPort)) a
  if quarantine then a.post (.notice (.admission (bit 32 c.frame.val) 0)) else a

/-! ## HELLO (R73) -/

/-- The fields of a HELLO. -/
structure HelloFields where
  serial : Serial
  frameClass : BitVec 16
  capabilities : BitVec 32
  frame : FrameNo
  anchor : FrameNo
  rejoin : Bool
  entryFrame : FrameNo
  entryPort : PortIx
  deriving DecidableEq, Repr

/-- The fields of a HELLO whose form fits; serial 0 does not fit (entry 42). -/
def parseHello (b : List Byte) : Option HelloFields :=
  if h : b.length = 20 ∧ beAt b 0x0C 1 < 32 ∧ beAt b 0x0D 1 < 32 ∧ beAt b 0x0E 1 ≤ 1 ∧ beAt b 0x0F 1 < 32
      ∧ beAt b 0x10 1 < 4 ∧ beAt b 0 6 ≠ 0 then
    some { serial := BitVec.ofNat 48 (beAt b 0 6), frameClass := BitVec.ofNat 16 (beAt b 6 2),
           capabilities := BitVec.ofNat 32 (beAt b 8 4), frame := ⟨beAt b 0x0C 1, h.2.1⟩,
           anchor := ⟨beAt b 0x0D 1, h.2.2.1⟩, rejoin := beAt b 0x0E 1 == 1, entryFrame := ⟨beAt b 0x0F 1, h.2.2.2.2.1⟩,
           entryPort := ⟨beAt b 0x10 1, h.2.2.2.2.2.1⟩ }
  else none

/-- The tests of a link-local HELLO at the entry frame (R73). -/
def helloPasses (s : State) (rx : Rx) (h : HelloFields) : Bool :=
  s.roster.standing == .member && rx.origin != 0 && rx.origin == h.frame
    && h.serial == (s.port rx.port).partnerSerial && h.serial != s.serial && h.anchor == s.roster.anchor

/-- The candidate a HELLO describes, with its entry frame and port. -/
def candidateOf (h : HelloFields) (entryFrame : FrameNo) (entryPort : PortIx) : Candidate :=
  ⟨h.frame, h.serial, ⟨h.frameClass, h.capabilities, h.rejoin, entryFrame, entryPort⟩⟩

/-- A HELLO counted HELLO DROPPED. -/
def dropHello (s : State) : State := countRoster s (fun c => { c with helloDropped := c.helloDropped + 1 })

/-- A HELLO sent on toward the anchor, counted when it can be routed (entry 30). -/
def forwardHello (rx : Rx) (h : HelloFields) (s : State) : State :=
  match s.route s.roster.anchor with
  | none => s
  | some r =>
    let payload := helloPayload h.serial h.frameClass h.capabilities h.frame h.anchor h.rejoin s.own rx.port.val
    countRoster (offer s r.port ⟨ownCell s .hello s.roster.anchor.val payload, none⟩)
      (fun c => { c with helloForwarded := c.helloForwarded + 1 })

/-- A HELLO at this part: link-local at the entry frame, routed at the anchor. -/
def takeHello (rx : Rx) (a : Act) : Act :=
  match parseHello rx.payload with
  | none => a
  | some h =>
    if rx.dest = 0 then
      if helloPasses a.s rx h = false then a.on dropHello
      else if isAnchor a.s then decideCandidate (candidateOf h a.s.own rx.port) a
      else a.on (forwardHello rx h)
    else if isAnchor a.s = false ∨ h.serial = a.s.serial ∨ h.frame = 0 then a.on dropHello
    else decideCandidate (candidateOf h h.entryFrame h.entryPort) a

/-! ## LEAVE (R80) -/

/-- A LEAVE cell for this part; one of another length or with serial 0 does not fit its form (entry 42). That
one whose serial is not that of the entry at its origin is not counted at the anchor is the model's choice (entry 64). -/
def takeLeave (rx : Rx) (a : Act) : Act :=
  if rx.payload.length ≠ 8 ∨ beAt rx.payload 0 6 = 0 then a
  else
    rosterPlain (fun s =>
      if isAnchor s = false then countRoster s (fun c => { c with leaveDropped := c.leaveDropped + 1 })
      else if (s.entry rx.origin).serial = BitVec.ofNat 48 (beAt rx.payload 0 6) then markLeaving s rx.origin
      else s) a

/-- Every slot is CLOSED (R137). -/
def allClosed (s : State) : Bool := allSlots.all (fun n => (s.slot n).state == .closed)

/-- The LEAVE order completes: every own stream CLOSED, and the own entry LEAVING or the limit past (R80). -/
def leaveCheck (a : Act) : Act :=
  match a.s.roster.leave with
  | none => a
  | some l =>
    if allClosed a.s && (ownEntryIs a.s .leaving || decide (l.since + leaveLimit ≤ a.s.now)) then
      complete (a.on (·.modRoster (fun r => { r with leave := none }))) l.order .done
    else a

/-- LEAVE taken in a standing that allows it: the latch, the announcement, the election (R80 step 1). -/
def beginLeave (order : BitVec 32) (s : State) : State :=
  let anchor := isAnchor s
  let s := s.modRoster (fun r => { r with leavingLatch := true, leave := some ⟨order, s.now⟩ })
  if anchor then electAnchor (issueRoster (setEntryState s s.own .leaving))
  else
    let s := if s.roster.anchor = 0 then s else
      sendRouted s s.roster.anchor (ownCell s .leaveCell s.roster.anchor.val (leavePayload s.serial))
    retestAnchor s

/-! ## Deadlines (R77, R79) -/

/-- The earliest window deadline of a QUARANTINED entry. -/
def nextWindow (s : State) : Option Nat :=
  allFrames.foldl (fun m f =>
    match (s.entry f).state, (s.entry f).deadline with
    | .quarantined, some d => minFault m (some d)
    | _, _ => m) none

/-- The QUARANTINED entries whose window deadline has passed. -/
def expiredWindows (s : State) : List FrameNo :=
  allFrames.filter (fun f =>
    match (s.entry f).state, (s.entry f).deadline with
    | .quarantined, some d => decide (d ≤ s.now)
    | _, _ => false)

/-- Expired entries become REFUSED in one roster change, with their VERDICTs, offered after its ROLL (entry 55), and one
ADMISSION notice (R77), posted behind the other notices of the act: the model's choice (entry 81). -/
def expireWindows (a : Act) : Act :=
  let expired := expiredWindows a.s
  if expired = [] then a
  else
    let a := rosterPlain (fun s =>
      let s := issueRoster (expired.foldl (fun s f => setEntryState s f .refused) s)
      expired.foldl (fun s f => verdictFor s f .refused .timeout) s) a
    a.post (.notice (.admission 0 (bitmap 32 expired (fun _ => true))))

end Sys2Proof.Machine
end

