-- ==== Sys2Proof/Machine/ReachUnit.lean ====
section
/-! DEFINITION. The reach unit (03): beacons (R45, R46), learning (R47, R48), route offers (R49), ageing (R50), port
events (R51), entries going UNKNOWN (R52), and the events to the other units (R53 to R57). -/

namespace Sys2Proof.Machine

/-- A reach counter changed. -/
def countReach (s : State) (f : ReachCounters → ReachCounters) : State :=
  s.modReach (fun r => { r with counters := f r.counters })

/-- An entry of the Reach Table replaced. -/
def setRoute (s : State) (f : FrameNo) (r : Option Route) : State :=
  s.modReach (fun x => { x with table := upd x.table f (fun _ => r) })

/-! ## Events (R52 to R56) -/

/-- An entry goes UNKNOWN: it is counted LOST and the flood memory of its origin is emptied (R52, R9). -/
def markUnknown (s : State) (f : FrameNo) : State :=
  clearFlood (countReach (setRoute s f none) (fun c => { c with lost := c.lost + 1 })) f

/-- The reach-lost event at its receivers, which are not ordered among themselves (R52). -/
def reachLostEvent (a : Act) (f : FrameNo) : Act := a.race3 (rosterReachLost f) (timeReachLost f) (streamReachLost f)

/-- Several entries go UNKNOWN; each gives a reach-lost event, in ascending order (entry 20). -/
def loseEntries (fs : List FrameNo) (a : Act) : Act :=
  (a.on (fun s => fs.foldl markUnknown s)).each fs reachLostEvent

/-- The reach-gained event at its receivers (R53). -/
def reachGainedEvent (f : FrameNo) (a : Act) : Act :=
  a.race3 (rosterReachGained f) (timeReachGained f) (streamReachGained f)

/-- The advert event at its receivers (R56). -/
def advertEvent (f : FrameNo) (a : Act) : Act := a.race2 (rosterAdvert f) (timeAdvert f)

/-- The route-changed event: the switch flushes the old port's relayed DATA for the frame, the stream engine moves its
streams (R54). -/
def routeChangedEvent (f : FrameNo) (old : PortIx) (a : Act) : Act :=
  streamRouteChanged f (a.on (·.modLink old (rerouteLink f)))

/-! ## Beacons (R45, R46) -/

/-- The beacon contents of the part now (R46). -/
def ownContents (s : State) : Contents :=
  { frame := BitVec.ofNat 8 s.own.val
    anchorRank := BitVec.ofNat 8 (if s.roster.standing = .leaving then 0 else s.store.working.anchorRank.val)
    timeRank := BitVec.ofNat 8 (if s.roster.standing = .leaving then 0 else s.store.working.timeRank.val)
    timeState := BitVec.ofNat 8 (timeStateCode s.tb.state)
    serial := s.serial
    incarnation := s.store.incarnation
    generation := s.roster.generation
    followedAnchor := BitVec.ofNat 8 s.roster.anchor.val
    followedMaster := BitVec.ofNat 8 s.tb.master.val
    standing := BitVec.ofNat 8 (standingCode s.roster.standing)
    leaving := BitVec.ofNat 8 (flagCode (s.roster.standing == .leaving)) }

/-- A BEACON is originated: the sequence advances, and one copy is offered to every UP port (R45). -/
def originateBeacon (s : State) : State :=
  if s.own = 0 then s
  else
    let s := s.modReach (fun r => { r with ownSequence := r.ownSequence + 1 })
    offerEach s s.upPorts (ownCell s .beacon floodDest (contentsPayload (ownContents s)) s.reach.ownSequence)

/-- The contents record of a BEACON payload, its fields as carried. -/
def parseContents (b : List Byte) : Contents :=
  { frame := BitVec.ofNat 8 (beAt b 0 1)
    anchorRank := BitVec.ofNat 8 (beAt b 1 1)
    timeRank := BitVec.ofNat 8 (beAt b 2 1)
    timeState := BitVec.ofNat 8 (beAt b 3 1)
    serial := BitVec.ofNat 48 (beAt b 4 6)
    incarnation := BitVec.ofNat 16 (beAt b 0x0A 2)
    generation := BitVec.ofNat 32 (beAt b 0x0C 4)
    followedAnchor := BitVec.ofNat 8 (beAt b 0x10 1)
    followedMaster := BitVec.ofNat 8 (beAt b 0x11 1)
    standing := BitVec.ofNat 8 (beAt b 0x12 1)
    leaving := BitVec.ofNat 8 (beAt b 0x13 1) }

/-! ## Learning (R47, R48) -/

/-- What the tests of R47 make of a new BEACON. -/
inductive BeaconTest
  | discard
  | malformed
  | stale
  | far
  | learn
  deriving DecidableEq, Repr

/-- The form test of R47. -/
def beaconFits (rx : Rx) : Bool :=
  rx.payload.length == 20 && (parseContents rx.payload).frame.toNat == rx.origin.val
    && (parseContents rx.payload).incarnation == rx.incarnation

/-- The tests of R47, in their order. -/
def testBeacon (s : State) (rx : Rx) : BeaconTest :=
  if s.own = 0 ∨ s.reach.portSet.get rx.port = false then .discard
  else if beaconFits rx = false then .malformed
  else if (match s.route rx.origin with | some r => older rx.incarnation r.incarnation | none => false) = true then .stale
  else if rx.hops.val = maxHops then .far
  else .learn

/-- The entry a learned BEACON gives (R48). -/
def learnedRoute (rx : Rx) : Route :=
  { hops := rx.hops.val + 1, port := rx.port, incarnation := rx.incarnation, sequence := rx.floodSeq, age := 0,
    refreshed := true, contents := parseContents rx.payload }

/-- The learn replaces contents that carry another serial. -/
def conflicts (old : Option Route) (rx : Rx) : Bool :=
  match old with
  | some r => r.contents.serial != (parseContents rx.payload).serial
  | none => false

/-- A BEACON is learned, with the events its prior entry calls for (R48). That reach gained, or route changed, goes to all
its receivers before any of them takes the advert is the model's choice (entry 68). -/
def learnBeacon (rx : Rx) (a : Act) : Act :=
  let f := rx.origin
  let old := a.s.route f
  let a := a.on (fun s => countReach (setRoute s f (some (learnedRoute rx))) (fun c =>
    { c with learned := c.learned + 1, conflict := if conflicts old rx then c.conflict + 1 else c.conflict }))
  let a :=
    match old with
    | none => reachGainedEvent f a
    | some r => if r.port = rx.port then a else routeChangedEvent f r.port a
  advertEvent f a

/-- A new BEACON at the reach unit (R47). -/
def takeBeacon (rx : Rx) (a : Act) : Act :=
  match testBeacon a.s rx with
  | .discard => a
  | .malformed => a.on (countReach · (fun c => { c with malformed := c.malformed + 1 }))
  | .stale => a.on (countReach · (fun c => { c with stale := c.stale + 1 }))
  | .far => a.on (countReach · (fun c => { c with far := c.far + 1 }))
  | .learn => learnBeacon rx a

/-! ## Route offers (R49) -/

/-- A reachable entry moved by an offer, its other fields kept. -/
def offeredRoute (r : Route) (rx : Rx) : Route := { r with hops := rx.hops.val + 1, port := rx.port }

/-- What an offer makes of a REACHABLE entry: nothing, an improvement, or a newer sequence. -/
def judgeOffer (r : Route) (rx : Rx) : Option (Route × Bool) :=
  let h := rx.hops.val + 1
  if rx.floodSeq = r.sequence then
    if h < r.hops ∨ (h = r.hops ∧ rx.port.val < r.port.val) then some (offeredRoute r rx, false) else none
  else if newer rx.floodSeq r.sequence then
    some ({ offeredRoute r rx with sequence := rx.floodSeq, age := 0, refreshed := true }, true)
  else none

/-- A route offer (R49). -/
def takeOffer (rx : Rx) (a : Act) : Act :=
  if a.s.own = 0 ∨ a.s.reach.portSet.get rx.port = false ∨ rx.hops.val = maxHops then a
  else
    match a.s.route rx.origin with
    | none => a
    | some r =>
      if r.incarnation ≠ rx.incarnation then a
      else
        match judgeOffer r rx with
        | none => a
        | some (n, late) =>
          let a := a.on (fun s => countReach (setRoute s rx.origin (some n)) (fun c =>
            if late then { c with late := c.late + 1 } else { c with improved := c.improved + 1 }))
          if n.port = r.port then a else routeChangedEvent rx.origin r.port a

/-! ## Ageing and port events (R50, R51, R57) -/

/-- The age at which an entry goes UNKNOWN (R50). -/
def ageLimit : Nat := 3

/-- An entry is due to go UNKNOWN at this expiry. -/
def agesOut (r : Route) : Bool := !r.refreshed && r.age + 1 == ageLimit

/-- An entry that stays REACHABLE at an expiry. -/
def ageRoute (r : Route) : Route := if r.refreshed then { r with refreshed := false, age := 0 } else { r with age := r.age + 1 }

/-- Every REACHABLE entry is judged at an expiry of the period timer (R50). -/
def ageTable (a : Act) : Act :=
  let lost := allFrames.filter (fun f => match a.s.route f with | some r => agesOut r | none => false)
  let a := a.on (fun s => allFrames.foldl (fun s f =>
    match s.route f with
    | some r => if agesOut r then s else setRoute s f (some (ageRoute r))
    | none => s) s)
  loseEntries lost a

/-- The REACHABLE entries whose port is a port. -/
def entriesOn (s : State) (p : PortIx) : List FrameNo :=
  allFrames.filter (fun f => match s.route f with | some r => r.port == p | none => false)

/-- A port joins or leaves the port set. -/
def setPort (s : State) (p : PortIx) (up : Bool) : State :=
  s.modReach (fun r => { r with portSet := upd r.portSet p (fun _ => up) })

/-- A port-loss event at the reach unit (R51). -/
def reachPortLost (p : PortIx) (a : Act) : Act :=
  let a := a.on (setPort · p false)
  loseEntries (entriesOn a.s p) a

/-- The REACHABLE entries. -/
def reachableFrames (s : State) : List FrameNo := allFrames.filter (fun f => (s.route f).isSome)

/-- Every flood memory record of every origin is emptied (R57). -/
def clearAllFlood (s : State) : State := allFrames.foldl clearFlood s

end Sys2Proof.Machine
end

