-- ==== Sys2Proof/Machine/PortEvents.lean ====
section
/-! DEFINITION. A port's change of state with all it gives the other units: the mirror entry and PORTk notice (R21), the
port-loss event (R39), the port-gained event (R40); holds and releases (R38); the end of training (R29). -/

namespace Sys2Proof.Machine

/-- The flush of a port's queues and line at its loss, and what the stream engine makes of it (R17, R151). -/
def flushPort (p : PortIx) (a : Act) : Act :=
  let abandoned := localOnLine (a.s.link p)
  streamPortLost p abandoned (a.on (fun s => s.modLink p (flushLink s.now)))

/-- The port-loss event at its receivers (R39), which are not ordered among themselves. That the switch flushes, and the
stream engine has its blocks cut off, before the two other units is the model's choice (entry 76); the order of the reach
unit and the timebase unit is a free choice (entry 6). -/
def portLossEvent (p : PortIx) (a : Act) : Act := (flushPort p a).race2 (reachPortLost p) (timePortLost p)

/-- The port-gained event (R40): the arbiter's turn is set (R15) and the reach unit takes the port into its set. -/
def portGainedEvent (p : PortIx) (a : Act) : Act :=
  a.on (fun s => setPort (s.modLink p (fun l => { l with turn := 64 })) p true)

/-- A cell on the line of a port that leaves TRAINING for a state other than UP is lost uncounted (entry 15); the end
of its gap stays the moment of the next decision (entry 53). -/
def dropLine (p : PortIx) (s : State) : State := s.modLink p (fun l => { l with line := none })

/-- A change of a port's state with its cause (R21). -/
def changePort (p : PortIx) (st : PortState) (cause : PortCause) (a : Act) : Act :=
  let old := (a.s.port p).state
  let a := a.on (fun s => s.modPort p (fun r => changeRecord s.now r st cause))
  let a := (a.post (.mirror (.port p))).post (.notice (.port p st cause 1))
  if old = .up then portLossEvent p a
  else if st = .up then portGainedEvent p a
  else if old = .training then a.on (dropLine p)
  else a

/-- A failed training adds to the attempts count, saturating (R20, R29). -/
def countAttempt (r : Port) : Port := { r with attempts := if r.attempts = 0xFFFF then r.attempts else r.attempts + 1 }

/-- Training fails: the port goes DARK (R29). -/
def failTraining (p : PortIx) (cause : PortCause) (a : Act) : Act :=
  changePort p .dark cause (a.on (·.modPort p countAttempt))

/-- Training success is taken at the moment its last condition is met (R29). -/
def tryTrained (p : PortIx) (a : Act) : Act :=
  if trainingDone a.s.now (a.s.port p) then changePort p .up .trained a else a

/-- A hold (R38). -/
def holdPort (p : PortIx) (a : Act) : Act :=
  match (a.s.port p).state with
  | .held | .faulted => a
  | _ => changePort p .held .hold a

/-- A release (R38). -/
def releasePort (p : PortIx) (a : Act) : Act :=
  if (a.s.port p).state = .held then changePort p .dark .release a else a

end Sys2Proof.Machine
end

