-- ==== Sys2Proof/Machine/Transmit.lean ====
section
/-! DEFINITION. The transmit arbiter (R15), what is written at transmission (R16), and the end of a local DATA cell. -/

namespace Sys2Proof.Machine

/-- The transmitter sends cells: the port is UP, or TRAINING with symbol lock (R1, R25). -/
def sendsCells (p : Port) : Bool := transmitting p == .cells

/-! ## Transmit stamps (R16) -/

/-- A cell as its start delimiter leaves the port: the fields written at transmission. `unpaced` tells that a DATA cell
belongs to an unpaced source. -/
def stampCell (q : Queued) (unpaced : Bool) (t : Time) : Cell :=
  let c := q.cell
  match c.kind with
  | .time => { c with payload := patchBytes c.payload 4 (beBytes 8 t.toNat) }
  | .echo =>
    match q.answers with
    | some a => { c with payload := patchBytes c.payload 4 (beBytes 8 (t - a).toNat) }
    | none => c
  | .data =>
    if unpaced ∧ beAt c.payload 5 2 = 0 then { c with payload := patchBytes c.payload 12 (beBytes 8 t.toNat) } else c
  | _ => c

/-- A departed PROBE is reported to its port unit (R16, R26). -/
def reportDeparture (s : State) (p : PortIx) (c : Cell) : State :=
  if c.kind = .probe then s.modPort p (probeDeparts (BitVec.ofNat 8 (beAt c.payload 7 1)) s.tb.rackTime) else s

/-! ## The arbiter (R15) -/

/-- What an arbiter decision takes. -/
inductive Grant
  | queue (c : TxClass) (q : Queued)
  | slot (n : SlotIx) (o : Offer)
  deriving DecidableEq, Repr

/-- The D participant at a place of the cyclic order: 0 the relay queue, k + 1 slot k. -/
def participant (s : State) (p : PortIx) (i : Nat) : Option Grant :=
  match i with
  | 0 => ((s.link p).dQueue.head?).map (Grant.queue .dq)
  | k + 1 =>
    if h : k < 64 then
      match (s.slot ⟨k, h⟩).offer with
      | some o => if o.port = p then some (.slot ⟨k, h⟩ o) else none
      | none => none
    else none

/-- The first participant with a cell, from the one after the participant last served; with its place. -/
def nextParticipant (s : State) (p : PortIx) : Option (Fin 65 × Grant) :=
  ((List.range 65).map (fun i => ((s.link p).turn.val + 1 + i) % 65)).findSome? (fun i =>
    (participant s p i).map (fun g => (⟨i % 65, Nat.mod_lt _ (by decide)⟩, g)))

/-- What the arbiter takes at a decision, with the turn it leaves. -/
def grant (s : State) (p : PortIx) : Option (Fin 65 × Grant) :=
  let l := s.link p
  match l.tQueue with
  | q :: _ => some (l.turn, .queue .tq q)
  | [] =>
    match l.cQueue with
    | q :: _ => some (l.turn, .queue .cq q)
    | [] => nextParticipant s p

/-- A cell's line time: its data symbols and two delimiters (R1, entry 11). -/
def lineTime (c : Cell) : Nat := (symbolCount c + 2) * symbolTime

/-- A cell's start delimiter is sent: the line holds it, and the gap after it is set (R1). -/
def startCell (s : State) (p : PortIx) (turn : Fin 65) (c : Cell) (src : Option LocalCell) : State :=
  let e := s.now + lineTime c
  reportDeparture (s.modLink p (fun l =>
    { l with turn := turn, line := some ⟨c, src, e⟩, gapEnds := e + gapSymbols * symbolTime })) p c

/-- What was granted leaves its queue, or its slot's offer. -/
def takeGrant (s : State) (p : PortIx) (turn : Fin 65) (g : Grant) : State :=
  let t := s.tb.rackTime
  match g with
  | .queue c q =>
    startCell (s.modLink p (fun l => setQueue l c ((queueOf l c).drop 1))) p turn (stampCell q false t) none
  | .slot n o =>
    let unpaced := (s.slot n).pace == 0
    startCell (s.modSlot n (fun x => { x with offer := none })) p turn (stampCell ⟨o.cell, none⟩ unpaced t) (some o.src)

/-- An arbiter decision: at a cell boundary, with a cell to take (R15). The clock moves on to the end of the gap; a local
DATA cell stays on the line until its end is reported (entry 11). -/
def arbiterDecision (s : State) (p : PortIx) : State :=
  if sendsCells (s.port p) = false ∨ (localOnLine (s.link p)).isSome then s
  else
    match grant s p with
    | none => s
    | some (turn, g) => takeGrant (advanceTo s (s.link p).gapEnds) p turn g

/-- The end delimiter of a local DATA cell is sent: the line is free and the stream engine is told (R15, R151). -/
def dataCellSent (p : PortIx) (a : Act) : Act :=
  match (a.s.link p).line with
  | none => a
  | some x =>
    match x.src with
    | none => a
    | some lc =>
      cellSent (a.on (fun s => (advanceTo s x.endsAt).modLink p (fun l => { l with line := none }))) x.cell lc

end Sys2Proof.Machine
end

