-- ==== Sys2Proof/Machine/NotePath.lean ====
section
/-! DEFINITION. The note path (09): SEND_NOTE and the waiting notes (R161, R162), a NOTE at its destination (R163), and
answers with their timer (R164). -/

namespace Sys2Proof.Machine

/-- The fixed fields of a NOTE payload, in bytes (12, Cells). -/
def noteHeadSize : Nat := 16

/-- The longest body of a note (R161). -/
def noteBodyLimit : Nat := 192

/-- A body length in the range of R161. -/
def bodyLengthOk (n : Nat) : Bool := decide (1 ≤ n ∧ n ≤ noteBodyLimit)

/-- A counter of R166 changed. -/
def countNotes (s : State) (f : NoteCounters → NoteCounters) : State :=
  s.modNotes (fun n => { n with counters := f n.counters })

/-! ## Sending (R161, R162) -/

/-- The lowest index of an invalid parameter of a SEND_NOTE, if any (R161); that it is the lowest is the model's choice
(entry 61). -/
def noteBadParameter (s : State) (o : Order) : Option Nat :=
  if noteDest o = 0 ∨ 31 < noteDest o ∨ noteDest o = s.own.val then some 0
  else if notePointer o = 0 then some 1
  else if bodyLengthOk (noteLength o) = false then some 2
  else none

/-- The NOTE that carries a body to a frame under the present note number (R162). -/
def noteCell (s : State) (dest : FrameNo) (body : List Byte) : Cell :=
  ownCell s .note dest.val (notePayload s.notes.number s.serial body)

/-- A NOTE is offered to the port its destination's entry names; its window entry's timer starts (R162). -/
def sendNote (s : State) (o : Order) (dest : FrameNo) (body : List Byte) : State :=
  (sendRouted s dest (noteCell s dest body)).modNotes (fun n =>
    { n with
      window := n.window ++ [⟨o.sequence, dest, n.number, body.length, s.now⟩]
      number := n.number + 1
      counters := { n.counters with sent := n.counters.sent + 1 } })

/-- A SEND_NOTE is taken: its checks, the read of its body, the NOTE (R161, R162). -/
def takeNoteOrder (a : Act) (o : Order) : Act :=
  let dest := frameOf (noteDest o)
  if a.s.roster.standing ≠ .member then complete a o.sequence .notMember
  else if copyMember a.s dest = false ∨ (a.s.route dest).isNone = true then complete a o.sequence .unreachable
  else
    match memRead a.s.mem (notePointer o) (noteLength o) with
    | .error x => (complete a o.sequence .memoryFault).memFault .noteBodyRead x
    | .ok body => a.on (fun s => sendNote (holdOrder s o.sequence) o dest body)

/-- The note window has a place. -/
def noteRoom (s : State) : Bool := decide (s.notes.window.length < noteCapacity)

/-- SEND_NOTE: validated, then taken at once where the window has a place and no order waits, else it waits (R161). -/
def noteOrder (a : Act) (o : Order) : Act :=
  match noteBadParameter a.s o with
  | some i => badOrder a o i
  | none =>
    if noteRoom a.s = true ∧ a.s.notes.waiting = [] then takeNoteOrder a o
    else a.on (fun s => (holdOrder s o.sequence).modNotes (fun n => { n with waiting := n.waiting ++ [o.sequence] }))

/-- The oldest waiting SEND_NOTE is taken while the window has a place (R161). -/
def takeWaitingNote (a : Act) : Act :=
  if noteRoom a.s = false then a
  else
    match a.s.notes.waiting with
    | [] => a
    | q :: rest =>
      let a := a.on (·.modNotes (fun n => { n with waiting := rest }))
      match windowOrder a.s q with
      | none => a
      | some o => takeNoteOrder a o

/-! ## At the destination (R163) -/

/-- The answer to a NOTE; not sent where the origin's entry is UNKNOWN. -/
def answerNote (s : State) (rx : Rx) (number : BitVec 16) (answer : NoteAnswer) (slot : Nat) : State :=
  sendRouted s rx.origin (ownCell s .noteAnswer rx.origin.val (noteAnswerPayload number answer slot))

/-- The address of a note inbox slot (12, The Exchange Area). -/
def inboxAddress (s : State) (k : InboxIx) : Nat := areaBase s + 0x800 + 0x100 * k.val

/-- The bytes of a note slot after its flag (12, Note slot): the fields, the reserved bytes as 0, the body. -/
def noteSlotBytes (rx : Rx) : List Byte :=
  leBytes 1 rx.origin.val ++ leBytes 2 (beAt rx.payload 0 2) ++ leBytes 2 (beAt rx.payload 2 2) ++ zeros 2
    ++ leBytes 8 (beAt rx.payload 4 6) ++ leBytes 8 rx.stamp.toNat ++ zeros 0x28 ++ rx.payload.drop noteHeadSize

/-- The runs that write a note slot, its flag last. -/
def noteSlotRuns (s : State) (rx : Rx) (k : InboxIx) : List (Nat × List Byte) :=
  [(inboxAddress s k + 1, noteSlotBytes rx), (inboxAddress s k, leBytes 1 1)]

/-- The part holds an inbox slot FULL or EMPTY. -/
def holdInbox (s : State) (k : InboxIx) (full : Bool) : State :=
  s.modNotes (fun n => { n with inbox := upd n.inbox k (fun _ => full) })

/-- A counter of an answer is raised where the answer is sent: the origin's entry is REACHABLE (R166). -/
def countAnswer (s : State) (rx : Rx) (f : NoteCounters → NoteCounters) : State :=
  if (s.route rx.origin).isSome then countNotes s f else s

/-- A note is answered BUSY, and counted so. -/
def noteBusy (s : State) (rx : Rx) (number : BitVec 16) : State :=
  answerNote (countAnswer s rx (fun c => { c with busy := c.busy + 1 })) rx number .busy 0

/-- A note is answered NOT_ATTACHED, and counted so. -/
def noteNotAttached (s : State) (rx : Rx) (number : BitVec 16) : State :=
  answerNote (countAnswer s rx (fun c => { c with notAttached := c.notAttached + 1 })) rx number .notAttached 0

/-- A note is written into a slot held EMPTY and answered; a fault leaves the slot EMPTY and answers BUSY. -/
def writeNote (a : Act) (rx : Rx) (number : BitVec 16) (k : InboxIx) : Act :=
  match writeRuns a.s (noteSlotRuns a.s rx k) with
  | (s, some x) => (Act.memFault { a with s := s } .inboxWrite x).on (noteBusy · rx number)
  | (s, none) =>
    let s := countNotes (holdInbox s k true) (fun c => { c with accepted := c.accepted + 1 })
    (Act.post { a with s := s } (.notice (.notes (bit 8 k.val)))).on (answerNote · rx number .accepted k.val)

/-- The form of a NOTE fits: a body length in range, and as many bytes behind the fixed fields. -/
def noteFits (b : List Byte) : Bool := bodyLengthOk (beAt b 2 2) && b.length == noteHeadSize + beAt b 2 2

/-- A NOTE for this frame, by the first case of R163 that applies. -/
def takeNote (rx : Rx) (a : Act) : Act :=
  let number := BitVec.ofNat 16 (beAt rx.payload 0 2)
  if noteFits rx.payload = false then a.on (countNotes · (fun c => { c with malformed := c.malformed + 1 }))
  else if a.s.roster.standing ≠ .member ∨ copyMember a.s rx.origin = false then
    a.on (countNotes · (fun c => { c with refused := c.refused + 1 }))
  else if a.s.ex.state ≠ .attached then a.on (noteNotAttached · rx number)
  else
    match allInbox.find? (fun k => !a.s.notes.inbox.get k) with
    | none => a.on (noteBusy · rx number)
    | some k => writeNote a rx number k

/-! ## Answers and the timer (R164) -/

/-- An entry leaves the note window. -/
def removeNote (s : State) (e : NoteEntry) : State :=
  s.modNotes (fun n => { n with window := n.window.filter (fun x => x != e) })

/-- The results of a note that got no inbox slot: the note number. -/
def noteNumberResult (e : NoteEntry) : List Byte := leBytes 2 e.number.toNat

/-- An entry resolves by an answer. -/
def resolveNote (a : Act) (e : NoteEntry) (answer : NoteAnswer) (slot : Nat) : Act :=
  let a := a.on (removeNote · e)
  match answer with
  | .accepted => complete a e.order .done 0 (leBytes 1 slot ++ zeros 1 ++ leBytes 2 e.number.toNat)
  | .busy => complete a e.order .busy 0 (noteNumberResult e)
  | .notAttached => complete a e.order .notAttached 0 (noteNumberResult e)

/-- A NOTE_ANSWER for this frame: it resolves the entry it matches, or is counted ANSWER IGNORED (R164). That one whose
payload is not of the layout's length is counted too is the model's choice (entry 80). -/
def takeNoteAnswer (rx : Rx) (a : Act) : Act :=
  let b := rx.payload
  let number := BitVec.ofNat 16 (beAt b 0 2)
  let ignored := a.on (countNotes · (fun c => { c with ignored := c.ignored + 1 }))
  match noteAnswerOfCode (beAt b 2 1) with
  | none => ignored
  | some answer =>
    if b.length ≠ 4 ∨ 7 < beAt b 3 1 then ignored
    else
      match a.s.notes.window.find? (fun e => e.dest == rx.origin && e.number == number) with
      | none => ignored
      | some e => resolveNote a e answer (beAt b 3 1)

/-- The entry of a note number. -/
def noteOfNumber (s : State) (number : BitVec 16) : Option NoteEntry :=
  s.notes.window.find? (fun e => e.number == number)

/-- The answer timer of an entry expires: it resolves UNCONFIRMED. -/
def expireNote (e : NoteEntry) (a : Act) : Act :=
  complete (a.on (fun s => countNotes (removeNote s e) (fun c => { c with unconfirmed := c.unconfirmed + 1 }))) e.order
    .unconfirmed 0 (noteNumberResult e)

end Sys2Proof.Machine
end

