-- ==== Sys2Proof/Machine/SettingsUnit.lean ====
section
/-! DEFINITION. The settings store (11): SET_SETTINGS judged and applied (R187, R188), SET_FILTER (R76), STORE_SETTINGS and
the end of a store (R189). -/

namespace Sys2Proof.Machine

/-! ## Shared by the orders -/

/-- What the settings origin field of the header shows (R190). -/
def originFlags (x : SettingsStore) : SettingsOrigin × Bool × Bool × Bool :=
  (x.origin, x.modified, x.storedValid, x.storing.isSome)

/-- An act of the settings store; the settings origin field is written when it changes (R190). -/
def storeAct (f : Act → Act) (a : Act) : Act :=
  let b := f a
  if originFlags b.s.store = originFlags a.s.store then b else b.post (.mirror .origin)

/-- The working settings take new values; where one differs the modified flag is set, and a store in progress remembers
it (R188, R189). -/
def setWorking (w : Settings) (x : SettingsStore) : SettingsStore :=
  if w = x.working then x
  else { x with working := w, modified := true, storing := x.storing.map (fun t => { t with changed := true }) }

/-! ## Judging an image (R187) -/

/-- The highest group of the field-select mask. -/
def groupCount : Nat := 28

/-- The value of a group lies in its range (R185). -/
def groupValid (b : List Byte) (g : Nat) : Bool :=
  if g = 0 then decide (imageFrame b ≤ 31)
  else if g = 1 then decide (imageAnchorRank b ≤ 15)
  else if g = 2 then decide (imageTimeRank b ≤ 15)
  else if g ≤ 6 then true
  else if g = 7 then decide (imageWake b ≤ 2)
  else if g = 8 then decide (1 ≤ imageThreshold b ∧ imageThreshold b ≤ 127)
  else if g = 9 then decide (1 ≤ imageWindow b ∧ imageWindow b ≤ 60)
  else if g = 10 then decide (1 ≤ imageHoldover b ∧ imageHoldover b ≤ 600)
  else if g = 11 then decide (1 ≤ imageHoldLimit b ∧ imageHoldLimit b ≤ 1000)
  else if h : g - 12 < 16 then
    let l := imageLane b ⟨g - 12, h⟩
    decide (1 ≤ l.lead ∧ 1 ≤ l.width ∧ l.width ≤ 1000)
  else false

/-- The lowest selected group whose value is out of range. -/
def firstBadGroup (mask : Nat) (b : List Byte) : Option Nat :=
  (List.range groupCount).find? (fun g => mask.testBit g && !groupValid b g)

/-- A 4-bit rank of an image. -/
def rankOf (n : Nat) : Fin 16 := ⟨n % 16, Nat.mod_lt _ (by decide)⟩

/-- The settings with every selected group replaced by the image's value (R188). -/
def applyImage (mask : Nat) (b : List Byte) (w : Settings) : Settings :=
  let sel := mask.testBit
  { w with
    frame := if sel 0 then frameOf (imageFrame b) else w.frame
    anchorRank := if sel 1 then rankOf (imageAnchorRank b) else w.anchorRank
    timeRank := if sel 2 then rankOf (imageTimeRank b) else w.timeRank
    enable := Vector.ofFn (fun p => if sel (3 + p.val) then imageEnable b p else w.enable.get p)
    wake := if sel 7 then (wakeOfCode (imageWake b)).getD w.wake else w.wake
    threshold := if sel 8 then imageThreshold b else w.threshold
    window := if sel 9 then imageWindow b else w.window
    holdover := if sel 10 then imageHoldover b else w.holdover
    holdLimit := if sel 11 then imageHoldLimit b else w.holdLimit
    lanes := Vector.ofFn (fun k => if sel (12 + k.val) then imageLane b k else w.lanes.get k) }

/-! ## What each unit takes from a change (R188) -/

/-- A new frame number at the reach, roster and timebase units (R57, R82, R101, entry 20). -/
def frameChanged (old : FrameNo) (a : Act) : Act :=
  let lost := reachableFrames a.s
  let a := a.on (fun s => clearAllFlood (lost.foldl markUnknown s))
  let a := timeRenumber old (rosterRenumber a)
  a.each lost reachLostEvent

/-- A changed port enable setting: a hold or a release; a FAULTED port only records it (R38). -/
def enableChanged (p : PortIx) (on : Bool) (a : Act) : Act := if on then releasePort p a else holdPort p a

/-- A DARK port at a new wake interval: a burst at once where its moment has passed (R22). -/
def wakeChanged (w : WakeInterval) (now : Nat) (p : Port) : Port :=
  if p.state = .dark ∧ p.lastBurst + wakeTime w ≤ now then { p with bursts := p.bursts + 1, lastBurst := now } else p

/-- An UP port at a new health threshold (R33). -/
def thresholdChanged (threshold : Nat) (p : Port) : Port :=
  if p.state = .up then { p with health := min p.health threshold } else p

/-- Every port's record changed. -/
def eachPort (f : Port → Port) (s : State) : State := allPorts.foldl (fun s p => s.modPort p f) s

/-- The units take what changed between the old settings and the working settings. The order of the groups is the model's
choice (entry 43), and so is the ascending order in which the ports whose enable settings changed are held or released,
which R188 has taken independently (R38, entry 75). -/
def takeChanges (old : Settings) (a : Act) : Act :=
  let w := a.s.store.working
  let a := if w.frame ≠ old.frame then frameChanged old.frame a else a
  let a := if w.anchorRank ≠ old.anchorRank then rosterRankChanged a else a
  let a := if w.timeRank ≠ old.timeRank then timeRetest a else a
  let a := a.each (allPorts.filter (fun p => w.enable.get p != old.enable.get p)) (fun a p =>
    enableChanged p (w.enable.get p) a)
  let a := if w.wake ≠ old.wake then a.on (fun s => eachPort (wakeChanged w.wake s.now) s) else a
  let a := if w.threshold ≠ old.threshold then a.on (eachPort (thresholdChanged w.threshold)) else a
  let a := if w.holdover ≠ old.holdover then holdoverChanged a else a
  if w.lanes ≠ old.lanes ∨ w.holdLimit ≠ old.holdLimit then trigSettingsChanged old a else a

/-! ## SET_SETTINGS (R187) -/

/-- The selected values are applied in one act. -/
def applySettings (mask : Nat) (b : List Byte) (a : Act) : Act :=
  let old := a.s.store.working
  takeChanges old (storeAct (fun a => a.on (·.modStore (fun x => setWorking (applyImage mask b x.working) x))) a)

/-- A frame number change is asked for while the standing holds the number. -/
def frameInUse (s : State) (mask : Nat) (b : List Byte) : Bool :=
  mask.testBit 0 && decide (imageFrame b ≠ s.own.val) && (s.roster.standing == .member || s.roster.standing == .leaving)

/-- An image that was read, judged by the remaining cases. -/
def judgeImage (a : Act) (o : Order) (mask : Nat) (b : List Byte) : Act :=
  match firstBadGroup mask b with
  | some g => complete a o.sequence .badOrder 2 (leBytes 1 g)
  | none => if frameInUse a.s mask b then complete a o.sequence .inUse else done (applySettings mask b a) o

/-- SET_SETTINGS, judged by the first case that applies. -/
def settingsOrder (a : Act) (o : Order) : Act :=
  let mask := settingsMask o
  if 2 ^ groupCount ≤ mask then badOrder a o 0
  else if mask = 0 then done a o
  else if settingsPointer o = 0 then badOrder a o 1
  else
    match memRead a.s.mem (settingsPointer o) settingsImageSize with
    | .error x => (complete a o.sequence .memoryFault).memFault .parameterRead x
    | .ok b => judgeImage a o mask b

/-! ## SET_FILTER (R76) -/

/-- Every enable and armed flag of a filter image is 0 or 1. -/
def filterFlagsOk (b : List Byte) : Bool :=
  decide (imageArmed b ≤ 1) && allPorts.all (fun k => decide (imagePatternEnable b k ≤ 1))

/-- SET_FILTER. -/
def filterOrder (a : Act) (o : Order) : Act :=
  if filterPointer o = 0 then badOrder a o 0
  else
    match memRead a.s.mem (filterPointer o) filterImageSize with
    | .error x => (complete a o.sequence .memoryFault).memFault .parameterRead x
    | .ok b =>
      if filterFlagsOk b = false then badOrder a o 0
      else
        done (storeAct (fun a => a.on (·.modStore (fun x => setWorking { x.working with filter := imageFilter b } x))) a) o

/-! ## STORE_SETTINGS (R189) -/

/-- A store begins: the snapshot is taken and stored valid is cleared. -/
def beginStore (seq : BitVec 32) (x : SettingsStore) : SettingsStore :=
  { x with storedValid := false, storing := some ⟨some seq, x.working, false⟩ }

/-- STORE_SETTINGS. -/
def storeOrder (a : Act) (o : Order) : Act :=
  if a.s.store.storing.isSome then complete a o.sequence .busy
  else storeAct (fun a => a.on (fun s => (holdOrder s o.sequence).modStore (beginStore o.sequence))) a

/-- A store ends, verified or not. -/
def endStore (t : Storing) (verified : Bool) (x : SettingsStore) : SettingsStore :=
  if verified then
    { x with
      stored := t.snapshot
      storedIntact := true
      storedValid := true
      origin := .stored
      modified := if t.changed then x.modified else false
      storing := none }
  else { x with storedIntact := false, storedValid := false, storing := none }

/-- The end of the store in progress; its order completes unless it was abandoned. -/
def storeEnd (verified : Bool) (a : Act) : Act :=
  match a.s.store.storing with
  | none => a
  | some t =>
    let a := storeAct (fun a => a.on (·.modStore (endStore t verified))) a
    match t.order with
    | none => a
    | some q => complete a q (if verified then .done else .storeFailed)

end Sys2Proof.Machine
end

