-- ==== Sys2Proof/Machine/ResetUnit.lean ====
section
/-! DEFINITION. The device reset (R186): the stored copy judged and loaded, and every unit at its reset values. -/

namespace Sys2Proof.Machine

/-- A lane's settings lie in the ranges of R185. -/
def laneInRange (l : LaneSettings) : Bool := decide (1 ≤ l.lead ∧ l.lead ≤ 65535 ∧ 1 ≤ l.width ∧ l.width ≤ 1000)

/-- Every value of a settings copy lies in its range (R185, R186). -/
def settingsInRange (w : Settings) : Bool :=
  decide (1 ≤ w.threshold ∧ w.threshold ≤ 127 ∧ 1 ≤ w.window ∧ w.window ≤ 60 ∧ 1 ≤ w.holdover ∧ w.holdover ≤ 600
    ∧ 1 ≤ w.holdLimit ∧ w.holdLimit ≤ 1000) && allLanes.all (fun k => laneInRange (w.lanes.get k))

/-- The stored copy is valid at a device reset: its check passes, its values lie in range, no store was cut off. -/
def storedCopyValid (x : SettingsStore) : Bool := x.storedIntact && x.storing.isNone && settingsInRange x.stored

/-- The settings store after a device reset (R184, R186). -/
def resetStore (x : SettingsStore) : SettingsStore :=
  let valid := storedCopyValid x
  { x with
    incarnation := x.incarnation + 1
    working := if valid then x.stored else .defaults
    storedIntact := valid
    origin := if valid then .stored else .defaults
    modified := false
    storedValid := valid
    storing := none }

/-- A port after a device reset: DARK with its entry burst where its enable setting is on, HELD where it is off (R20,
R22). The signal at its receiver stays as it is, without lock (entry 26). -/
def resetPort (enable signal : Bool) : Port :=
  if enable then { Port.reset with signal := signal, noiseSince := if signal then some 0 else none }
  else { Port.reset with state := .held, signal := signal, bursts := 0 }

/-- The roster unit after a device reset (R60). -/
def resetRoster (own : FrameNo) : Roster :=
  if own = 0 then .reset else { Roster.reset with standing := .alone, silenceSince := some 0 }

/-- The trigger unit after a device reset; the input lines stay as they are (R103, entry 26). -/
def resetTrigger (u : TriggerUnit) : TriggerUnit :=
  { TriggerUnit.reset with
    lanes := Vector.ofFn (fun k => { (TriggerUnit.reset.lanes.get k) with inputHigh := (u.lanes.get k).inputHigh }) }

/-- Every unit at its reset values over the settings just loaded (R186). -/
def resetUnits (s : State) : State :=
  let store := resetStore s.store
  { State.reset with
    choices := s.choices
    store := store
    ports := Vector.ofFn (fun p => resetPort (store.working.enable.get p) (s.port p).signal)
    roster := resetRoster store.working.frame
    trig := resetTrigger s.trig
    mem := s.mem
    pending := s.pending }

/-- The device reset; a part whose settings make it a master chooses at once (R89). -/
def deviceReset (s : State) : Act := timeRetest ⟨resetUnits s, []⟩

end Sys2Proof.Machine
end

