-- ==== Sys2Proof/Machine/StreamCells.lean ====
section
/-! DEFINITION. Received stream cells: the match (R118) and the rule of each kind (R123, R124, R130, R132, R140, R152,
R155). -/

namespace Sys2Proof.Machine

/-- The fields of the 8-byte part that begins every stream cell. -/
structure StreamHead where
  tag : BitVec 16
  openNumber : BitVec 16
  direction : Nat
  deriving DecidableEq, Repr

/-- The head of a stream cell of a payload length. -/
def parseHead (length : Nat) (b : List Byte) : Option StreamHead :=
  if b.length = length ∧ beAt b 4 1 ≤ 1 then
    some ⟨BitVec.ofNat 16 (beAt b 0 2), BitVec.ofNat 16 (beAt b 2 2), beAt b 4 1⟩
  else none

/-- The head of a stream cell of a length and a direction. -/
def parseToward (length direction : Nat) (b : List Byte) : Option StreamHead :=
  (parseHead length b).filter (fun h => h.direction == direction)

/-- A cell from a frame matches a source slot (R118). -/
def matchesSource (x : Slot) (origin : FrameNo) (tag openNumber : BitVec 16) : Bool :=
  x.role == .source && x.state != .closed && x.tag == tag && x.openNumber == openNumber && x.peer == origin

/-- A cell from a frame matches a sink slot (R118). -/
def matchesSink (x : Slot) (origin : FrameNo) (incarnation tag openNumber : BitVec 16) : Bool :=
  x.role == .sink && x.state != .closed && x.state != .offered && x.peer == origin && x.tag == tag
    && x.openNumber == openNumber && x.peerIncarnation == some incarnation

/-- The slot a stream cell matches (R118). -/
def matchSlot (s : State) (rx : Rx) (h : StreamHead) : Option SlotIx :=
  allSlots.find? (fun n =>
    if h.direction = towardSource then matchesSource (s.slot n) rx.origin h.tag h.openNumber
    else matchesSink (s.slot n) rx.origin rx.incarnation h.tag h.openNumber)

/-- An unmatched cell is counted; one that is answered gets a CLOSE of reason UNMATCHED the other way (R118). -/
def unmatched (s : State) (rx : Rx) (h : StreamHead) (answered : Bool) : State :=
  let s := { s with stream := { s.stream with unmatched := s.stream.unmatched + 1 } }
  if answered then
    sendRouted s rx.origin (ownCell s .close rx.origin.val (closePayload h.tag h.openNumber (1 - h.direction) .unmatched))
  else s

/-- A stream cell is taken by its rule when it matches a slot, and handled as unmatched otherwise. -/
def takeMatched (a : Act) (rx : Rx) (h : StreamHead) (answered : Bool) (f : Act → SlotIx → Act) : Act :=
  match matchSlot a.s rx h with
  | some n => f a n
  | none => a.on (unmatched · rx h answered)

/-! ## OPEN (R123) -/

/-- A block size in the range of R117. -/
def blockSizeOk (v : Nat) : Bool := decide (256 ≤ v ∧ v ≤ 65536) && v % 256 == 0

/-- A pace period in the range of R117. -/
def paceOk (v : Nat) : Bool := v == 0 || decide (10000 ≤ v ∧ v ≤ 1000000000)

/-- The answer to an OPEN, with the credit limit it carries. -/
def answerOpen (s : State) (rx : Rx) (h : StreamHead) (answer : OpenAnswer) (limit : BitVec 32) : State :=
  sendRouted s rx.origin (ownCell s .openAnswer rx.origin.val (openAnswerPayload h.tag h.openNumber answer limit))

/-- An answer that concerns a slot is counted UNSENT there when it cannot be routed (R119). -/
def answerFrom (s : State) (n : SlotIx) (rx : Rx) (h : StreamHead) (answer : OpenAnswer) (limit : BitVec 32) : State :=
  if (s.route rx.origin).isSome then answerOpen s rx h answer limit
  else s.modSlot n (fun x => { x with counters := { x.counters with unsent := x.counters.unsent + 1 } })

/-- The offered slot takes the OPEN (R123). -/
def acceptOpen (now : Nat) (rx : Rx) (h : StreamHead) (pace : Nat) (x : Slot) : Slot :=
  { x with
    openNumber := h.openNumber
    openAbsent := false
    peerIncarnation := some rx.incarnation
    pace := pace
    lastCredit := now
    expBlock := 0
    expCell := 0
    asmLength := 0 }

/-- An OPEN for an OFFERED slot (R123). -/
def openOffered (a : Act) (n : SlotIx) (rx : Rx) (h : StreamHead) (blockSize pace : Nat) : Act :=
  let x := a.s.slot n
  if mayRun a.s n = false then a.on (answerFrom · n rx h .noOffer 0)
  else if blockSize ≠ x.blockSize then a.on (answerFrom · n rx h .mismatch 0)
  else
    let a := setSlotState (a.on (fun s => s.modSlot n (acceptOpen s.now rx h pace))) n .flowing .accepted
    a.on (answerFrom · n rx h .accept x.creditLimit)

/-- A sink part answers an OPEN by the first case of R123 that applies. -/
def takeOpen (rx : Rx) (a : Act) : Act :=
  match parseToward 16 towardSink rx.payload with
  | none => a
  | some h =>
    let blockSize := beAt rx.payload 8 4
    let pace := beAt rx.payload 12 4
    if blockSizeOk blockSize = false ∨ paceOk pace = false then a
    else
      match allSlots.find? (fun n =>
        let x := a.s.slot n
        x.role == .sink && x.state != .closed && x.peer == rx.origin && x.tag == h.tag) with
      | none => a.on (answerOpen · rx h .noOffer 0)
      | some n =>
        let x := a.s.slot n
        if x.state = .offered then openOffered a n rx h blockSize pace
        else if x.openNumber = h.openNumber ∧ x.peerIncarnation = some rx.incarnation then
          a.on (answerFrom · n rx h .accept x.creditLimit)
        else a.on (answerFrom · n rx h .full 0)

/-! ## OPEN_ANSWER and CREDIT (R124, R130) -/

/-- An OPENING source is accepted with a credit limit: it takes its settled state, and its open order completes DONE
with the limit in its results (R124). -/
def acceptSource (a : Act) (n : SlotIx) (limit : BitVec 32) : Act :=
  let order := (a.s.slot n).openOrder
  let a := takeSettled (a.on (·.modSlot n (fun x => { x with creditLimit := limit, openOrder := none }))) n .accepted
  match order with
  | some q => complete a q .done 0 (leBytes 4 limit.toNat)
  | none => a

/-- A matched OPEN_ANSWER: one at a source that has left OPENING is discarded (R124). -/
def sourceAnswer (a : Act) (n : SlotIx) (answer : OpenAnswer) (limit : BitVec 32) : Act :=
  if (a.s.slot n).state ≠ .opening then a
  else
    match answer with
    | .accept => acceptSource a n limit
    | .noOffer => a
    | .mismatch => closeSlot a n .mismatch true .mismatch
    | .full => closeSlot a n .full true .full

def takeOpenAnswer (rx : Rx) (a : Act) : Act :=
  match parseToward 16 towardSource rx.payload, openAnswerOfCode (beAt rx.payload 8 1) with
  | some h, some answer =>
    takeMatched a rx h false (fun a n => sourceAnswer a n answer (BitVec.ofNat 32 (beAt rx.payload 12 4)))
  | _, _ => a

/-- The peer halt flag takes a value; the slot then takes its settled state unless it is OPENING, STRANDED or DRAINING
(R132). -/
def setPeerHalt (a : Act) (n : SlotIx) (on : Bool) : Act :=
  if (a.s.slot n).peerHalt = on then a
  else settle (a.on (·.modSlot n (fun x => { x with peerHalt := on }))) n (if on then .peerHalt else .resumed)

/-- A matched CREDIT: in OPENING an ACCEPT with its limit; else its limit is taken if newer; its flag is the sink's self
halt (R124, R130). -/
def sourceCredit (a : Act) (n : SlotIx) (limit : BitVec 32) (halted : Bool) : Act :=
  if (a.s.slot n).state = .opening then
    acceptSource (a.on (·.modSlot n (fun x => { x with peerHalt := halted }))) n limit
  else
    setPeerHalt (a.on (·.modSlot n (fun x =>
      { x with creditLimit := if newer limit x.creditLimit then limit else x.creditLimit }))) n halted

def takeCredit (rx : Rx) (a : Act) : Act :=
  match parseToward 16 towardSource rx.payload with
  | none => a
  | some h =>
    let flag := beAt rx.payload 12 1
    if 1 < flag then a
    else takeMatched a rx h true (fun a n => sourceCredit a n (BitVec.ofNat 32 (beAt rx.payload 8 4)) (flag == 1))

/-! ## HALT and CLOSE (R132, R140) -/

def takeHalt (rx : Rx) (a : Act) : Act :=
  match parseHead 12 rx.payload with
  | none => a
  | some h =>
    let value := beAt rx.payload 8 1
    if 1 < value then a else takeMatched a rx h true (fun a n => setPeerHalt a n (value == 1))

/-- The cause a CLOSE's reason gives at its receiver (R140). -/
def closeCause : CloseReason → StreamCause
  | .abort | .unmatched => .peerClosed
  | .exchangeReset => .exchangeReset
  | .exchangeBroken => .exchangeBroken

def takeClose (rx : Rx) (a : Act) : Act :=
  match parseHead 12 rx.payload, closeReasonOfCode (beAt rx.payload 8 1) with
  | some h, some reason => takeMatched a rx h false (fun a n => closeSlot a n (closeCause reason) false)
  | _, _ => a

/-! ## BLOCKACK and DATA (R155, R152) -/

/-- A matched BLOCKACK resolves the block it names if its record awaits it, else it is counted ACK IGNORED (R155). -/
def sourceAck (a : Act) (n : SlotIx) (b : BitVec 32) (o : BlockOutcome) : Act :=
  match (findRec (a.s.slot n) b).filter awaitsAck with
  | some r => resolveBlock a n r b o
  | none => countSlot a n (fun c => { c with ackIgnored := c.ackIgnored + 1 })

def takeBlockack (rx : Rx) (a : Act) : Act :=
  match parseToward 12 towardSource rx.payload, ackResultOfCode (beAt rx.payload 8 1) with
  | some h, some o => takeMatched a rx h true (fun a n => sourceAck a n rx.word o)
  | _, _ => a

def takeData (rx : Rx) (a : Act) : Act :=
  match parseData rx.payload with
  | none => a
  | some d =>
    takeMatched a rx ⟨d.tag, d.openNumber, towardSink⟩ (d.index == 0) (fun a n => sinkData a n rx.word d rx.stamp)

end Sys2Proof.Machine
end

