-- ==== Sys2Proof/Machine/Receive.lean ====
section
/-! DEFINITION. The receive stage and the sorting of cells (01): erroneous cells (R5, R7), good cells to their owners, to
the flood rules (R10 to R12) or to relay (R13), and what a port unit does with a PROBE or an ECHO (R27, R28). -/

namespace Sys2Proof.Machine

/-! ## Erroneous cells (R5, R7) -/

/-- The receive stage of a port builds cells: the port is TRAINING or UP and the stage is ready (R4, R7). -/
def builds (p : Port) : Bool := (p.state == .training || p.state == .up) && p.rxStage == .ready

/-- One receive error counted (R5). -/
def countError (e : RxError) (c : PortCounters) : PortCounters :=
  match e with
  | .delimit => { c with delimit := c.delimit + 1 }
  | .length => { c with length := c.length + 1 }
  | .check => { c with check := c.check + 1 }
  | .kind => { c with kind := c.kind + 1 }

/-- The port unit takes the report of an erroneous cell (R32 to R34). -/
def takeErrorReport (p : PortIx) (null : Bool) (a : Act) : Act :=
  let threshold := a.s.store.working.threshold
  match errorReport threshold null (a.s.port p) with
  | .pulled => changePort p .dark .pulled (a.on (·.modPort p (fun r => { r with settling := r.settling - 1 })))
  | .faulted => changePort p .faulted .health (a.on (·.modPort p (fun r => { r with health := threshold })))
  | .record r => a.on (·.modPort p (fun _ => r))

/-- An erroneous cell: discarded, counted, the stage set to ignore the line, the error reported. -/
def erroneous (p : PortIx) (e : RxError) (null : Bool) (a : Act) : Act :=
  takeErrorReport p null (a.on (fun s =>
    (s.modCounters p (countError e)).modPort p (fun r => { r with rxStage := .ignoring 0 })))

/-! ## PROBE and ECHO at the port unit (R27, R28) -/

/-- The neighbour record takes a PROBE's identity while TRAINING. -/
def learnNeighbour (f : ProbeFields) (rx : Rx) (p : Port) : Port :=
  { p with partnerSerial := f.serial, partnerFrame := rx.origin, partnerPort := f.port,
           partnerIncarnation := rx.incarnation }

/-- The neighbour record of an UP port after a PROBE of the recorded identity. -/
def refreshNeighbour (now : Nat) (f : ProbeFields) (rx : Rx) (p : Port) : Port :=
  let p := { p with partnerPort := f.port }
  if p.partnerFrame = rx.origin then p else setPartnerFrame now rx.origin p

/-- The ECHO that answers a PROBE, offered to the port's T queue (R26). -/
def sendEcho (s : State) (f : ProbeFields) (rx : Rx) : State :=
  offer s rx.port ⟨ownCell s .echo 0 (echoPayload f.number 0), some (rxCorrected rx)⟩

/-- A good PROBE at a TRAINING or UP port (R27). -/
def takeProbe (rx : Rx) (a : Act) : Act :=
  let p := rx.port
  match parseProbe rx.payload with
  | none => a
  | some f =>
    let r := a.s.port p
    if f.serial = a.s.serial then changePort p .faulted .loopback a
    else if r.state = .training then
      tryTrained p (a.on (fun s => sendEcho (s.modPort p (learnNeighbour f rx)) f rx))
    else if f.serial ≠ r.partnerSerial ∨ rx.incarnation ≠ r.partnerIncarnation then changePort p .training .changed a
    else a.on (fun s => sendEcho (s.modPort p (refreshNeighbour s.now f rx)) f rx)

/-- A good ECHO at a TRAINING or UP port (R28). -/
def takeEcho (rx : Rx) (a : Act) : Act :=
  match parseEcho rx.payload with
  | none => a
  | some e => tryTrained rx.port (a.on (·.modPort rx.port (fun r => completeTrip r (rxCorrected rx) e)))

/-! ## Sorting (R8) -/

/-- A flooded cell: the partner beacon report, the own-origin test, the newness test, the owner and the copies, or a
route offer (R10 to R12). That the copies are offered before the owner takes the cell is the model's choice (entry 46):
R11 lets the two go on independently. -/
def takeFlood (k : Kind) (rx : Rx) (owner : Act → Act) (a : Act) : Act :=
  let a :=
    if k = .beacon ∧ rx.hops = 0 then a.on (fun s => s.modPort rx.port (partnerBeacon s.now rx.origin)) else a
  if rx.origin = a.s.own then a.on (·.modCounters rx.port (fun c => { c with own := c.own + 1 }))
  else if isNew (floodRecord (a.s.flood.get rx.origin) k) rx.incarnation rx.floodSeq then
    owner (a.on (fun s => floodCopies (recordFlood s k rx) k rx))
  else if k = .beacon then takeOffer rx a
  else a

/-- A good cell on an UP port, sorted by its destination. -/
def sortCell (k : Kind) (rx : Rx) (owner : Act → Act) (a : Act) : Act :=
  if rx.dest = 0 then owner a
  else if rx.dest.toNat = floodDest then takeFlood k rx owner a
  else if rx.dest.toNat = a.s.own.val then owner a
  else a.on (relayCell · k rx)

/-- The kind is taken by the port unit while TRAINING. -/
def isPortKind (k : Kind) : Bool := k == .probe || k == .echo

/-- A cell collected whole: erroneous by R5, or good and sorted (R4, R8). That a good cell is reported to the port unit
before it is handed on is the model's choice (entry 62). -/
def receive (k : Kind) (rx : Rx) (owner : Act → Act) (a : Act) : Act :=
  if builds (a.s.port rx.port) = false then a
  else
    match rxError k rx with
    | some e => erroneous rx.port e false a
    | none =>
      let a := a.on (·.modPort rx.port goodReport)
      if (a.s.port rx.port).state = .training ∧ isPortKind k = false then
        a.on (·.modCounters rx.port (fun c => { c with trainingDiscard := c.trainingDiscard + 1 }))
      else sortCell k rx owner a

end Sys2Proof.Machine
end

