-- ==== Sys2Proof/Machine/Lanes.lean ====
section
/-! DEFINITION. What the exchange unit writes by itself into the Exchange Area: notice lanes with their merge (R176, R177)
and faults (R181), header mirrors and Stream Status entries (R180), and BROKEN (R182). -/

namespace Sys2Proof.Machine

/-! ## Notices as lane records (12, Notice lanes) -/

/-- The lane a notice is posted to. -/
def noticeLane : Notice → NoticeIx
  | .orders .. => 0
  | .port k .. => ⟨k.val + 1, by omega⟩
  | .roster .. => 5
  | .time .. => 6
  | .triggers .. => 7
  | .streams .. => 8
  | .notes .. => 9
  | .admission .. => 10
  | .errors .. => 11

/-- The ERRORS lane. -/
def errorsLane : NoticeIx := 11

/-- The lane fields of a notice, from 0x08 of its record. -/
def noticeFields : Notice → List Byte
  | .orders count sequence failed => leBytes 4 count.toNat ++ leBytes 4 sequence.toNat ++ leBytes 1 (flagCode failed)
  | .port _ state cause transitions =>
    leBytes 1 (portStateCode state) ++ leBytes 1 (portCauseCode cause) ++ zeros 2 ++ leBytes 4 transitions.toNat
  | .roster generation anchor standing changed =>
    leBytes 4 generation.toNat ++ leBytes 1 anchor.val ++ leBytes 1 (standingCode standing) ++ zeros 2
      ++ leBytes 4 changed.toNat
  | .time state master steps size =>
    leBytes 1 (timeStateCode state) ++ leBytes 1 master.val ++ zeros 2 ++ leBytes 4 steps.toNat
      ++ leBytes 8 (signed64 size)
  | .triggers fired muted quality late dropped localOnly merged =>
    leBytes 2 fired.toNat ++ leBytes 2 muted.toNat ++ leBytes 1 quality.toNat ++ zeros 3 ++ leBytes 4 late.toNat
      ++ leBytes 4 dropped.toNat ++ leBytes 4 localOnly.toNat ++ leBytes 4 merged.toNat
  | .streams slots => leBytes 8 slots.toNat
  | .notes slots => leBytes 1 slots.toNat
  | .admission quarantined expired => leBytes 4 quarantined.toNat ++ leBytes 4 expired.toNat
  | .errors first latest what address count =>
    leBytes 1 (errorKindCode first) ++ leBytes 1 (errorKindCode latest) ++ leBytes 1 (whatCode what) ++ zeros 1
      ++ leBytes 4 count.toNat ++ leBytes 8 address.toNat

/-! ## Merging (R177) -/

/-- A sum held at the maximum of its field. -/
def satAdd (a b : Count) : Count := if 2 ^ 32 ≤ a.toNat + b.toNat then BitVec.allOnes 32 else a + b

/-- A notice merged into a pending notice of the same lane, field by field. -/
def mergeNotice : Notice → Notice → Notice
  | .orders c s f, .orders c' s' f' => .orders (satAdd c c') (if newer s' s then s' else s) (f || f')
  | .port _ _ _ t, .port k st cause t' => .port k st cause (satAdd t t')
  | .roster _ _ _ c, .roster g m st c' => .roster g m st (c ||| c')
  | .time _ _ n z, .time st m n' z' => .time st m (satAdd n n') (if n' = 0 then z else z')
  | .triggers f m q l d o g, .triggers f' m' q' l' d' o' g' =>
    .triggers (f ||| f') (m ||| m') (if f' = 0 then q else q') (satAdd l l') (satAdd d d') (satAdd o o') (satAdd g g')
  | .streams b, .streams b' => .streams (b ||| b')
  | .notes b, .notes b' => .notes (b ||| b')
  | .admission q e, .admission q' e' => .admission (q ||| q') (e ||| e')
  | .errors f _ _ _ c, .errors _ l w ad c' => .errors f l w ad (satAdd c c')
  | _, n => n

/-- The largest merge count. -/
def maxMerges : Nat := 255

/-- What is pending after a notice is taken behind what is pending already. -/
def joinPending (p : Option PendingNotice) (n : Notice) : PendingNotice :=
  match p with
  | none => ⟨n, 0⟩
  | some p => ⟨mergeNotice p.notice n, min (p.merges + 1) maxMerges⟩

/-! ## Writing a lane (R176) -/

/-- The address of a notice lane. -/
def laneAddress (s : State) (k : NoticeIx) : Nat := areaBase s + 0x400 + 0x40 * k.val

/-- The runs that write a lane record: merge count, reserved bytes and fields, then the flag FULL. -/
def laneRuns (s : State) (k : NoticeIx) (p : PendingNotice) : List (Nat × List Byte) :=
  [(laneAddress s k + 1, leBytes 1 p.merges ++ zeros 6 ++ padTo 56 (noticeFields p.notice)),
   (laneAddress s k, leBytes 1 1)]

/-- A lane's belief changed. -/
def setLane (s : State) (k : NoticeIx) (b : LaneBelief) : State :=
  s.modEx (fun e => { e with lanes := upd e.lanes k (fun _ => b) })

/-- A record is written to a lane held EMPTY: it is held FULL with nothing pending, or, on a fault, held EMPTY with the
notice kept pending (R181); with the faulting address. That the ERRORS lane is held so in the BROKEN that its own fault
leads to is the model's choice (entry 51). -/
def writeLane (s : State) (k : NoticeIx) (p : PendingNotice) : State × Option Nat :=
  match writeRuns s (laneRuns s k p) with
  | (s, none) => (setLane s k ⟨true, none⟩, none)
  | (s, some x) => (setLane s k ⟨false, some p⟩, some x)

/-- A notice taken by the belief of its lane. -/
def laneTake (s : State) (k : NoticeIx) (n : Notice) : State × Option Nat :=
  let b := s.ex.lanes.get k
  let p := joinPending b.pending n
  if b.full then (setLane s k ⟨true, some p⟩, none) else writeLane s k p

/-! ## BROKEN (R182) -/

/-- Every slot that is not CLOSED closes for the exchange (R142, R182, R183), in ascending slot number: the model's choice
(entry 66). -/
def closeAllForExchange (reason : CloseReason) (cause : StreamCause) (s : State) : State :=
  allSlots.foldl (closeForExchange reason cause) s

/-- Every order is abandoned unwritten and its owner told: the note window and the waiting notes are emptied, a LEAVE
and a store in progress keep their effects without their orders (R166, R182, R183). -/
def abandonOrders (s : State) : State :=
  { s with
    ex := { s.ex with window := [], stalls := [] }
    notes := { s.notes with window := [], waiting := [] }
    roster := { s.roster with leave := none }
    store := { s.store with storing := s.store.storing.map (fun t => { t with order := none }) } }

/-- The exchange enters BROKEN. -/
def enterBroken (s : State) : State :=
  (closeAllForExchange .exchangeBroken .exchangeBroken (abandonOrders s)).modEx (fun e => { e with state := .broken })

/-! ## Taking notices (R176, R181) -/

/-- An ERRORS notice at the exchange unit: counted while ATTACHED or STALLED (R193); a fault writing its lane is the way
to BROKEN. -/
def takeErrors (s : State) (n : Notice) : State :=
  if s.memOpen = false then s
  else
    match laneTake (s.modEx (fun e => { e with errorsPosted := e.errorsPosted + 1 })) errorsLane n with
    | (s, none) => s
    | (s, some _) => enterBroken s

/-- A MEMORY_FAULT notice of one access of the exchange unit, with the low 64 bits of its address: the
model's choice for an address of 2^64 or more (entry 74). -/
def faultNotice (w : What) (address : Nat) : Notice := .errors .memoryFault .memoryFault w (BitVec.ofNat 64 address) 1

/-- A lane write's fault is reported on the ERRORS lane; that lane's own takes the exchange to BROKEN. -/
def laneFault (k : NoticeIx) (r : State × Option Nat) : State :=
  match r with
  | (s, none) => s
  | (s, some x) => if k = errorsLane then enterBroken s else takeErrors s (faultNotice .laneWrite x)

/-- A notice at the exchange unit: discarded in DETACHED and BROKEN. -/
def takeNotice (s : State) (n : Notice) : State :=
  let k := noticeLane n
  if k = errorsLane then takeErrors s n
  else if s.memOpen = false then s
  else laneFault k (laneTake s k n)

/-! ## Mirrors (R180) -/

/-- The 14 counters of a port as its mirror entry gives them. -/
def portCounterBytes (c : PortCounters) : List Byte :=
  ([c.delimit, c.length, c.check, c.kind, c.trainingDiscard, c.own, c.noroute, c.reflect, c.hops, c.tDrops, c.cDrops,
    c.dDrops, c.flush, c.reroute].map (fun x => leBytes 4 x.toNat)).flatten

/-- Port entry k (12): 80 bytes. -/
def portEntryBytes (s : State) (p : PortIx) : List Byte :=
  let r := s.port p
  padTo 80 (leBytes 1 (portStateCode r.state) ++ leBytes 1 (portCauseCode r.cause) ++ leBytes 1 r.health
    ++ leBytes 1 r.partnerFrame.val ++ leBytes 4 (filteredDelay r) ++ leBytes 8 r.partnerSerial.toNat
    ++ portCounterBytes (s.link p).counters)

/-- The roster summary: 8 bytes. -/
def rosterSummaryBytes (s : State) : List Byte :=
  leBytes 1 (standingCode s.roster.standing) ++ leBytes 1 s.roster.anchor.val ++ leBytes 1 (flagCode (isAnchor s))
    ++ leBytes 1 s.roster.issuer.val ++ leBytes 4 s.roster.generation.toNat

/-- A port value, 0xFF where there is none. -/
def portValue : Option PortIx → Nat
  | some p => p.val
  | none => 0xFF

/-- The timebase summary: 16 bytes. -/
def timebaseSummaryBytes (s : State) : List Byte :=
  leBytes 1 (timeStateCode s.tb.state) ++ leBytes 1 s.tb.master.val ++ leBytes 1 (portValue (upstreamPort s))
    ++ leBytes 1 (s.tb.distance.getD 0xFF) ++ leBytes 1 (flagCode s.tb.lastOffset.isSome) ++ zeros 3
    ++ leBytes 8 (signed64 (s.tb.lastOffset.getD 0))

/-- The settings origin field: 4 bytes. -/
def originBytes (x : SettingsStore) : List Byte :=
  leBytes 4 (flagCode (x.origin == .defaults) + 2 * flagCode x.modified + 4 * flagCode x.storedValid
    + 8 * flagCode x.storing.isSome)

def counterBytes (cs : List Count) : List Byte := (cs.map (fun x => leBytes 4 x.toNat)).flatten

def reachCounterBytes (c : ReachCounters) : List Byte :=
  counterBytes [c.learned, c.improved, c.late, c.stale, c.far, c.malformed, c.conflict, c.lost]

def rosterCounterBytes (c : RosterCounters) : List Byte :=
  counterBytes [c.helloForwarded, c.helloDropped, c.verdictForwarded, c.verdictDropped, c.leaveDropped, c.rollIgnored]

def timeCounterBytes (c : TimeCounters) : List Byte :=
  counterBytes [c.accepted, c.ignored, c.far, c.nodelay, c.held, c.excursion, c.steps, c.losses, c.gaps]

def triggerCounterBytes (c : TriggerCounters) : List Byte :=
  counterBytes [c.fired, c.late, c.dropped, c.merged, c.localOnly, c.outputOff, c.trigIgnored, c.trigMalformed,
    c.mutedEdge, c.cancelled]

def noteCounterBytes (c : NoteCounters) : List Byte :=
  counterBytes [c.sent, c.accepted, c.busy, c.notAttached, c.refused, c.malformed, c.unconfirmed, c.ignored]

/-- The counter block (R193): 45 counters. -/
def counterBlock (s : State) : List Byte :=
  reachCounterBytes s.reach.counters ++ rosterCounterBytes s.roster.counters ++ timeCounterBytes s.tb.counters
    ++ triggerCounterBytes s.trig.counters ++ noteCounterBytes s.notes.counters
    ++ counterBytes [s.ex.ordersDone, s.ex.ordersFailed, s.ex.errorsPosted, s.stream.unmatched]

/-- The offset of a mirror in the header. -/
def mirrorOffset : Mirror → Nat
  | .port p => 0x40 + 0x50 * p.val
  | .roster => 0x20
  | .timebase => 0x28
  | .origin => 0x18
  | .counters => 0x180

/-- The bytes of a mirror as the part's state gives them. -/
def mirrorBytes (s : State) : Mirror → List Byte
  | .port p => portEntryBytes s p
  | .roster => rosterSummaryBytes s
  | .timebase => timebaseSummaryBytes s
  | .origin => originBytes s.store
  | .counters => counterBlock s

/-- A Stream Status entry (12): 32 bytes. -/
def statusBytes (x : Slot) : List Byte :=
  padTo 32 (leBytes 1 (roleCode x.role) ++ leBytes 1 (streamStateCode x.state) ++ leBytes 1 (streamCauseCode x.cause)
    ++ leBytes 1 (flagCode x.selfHalt + 2 * flagCode x.peerHalt) ++ leBytes 2 x.tag.toNat ++ leBytes 1 x.peer.val
    ++ zeros 1 ++ leBytes 2 (if x.openAbsent then 0 else x.openNumber.toNat) ++ leBytes 1 x.unresolved ++ zeros 1
    ++ leBytes 4 x.creditLimit.toNat ++ leBytes 4 x.released.toNat ++ leBytes 4 x.releaseMark.toNat
    ++ leBytes 4 x.doneCount.toNat)

/-- An area write that a fault leaves undone: it is reported and not retried. -/
def writeArea (s : State) (w : What) (address : Nat) (bs : List Byte) : State :=
  if s.memOpen = false then s
  else
    match writeHost s address bs with
    | .ok s => s
    | .error x => takeErrors s (faultNotice w x)

/-- A mirror is written. -/
def writeMirror (s : State) (m : Mirror) : State :=
  writeArea s .mirrorWrite (areaBase s + mirrorOffset m) (mirrorBytes s m)

/-- The address of a Stream Status entry. -/
def statusAddress (s : State) (n : SlotIx) : Nat := areaBase s + 0x1000 + 0x20 * n.val

/-- A Stream Status entry is written. -/
def writeStatus (s : State) (n : SlotIx) : State := writeArea s .statusWrite (statusAddress s n) (statusBytes (s.slot n))

/-! ## The end of an act (entry 35) -/

/-- One posted item at the exchange unit. -/
def deliver (s : State) : Post → State
  | .mirror m => writeMirror s m
  | .status n => writeStatus s n
  | .notice n => takeNotice s n

/-- An act is over: a LEAVE order whose conditions now hold completes (R80), and what was posted is delivered in
order. -/
def finish (a : Act) : State :=
  let b := leaveCheck a
  b.posts.foldl deliver b.s

/-- One command as one act of the part: nothing while the reset input is asserted (R186). -/
def run (f : Act → Act) (s : State) : Host.Outcome State Fault Refusal :=
  if s.inReset then .next s else .next (finish (f ⟨s, []⟩))

/-- A command that changes the state and posts nothing. -/
def runState (f : State → State) (s : State) : Host.Outcome State Fault Refusal := run (fun a => a.on f) s

end Sys2Proof.Machine
end

