-- ==== Sys2Proof/Machine/ExchangeUnit.lean ====
section
/-! DEFINITION. The exchange unit's own events (10): attach (R169), exchange reset (R183), the walk along the order chain
(R171), the retry of stall accesses (R170) and the rescan (R178). -/

namespace Sys2Proof.Machine

/-! ## Attach (R169) -/

/-- Area addresses are multiples of this. -/
def areaAlignment : Nat := 4096

/-- Every mirror of the header and every Stream Status entry, in the order an attach writes them. -/
def attachPosts : List Post :=
  allPorts.map (fun p => .mirror (.port p)) ++ [.mirror .roster, .mirror .timebase, .mirror .origin, .mirror .counters]
    ++ allSlots.map .status

/-- The exchange becomes ATTACHED with the chain head field as read; the settings store reports defaults (R190). -/
def attached (a : Act) (head : BitVec 64) : Act :=
  let a := a.on (·.modEx (fun e => { e with
    state := .attached, stallCause := none, stalls := [], chain := .headField head, notPosted := false }))
  let a := { a with posts := a.posts ++ attachPosts }
  if a.s.store.origin = .defaults then a.error .settingsLost .none 0 else a

/-- A stall with the ERRORS notice of its failure. -/
def stall (a : Act) (x : StallAccess) (c : StallCause) (k : ErrorKind) (w : What) (address : Nat) : Act :=
  (a.on (addStall · x c)).error k w address

/-- The header's format and chain head are read as one, and judged. -/
def readHeader (a : Act) : Act :=
  let base := areaBase a.s
  match memRead a.s.mem base 16 with
  | .error x => stall a .header .memoryFault .memoryFault .headerRead x
  | .ok b =>
    if leAt b 0 4 = 1 then attached a (BitVec.ofNat 64 (leAt b 8 8))
    else stall a .header .badHeader .badHeader .none base

/-- The address a BASE_LO write names. -/
def attachAddress (e : Exchange) (lo : BitVec 32) : BitVec 64 := e.baseHi ++ lo

/-- The exchange is DETACHED with no area; its chain position stays (none after a device reset, the chain head field
after an exchange reset). -/
def detach (fault : Bool) (s : State) : State :=
  s.modEx (fun e => { e with state := .detached, area := none, attachFault := fault })

/-- The attach of a BASE_LO write. -/
def attach (lo : BitVec 32) (a : Act) : Act :=
  let address := attachAddress a.s.ex lo
  if address = 0 then a.on (detach false)
  else if address.toNat % areaAlignment ≠ 0 then a.on (detach true)
  else readHeader (a.on (fun s => (detach false s).modEx (fun e => { e with area := some address })))

/-! ## Exchange reset (R183) -/

/-- The exchange unit's and note path's share of an exchange reset. -/
def clearExchange (s : State) : State :=
  { s with
    ex := { s.ex with
      mask := 0, stallCause := none, stalls := [], chain := .head, notPosted := false, lastSequence := none,
      window := [], mark := none, lanes := Exchange.reset.lanes }
    notes := { s.notes with inbox := NotePath.reset.inbox } }

/-- An exchange reset. -/
def exchangeReset (s : State) : State :=
  closeAllForExchange .exchangeReset .exchangeReset (clearExchange (abandonOrders s))

/-- A write of BASE_LO: an exchange reset unless DETACHED, then the attach (R169). -/
def writeBaseLo (lo : BitVec 32) (a : Act) : Act :=
  let a := if a.s.ex.state = .detached then a else a.on exchangeReset
  attach lo (a.on (·.modEx (fun e => { e with baseLo := lo, attachFault := false })))

/-! ## The order chain (R171) -/

/-- An Order Record is 64 bytes. -/
def orderRecordSize : Nat := 64

/-- The next record to read, where the chain position names one. -/
def nextOrderAddress (e : Exchange) : Option (BitVec 64) :=
  match e.chain with
  | .absent | .head => none
  | .headField v => if v = 0 then none else some v
  | .last _ link => if link = 0 then none else some link

/-- The window has a place. -/
def orderRoom (e : Exchange) : Bool := decide (e.window.length < orderCapacity)

/-- An Order Record as fetched. -/
def orderOf (address : BitVec 64) (b : List Byte) : Order :=
  { address := address
    sequence := BitVec.ofNat 32 (leAt b 8 4)
    kind := BitVec.ofNat 8 (leAt b 0x0C 1)
    parameters := bytesAt b parameterOffset parameterBytes
    status := .dispatched }

/-- A record joins the window; the first after an attach sets the reclaim mark (R174). -/
def fetchOrder (a : Act) (address : BitVec 64) (b : List Byte) : Act :=
  let o := orderOf address b
  let first := a.s.ex.lastSequence.isNone
  let a := a.on (·.modEx (fun e => { e with
    window := e.window ++ [o]
    lastSequence := some o.sequence
    chain := .last address (BitVec.ofNat 64 (leAt b 0 8))
    notPosted := false }))
  if first then setMark a (o.sequence - 1) else a

/-- The record breaks the chain: it does not follow the last sequence. -/
def breaksChain (e : Exchange) (b : List Byte) : Bool :=
  match e.lastSequence with
  | none => false
  | some l => BitVec.ofNat 32 (leAt b 8 4) != l + 1

/-- A record is read whole and judged, where the window has a place. -/
def readOrder (address : BitVec 64) (a : Act) : Act :=
  if orderRoom a.s.ex = false then a
  else
    match memRead a.s.mem address.toNat orderRecordSize with
    | .error x => stall a (.orderRead address) .memoryFault .memoryFault .orderRead x
    | .ok b =>
      if leAt b 0x0D 1 ≠ posted then a.on (·.modEx (fun e => { e with notPosted := true }))
      else if breaksChain a.s.ex b then stall a (.orderRead address) .brokenChain .brokenChain .none address.toNat
      else fetchOrder a address b

/-- The next record may be read: ATTACHED, with room, no stop pending, its address known. -/
def orderToFetch (e : Exchange) : Option (BitVec 64) :=
  if e.state = .attached ∧ orderRoom e = true ∧ e.notPosted = false then nextOrderAddress e else none

/-- A fetch of the order chain. -/
def orderFetch (a : Act) : Act :=
  match orderToFetch a.s.ex with
  | some address => readOrder address a
  | none => a

/-- The link or chain head field of a tail stop is read again; a link found nonzero re-judges the mark (R171, R174). -/
def rereadTail (a : Act) : Act :=
  match a.s.ex.chain with
  | .absent | .head => a
  | .headField _ =>
    match memRead a.s.mem (areaBase a.s + 8) 8 with
    | .error x => stall a .linkRead .memoryFault .memoryFault .orderRead x
    | .ok b => a.on (·.modEx (fun e => { e with chain := .headField (BitVec.ofNat 64 (leNat b)) }))
  | .last address _ =>
    match memRead a.s.mem address.toNat 8 with
    | .error x => stall a .linkRead .memoryFault .memoryFault .orderRead x
    | .ok b => judgeMark (a.on (·.modEx (fun e => { e with chain := .last address (BitVec.ofNat 64 (leNat b)) })))

/-- NUDGE 0x0000 in ATTACHED: a stopped fetch resumes. -/
def resumeFetch (a : Act) : Act :=
  match nextOrderAddress a.s.ex with
  | none => rereadTail a
  | some address =>
    if a.s.ex.notPosted = false then a
    else readOrder address (a.on (·.modEx (fun e => { e with notPosted := false })))

/-! ## Stalls (R170) -/

/-- The held completion of an order of the window is written again. -/
def retryCompletion (a : Act) (q : BitVec 32) : Act :=
  match windowOrder a.s q with
  | none => a
  | some o =>
    match o.status with
    | .completing c => writeCompletion a o c
    | _ => a

/-- A stall access leaves the set; it joins again where its retry fails. -/
def dropStall (x : StallAccess) (s : State) : State :=
  s.modEx (fun e => { e with stalls := e.stalls.filter (fun y => y != x) })

/-- A read that stalled the exchange is made again. -/
def retryRead (a : Act) (x : StallAccess) : Act :=
  match x with
  | .header => readHeader (a.on (dropStall x))
  | .orderRead address => readOrder address (a.on (dropStall x))
  | .linkRead => rereadTail (a.on (dropStall x))
  | .completion _ => a

/-- With no stall access left the exchange is ATTACHED. -/
def endStall (s : State) : State :=
  if s.ex.state = .stalled ∧ s.ex.stalls = [] then
    s.modEx (fun e => { e with state := .attached, stallCause := none })
  else s

/-- NUDGE 0x0000 in STALLED: the completion writes in chain order, then the read (R170). That it does not also re-read a
pending tail or not-posted stop, which waits for the next NUDGE, is the model's choice (entry 52). -/
def retryStalls (a : Act) : Act :=
  let reads := a.s.ex.stalls
  let a := a.each (a.s.ex.window.map (·.sequence)) retryCompletion
  (a.each reads retryRead).on endStall

/-- NUDGE 0x0000. -/
def nudgeOrders (a : Act) : Act :=
  match a.s.ex.state with
  | .attached => resumeFetch a
  | .stalled => retryStalls a
  | .detached | .broken => a

/-! ## The rescan (R178, R165) -/

/-- A pending notice is written to a lane held EMPTY. -/
def flushPending (s : State) (k : NoticeIx) : State :=
  match (s.ex.lanes.get k).pending with
  | none => s
  | some p => laneFault k (writeLane s k p)

/-- A flag of the area read as FULL or EMPTY. -/
def readFlag (s : State) (address : Nat) : Except Nat Bool :=
  match memRead s.mem address 1 with
  | .error x => .error x
  | .ok b => .ok (leNat b != 0)

/-- The rescan of one lane. Its ERRORS notice for a faulted flag is taken at once: the model's choice (entry 35). -/
def rescanLane (s : State) (k : NoticeIx) : State :=
  if s.memOpen = false then s
  else
    match readFlag s (laneAddress s k) with
    | .error x => takeErrors s (faultNotice .rescanRead x)
    | .ok full =>
      let b := s.ex.lanes.get k
      if b.full then
        if full then s else flushPending (setLane s k { b with full := false }) k
      else flushPending s k

/-- The rescan of one inbox slot. -/
def rescanInbox (s : State) (k : InboxIx) : State :=
  if s.memOpen = false then s
  else
    match readFlag s (inboxAddress s k) with
    | .error x => takeErrors s (faultNotice .rescanRead x)
    | .ok full => if full then s else holdInbox s k false

/-- The header mirrors a rescan writes. -/
def rescanMirrors : List Mirror := allPorts.map .port ++ [.roster, .timebase, .origin, .counters]

/-- NUDGE 0x0200: the mirrors, the lanes in turn, the inbox slots in turn. -/
def rescan (s : State) : State :=
  if s.memOpen = false then s
  else allInbox.foldl rescanInbox (allNotices.foldl rescanLane (rescanMirrors.foldl writeMirror s))

/-! ## NUDGE for a block chain (R146) -/

/-- NUDGE 0x0100 + k while ATTACHED or STALLED: a faulted write is made again before a stopped read, the model's choice
(entry 60). -/
def nudgeBlocks (n : SlotIx) (a : Act) : Act :=
  if a.s.memOpen = false ∨ (a.s.slot n).state = .closed then a else retryStop (retryWrite a n) n

/-! ## Registers -/

/-- A LINE write replaces the lane mask (R167, R179). -/
def writeLine (value : BitVec 32) (s : State) : State := s.modEx (fun e => { e with mask := value.setWidth 12 })

/-- A BASE_HI write is held for the next BASE_LO write. -/
def writeBaseHi (value : BitVec 32) (s : State) : State := s.modEx (fun e => { e with baseHi := value })

end Sys2Proof.Machine
end

