-- ==== Sys2Proof/Machine/Snapshots.lean ====
section
/-! DEFINITION. The snapshots of READ_STATE (R175, R194): the items of each owning chapter's list in its order, each
aligned to its width (entry 21). -/

namespace Sys2Proof.Machine

/-! ## Laying out items -/

/-- An item: a number of a width in bytes, or bytes of a record format placed at an alignment. -/
inductive Item
  | num (width value : Nat)
  | record (align : Nat) (bytes : List Byte)
  deriving DecidableEq, Repr

/-- Bytes padded with zeros to a multiple of an alignment. -/
def alignTo (n : Nat) (bs : List Byte) : List Byte := padTo ((bs.length + n - 1) / n * n) bs

/-- One item laid out behind what stands already. -/
def place (bs : List Byte) : Item → List Byte
  | .num w v => alignTo w bs ++ leBytes w v
  | .record n r => alignTo n bs ++ r

/-- The length of a snapshot of a kind (R194). -/
def snapshotLength : SnapshotKind → Nat
  | .roster | .reach | .triggers => 2048
  | .ports | .streamSlot => 1024
  | .settings => 512
  | .timebase => 128
  | .identity => 64

/-- The 8-byte head: kind, head version 1, reserved, length. -/
def snapshotHead (k : SnapshotKind) : List Byte :=
  leBytes 1 (snapshotKindCode k) ++ leBytes 1 1 ++ zeros 2 ++ leBytes 4 (snapshotLength k)

/-- A snapshot: the head, the items, zeros up to the length. -/
def layout (k : SnapshotKind) (items : List Item) : List Byte :=
  (padTo (snapshotLength k) (items.foldl place (snapshotHead k))).take (snapshotLength k)

def flagItem (b : Bool) : Item := .num 1 (flagCode b)

/-- Every counter of a group, 4 bytes each. -/
def counterItems (bs : List Byte) : List Item := [.record 4 bs]

/-! ## The items of each kind -/

/-- An anchor's identity items of an entry: class, capability set, rejoin flag (R195), entry frame, entry port, window or
stray deadline. -/
def identityItems (e : RosterEntry) : List Item :=
  let deadline := Item.num 8 (e.deadline.getD 0)
  match e.identity with
  | none => [.num 2 0, .num 4 0, .num 1 0, .num 1 0, .num 1 0, deadline]
  | some i =>
    [.num 2 i.frameClass.toNat, .num 4 i.capabilities.toNat, flagItem i.rejoin, .num 1 i.entryFrame.val,
     .num 1 i.entryPort.val, deadline]

/-- The roster snapshot (R83). That the latches stand in the order leaving, refused, held is the model's choice (entry 21).
-/
def rosterItems (s : State) : List Item :=
  let r := s.roster
  [.num 1 (standingCode r.standing), .num 1 r.anchor.val, flagItem (isAnchor s), flagItem r.leavingLatch,
   flagItem r.refusedLatch, flagItem r.heldLatch, flagItem r.rejoin, .num 4 r.generation.toNat, .num 1 r.issuer.val]
    ++ (allFrames.map (fun f =>
      [.num 1 (entryStateCode (s.entry f).state), .num 8 (s.entry f).serial.toNat])).flatten
    ++ (allFrames.map (fun f => identityItems (s.entry f))).flatten
    ++ counterItems (rosterCounterBytes r.counters)

/-- The contents record as host memory holds it. -/
def contentsRecord (c : Contents) : List Byte :=
  leBytes 1 c.frame.toNat ++ leBytes 1 c.anchorRank.toNat ++ leBytes 1 c.timeRank.toNat ++ leBytes 1 c.timeState.toNat
    ++ leBytes 6 c.serial.toNat ++ leBytes 2 c.incarnation.toNat ++ leBytes 4 c.generation.toNat
    ++ leBytes 1 c.followedAnchor.toNat ++ leBytes 1 c.followedMaster.toNat ++ leBytes 1 c.standing.toNat
    ++ leBytes 1 c.leaving.toNat

/-- A Reach Table entry: state UNKNOWN 0 or REACHABLE 1, then its fields; the contents record aligned to 4 (entry 21).
-/
def routeItems : Option Route → List Item
  | none => [.num 1 0, .num 1 0, .num 1 0, .num 2 0, .num 2 0, .num 1 0, .record 4 (zeros 20)]
  | some r =>
    [.num 1 1, .num 1 r.hops, .num 1 r.port.val, .num 2 r.incarnation.toNat, .num 2 r.sequence.toNat, .num 1 r.age,
     .record 4 (contentsRecord r.contents)]

/-- The reach snapshot (R59); the port set is one byte, bit k for port k (entry 21). -/
def reachItems (s : State) : List Item :=
  (allFrames.map (fun f => routeItems (s.route f))).flatten
    ++ [.num 2 s.reach.ownSequence.toNat, .num 1 (bitmap 8 allPorts s.reach.portSet.get).toNat]
    ++ counterItems (reachCounterBytes s.reach.counters)

/-- One of the four sample places of a port. -/
def sampleItem (p : Port) (i : Nat) : Item := .num 4 (p.samples.getD i 0)

/-- A port's fields (R20) and counters (R19). -/
def portItems (s : State) (k : PortIx) : List Item :=
  let p := s.port k
  [.num 1 (portStateCode p.state), .num 1 (portCauseCode p.cause), .num 1 p.health, .num 1 p.settling,
   .num 8 p.partnerSerial.toNat, .num 1 p.partnerFrame.val, .num 1 p.partnerPort.val, .num 2 p.partnerIncarnation.toNat,
   .num 1 p.samples.length] ++ (List.range 4).map (sampleItem p)
    ++ [.num 4 (filteredDelay p), .num 2 p.attempts.toNat, .num 1 p.probeNumber.toNat,
        .num 1 (match p.outstanding with | some o => o.number.toNat | none => 0),
        .num 8 (match p.outstanding with | some o => o.departure.toNat | none => 0),
        .num 4 p.outliers.toNat, .num 4 p.missedEchoes.toNat, .record 4 (portCounterBytes (s.link k).counters)]

/-- The ports snapshot (R20). -/
def portsItems (s : State) : List Item := (allPorts.map (portItems s)).flatten

/-- The timebase snapshot (R102). -/
def timebaseItems (s : State) : List Item :=
  let t := s.tb
  [.num 8 t.rackTime.toNat, .num 1 (timeStateCode t.state), .num 1 t.master.val, .num 1 (portValue (upstreamPort s)),
   .num 1 (t.distance.getD 0), .num 8 (signed64 t.correction), .num 8 (signed64 (t.lastOffset.getD 0)),
   flagItem t.stepPending, .num 1 t.lockCount, .num 1 t.excursions,
   .num 8 (match t.holdoverSince with | some x => s.now - x | none => 0), .num 2 s.store.working.holdover]
    ++ counterItems (timeCounterBytes t.counters)

/-- An entry place of the Trigger Schedule. -/
def triggerItems : Option Trigger → List Item
  | none => [.num 1 0, .num 8 0, .num 1 0, .num 2 0, .num 1 0]
  | some t =>
    [.num 1 t.lane.val, .num 8 t.fireTime.toNat, .num 1 t.origin.val, .num 2 t.sequence.toNat, .num 1 t.quality.toNat]

/-- A lane's input stage, output stage and remaining pulse time. -/
def laneItems (now : Nat) (l : Lane) : List Item :=
  [.num 1 (inputStageCode l.stage), flagItem l.pulseEnd.isSome,
   .num 4 (match l.pulseEnd with | some e => e - now | none => 0)]

/-- The trigger schedule snapshot (R116). -/
def triggersItems (s : State) : List Item :=
  let u := s.trig
  [.num 1 u.schedule.length] ++ ((List.range scheduleCapacity).map (fun i => triggerItems u.schedule[i]?)).flatten
    ++ [.num 8 s.tb.rackTime.toNat] ++ (allLanes.map (fun k => laneItems s.now (u.lanes.get k))).flatten
    ++ [.num 2 u.sequence.toNat] ++ counterItems (triggerCounterBytes u.counters)

/-- The settings snapshot (R190); the store in progress is shown by a flag (entry 21). -/
def settingsItems (x : SettingsStore) : List Item :=
  [.record 8 (settingsImage x.working), .record 8 (filterImage x.working.filter), .num 1 (settingsOriginCode x.origin),
   flagItem x.modified, flagItem x.storedValid, flagItem x.storing.isSome]

/-- The identity snapshot (R184). -/
def identitySnapshotItems (x : SettingsStore) : List Item :=
  [.num 2 x.identity.frameClass.toNat, .num 8 x.identity.serial.toNat, .num 4 x.identity.capabilities.toNat,
   .num 2 x.incarnation.toNat, .num 2 Config.vendorCode.toNat, .num 1 Config.partCode.toNat,
   .num 1 Config.revision.toNat]

/-- The start gate's value: a rack time, a lane, or 0; shown in 8 bytes behind the gate's kind, the model's choice
(entry 21). -/
def gateValue : Gate → Nat
  | .now => 0
  | .atTime t => t.toNat
  | .onLane k => k.val

/-- An order as a snapshot shows it: its sequence. -/
def orderItem (q : Option (BitVec 32)) : Item := .num 4 (match q with | some x => x.toNat | none => 0)

/-- The counters of a slot (R143, R159). -/
def slotCounterBytes (c : SlotCounters) : List Byte :=
  counterBytes [c.openSent, c.blocksStarted, c.missedPace, c.creditSent, c.unsent, c.delivered, c.damaged,
    c.unconfirmed, c.discarded, c.rejected, c.ended, c.cutOff, c.stale, c.beyond, c.heldOff, c.gap, c.late, c.ackIgnored,
    c.faults]

/-- A place of the fetched list: address, block number, stage, held outcome (R159). -/
def recItems : Option Rec → List Item
  | none => [.num 8 0, .num 4 0, .num 1 0, .num 1 0]
  | some r =>
    [.num 8 (match r.address with | some x => x.toNat | none => 0),
     .num 4 (match r.number with | some b => b.toNat | none => 0), .num 1 (stageCode r.stage),
     .num 1 (match r.outcome with | some o => blockOutcomeCode o | none => 0)]

/-- The stream slot snapshot (R117, R143, R159). That UNMATCHED stands before the fetched list, and the form of the start
gate, are the model's choices (entry 21). -/
def slotItems (s : State) (n : SlotIx) : List Item :=
  let x := s.slot n
  [.num 1 (roleCode x.role), .num 1 (streamStateCode x.state), .num 1 (streamCauseCode x.cause), .num 2 x.tag.toNat,
   .num 1 x.peer.val, .num 2 (if x.openAbsent then 0 else x.openNumber.toNat),
   .num 2 (match x.peerIncarnation with | some i => i.toNat | none => 0), .num 4 x.blockSize, .num 4 x.pace,
   .num 1 (gateCode x.gate), .num 8 (gateValue x.gate), .num 8 x.startTime.toNat, .num 8 x.nextPace, .num 1 x.interval,
   .num 4 x.lateness, .num 8 x.chainHead.toNat, flagItem x.selfHalt, flagItem x.peerHalt, flagItem x.drain,
   .num 4 x.creditLimit.toNat, .num 1 x.unresolved, .num 8 (x.strandDeadline.getD 0), .num 8 (x.closeDeadline.getD 0),
   orderItem x.openOrder, orderItem x.finishOrder] ++ counterItems (slotCounterBytes x.counters)
    ++ [.num 4 s.stream.unmatched.toNat]
    ++ ((List.range fetchWindow).map (fun i => recItems x.fetched[i]?)).flatten

/-- The snapshot of a kind, as its owner's state stands. -/
def snapshot (s : State) (k : SnapshotKind) (n : SlotIx) : List Byte :=
  layout k (match k with
    | .roster => rosterItems s
    | .reach => reachItems s
    | .ports => portsItems s
    | .timebase => timebaseItems s
    | .triggers => triggersItems s
    | .settings => settingsItems s.store
    | .identity => identitySnapshotItems s.store
    | .streamSlot => slotItems s n)

/-! ## READ_STATE (R175) -/

/-- The bytes of a write that faults are written up to the faulting address. -/
def writeUpTo (s : State) (address : Nat) (bs : List Byte) (fault : Nat) : State :=
  match writeHost s address (bs.take (fault - address)) with
  | .ok s => s
  | .error _ => s

/-- The slot parameter, taken modulo 64 where it is ignored. -/
def slotOf (n : Nat) : SlotIx := ⟨n % 64, Nat.mod_lt _ (by decide)⟩

/-- A snapshot is written into the host's buffer and the order completes. -/
def writeSnapshot (a : Act) (o : Order) (k : SnapshotKind) : Act :=
  let bs := snapshot a.s k (slotOf (readStateSlot o))
  match writeHost a.s (readStatePointer o) bs with
  | .ok s => done { a with s := s } o (leBytes 2 bs.length)
  | .error x =>
    (complete (a.on (writeUpTo · (readStatePointer o) bs x)) o.sequence .memoryFault).memFault .snapshotWrite x

/-- READ_STATE (R175). With several parameters invalid the detail is the lowest index: the model's choice (entry 61). -/
def readStateOrder (a : Act) (o : Order) : Act :=
  match snapshotKindOfCode (readStateKind o) with
  | none => badOrder a o 0
  | some k =>
    if readStatePointer o = 0 then badOrder a o 1
    else if readStateLength o < snapshotLength k then badOrder a o 2
    else if k = .streamSlot ∧ 63 < readStateSlot o then badOrder a o 3
    else writeSnapshot a o k

end Sys2Proof.Machine
end

