-- ==== Sys2Proof/Machine/LineCommands.lean ====
section
/-! DEFINITION. The reset and line commands: DEVICE_RESET, RESET_INPUT_ASSERTED and the events at a port's receiver and of
its timers (02, R7). -/

namespace Sys2Proof.Machine

/-- DEVICE_RESET (R186): power-on completes or the reset input is released. -/
def execDeviceReset (s : State) : Host.Outcome State Fault Refusal := .next (finish (deviceReset s))

/-- RESET_INPUT_ASSERTED (R186): the part does nothing until the release. -/
def execResetInputAsserted (s : State) : Host.Outcome State Fault Refusal := .next { s with inReset := true }

/-! ## DARK and LOCKOUT (R22 to R24) -/

/-- One WAKE burst at the wake interval. -/
def wakeBurst (p : PortIx) (due : Nat) (a : Act) : Act :=
  a.on (·.modPort p (fun r => { r with bursts := r.bursts + 1, lastBurst := due }))

/-- WAKE_INTERVAL (R22): a DARK port sends one burst. -/
def execWakeInterval (p : PortIx) (s : State) : Host.Outcome State Fault Refusal :=
  run (fun a =>
    let interval := wakeTime a.s.store.working.wake
    if (a.s.port p).state = .dark then
      a.atTimer (some (a.s.port p).lastBurst) interval (wakeBurst p ((a.s.port p).lastBurst + interval))
    else a) s

/-- A quiet count that runs starts again (R24). -/
def restartQuiet (now : Nat) (r : Port) : Port := { r with quietSince := r.quietSince.map (fun _ => now) }

/-- WAKE_RECEIVED (R23, R35): a WAKE burst or training symbols. -/
def execWakeReceived (p : PortIx) (s : State) : Host.Outcome State Fault Refusal :=
  run (fun a =>
    match (a.s.port p).state with
    | .dark => changePort p .training .wake a
    | .up => changePort p .training .retrain a
    | .lockout => a.on (fun s => s.modPort p (restartQuiet s.now))
    | .held | .training | .faulted => a) s

/-- NOISE (R23): 10 ms of signal without lock take a DARK port to LOCKOUT. -/
def execNoise (p : PortIx) (s : State) : Host.Outcome State Fault Refusal :=
  run (fun a =>
    if (a.s.port p).state = .dark then a.atTimer (a.s.port p).noiseSince noiseLimit (changePort p .lockout .noise)
    else a) s

/-- QUIET (R24): 1 ms without signal takes a LOCKOUT port to DARK. -/
def execQuiet (p : PortIx) (s : State) : Host.Outcome State Fault Refusal :=
  run (fun a =>
    if (a.s.port p).state = .lockout then a.atTimer (a.s.port p).quietSince quietLimit (changePort p .dark .quiet)
    else a) s

/-! ## Signal and lock (R23 to R25, R29, R35) -/

/-- Signal with lock at the receiver: neither the noise count nor the quiet count runs. -/
def gainLock (r : Port) : Port := { r with signal := true, lock := true, noiseSince := none, quietSince := none }

/-- SYMBOL_LOCK (R25): a TRAINING port sends its first PROBE. -/
def execSymbolLock (p : PortIx) (s : State) : Host.Outcome State Fault Refusal :=
  run (fun a =>
    if (a.s.port p).lock then a
    else
      let a := a.on (·.modPort p gainLock)
      if (a.s.port p).state = .training then a.on (fun s => sendProbe s p s.now) else a) s

/-- Signal without lock at the receiver: a DARK port's noise count runs, a LOCKOUT port's quiet count does not. -/
def gainSignal (now : Nat) (r : Port) : Port :=
  { r with
    signal := true
    noiseSince := if r.state = .dark ∧ r.lock = false then some (r.noiseSince.getD now) else r.noiseSince
    quietSince := none }

/-- SIGNAL_PRESENT (R23, R24). -/
def execSignalPresent (p : PortIx) (s : State) : Host.Outcome State Fault Refusal :=
  runState (fun s => s.modPort p (gainSignal s.now)) s

/-- What the receiver of a port loses, and the counts this starts and stops. -/
def loseLine (now : Nat) (what : LineLoss) (r : Port) : Port :=
  match what with
  | .signal =>
    { r with signal := false, lock := false, noiseSince := none,
             quietSince := if r.state = .lockout then some now else none }
  | .lock => { r with lock := false, noiseSince := if r.state = .dark ∧ r.signal = true then some now else none }

/-- What is lost was there. -/
def hadLine (what : LineLoss) (r : Port) : Bool :=
  match what with
  | .signal => r.signal
  | .lock => r.lock

/-- LOSS_OF_SIGNAL (R35, R29): an UP port, or a TRAINING port after lock, goes DARK. -/
def execLossOfSignal (p : PortIx) (what : LineLoss) (s : State) : Host.Outcome State Fault Refusal :=
  run (fun a =>
    let r := a.s.port p
    if hadLine what r = false then a
    else
      let a := a.on (fun s => s.modPort p (loseLine s.now what))
      match r.state with
      | .up => changePort p .dark .lost a
      | .training => if r.lock then failTraining p .lost a else a
      | .held | .dark | .lockout | .faulted => a) s

/-- RESYNCHRONISATION (R7): the eighth IDLE symbol makes an ignoring receive stage ready. -/
def execResynchronisation (p : PortIx) (s : State) : Host.Outcome State Fault Refusal :=
  runState (fun s =>
    if (s.port p).state = .training ∨ (s.port p).state = .up then s.modPort p (fun r => { r with rxStage := .ready })
    else s) s

/-! ## Training, probes and silence (R29, R30, R36) -/

/-- TIMEOUT (R29): the training limit passes. -/
def execTimeout (p : PortIx) (s : State) : Host.Outcome State Fault Refusal :=
  run (fun a =>
    if (a.s.port p).state = .training then
      a.atTimer (a.s.port p).trainingSince trainingLimit (failTraining p .timeout)
    else a) s

/-- The probe period of a port in its state, where it sends PROBEs (R25, R30). -/
def probePeriod (r : Port) : Option Nat :=
  match r.state with
  | .training => if r.lock then some probePeriodTraining else none
  | .up => some probePeriodUp
  | .held | .dark | .lockout | .faulted => none

/-- PROBE_TIMER (R25, R30). -/
def execProbeTimer (p : PortIx) (s : State) : Host.Outcome State Fault Refusal :=
  run (fun a =>
    match probePeriod (a.s.port p), (a.s.port p).lastProbe with
    | some period, some last => a.atTimer (some last) period (fun a => a.on (sendProbe · p (last + period)))
    | _, _ => a) s

/-- SILENT (R36): the silence watch expires. -/
def execSilent (p : PortIx) (s : State) : Host.Outcome State Fault Refusal :=
  run (fun a =>
    if (a.s.port p).state = .up then
      a.atTimer (a.s.port p).silenceSince silenceLimit (changePort p .training .silent)
    else a) s

end Sys2Proof.Machine
end

