-- ==== Sys2Proof/Machine/CellCommands.lean ====
section
/-! DEFINITION. The received cells, one command for each kind, the erroneous cell, the relay, and the transmitter's
commands (01). -/

namespace Sys2Proof.Machine

/-- ERRONEOUS_CELL (R5): symbols collected on a port, where a test of R5 fails. -/
def execErroneousCell (p : PortIx) (raw : RawCell) (s : State) : Host.Outcome State Fault Refusal :=
  run (fun a =>
    match builds (a.s.port p), rawError raw with
    | true, some e => erroneous p e (rawNull raw) a
    | _, _ => a) s

/-- PROBE (R27). -/
def execProbe (rx : Rx) (s : State) : Host.Outcome State Fault Refusal := run (receive .probe rx (takeProbe rx)) s

/-- ECHO (R28). -/
def execEcho (rx : Rx) (s : State) : Host.Outcome State Fault Refusal := run (receive .echo rx (takeEcho rx)) s

/-- TIME (R94). -/
def execTime (rx : Rx) (s : State) : Host.Outcome State Fault Refusal := run (receive .time rx (takeTime rx)) s

/-- TRIG (R108). -/
def execTrig (rx : Rx) (s : State) : Host.Outcome State Fault Refusal := run (receive .trig rx (takeTrig rx)) s

/-- BEACON (R47, R49). -/
def execBeacon (rx : Rx) (s : State) : Host.Outcome State Fault Refusal := run (receive .beacon rx (takeBeacon rx)) s

/-- ROLL (R71). -/
def execRoll (rx : Rx) (s : State) : Host.Outcome State Fault Refusal := run (receive .roll rx (takeRoll rx)) s

/-- HELLO (R73, R74). -/
def execHello (rx : Rx) (s : State) : Host.Outcome State Fault Refusal := run (receive .hello rx (takeHello rx)) s

/-- VERDICT (R75). -/
def execVerdict (rx : Rx) (s : State) : Host.Outcome State Fault Refusal := run (receive .verdict rx (takeVerdict rx)) s

/-- LEAVE_CELL (R80). -/
def execLeaveCell (rx : Rx) (s : State) : Host.Outcome State Fault Refusal := run (receive .leaveCell rx (takeLeave rx)) s

/-- OPEN (R123). -/
def execOpenCell (rx : Rx) (s : State) : Host.Outcome State Fault Refusal := run (receive .openCell rx (takeOpen rx)) s

/-- OPEN_ANSWER (R124). -/
def execOpenAnswer (rx : Rx) (s : State) : Host.Outcome State Fault Refusal :=
  run (receive .openAnswer rx (takeOpenAnswer rx)) s

/-- CREDIT (R130). -/
def execCredit (rx : Rx) (s : State) : Host.Outcome State Fault Refusal := run (receive .credit rx (takeCredit rx)) s

/-- BLOCKACK (R155). -/
def execBlockack (rx : Rx) (s : State) : Host.Outcome State Fault Refusal :=
  run (receive .blockack rx (takeBlockack rx)) s

/-- HALT (R132). -/
def execHalt (rx : Rx) (s : State) : Host.Outcome State Fault Refusal := run (receive .halt rx (takeHalt rx)) s

/-- CLOSE (R140). -/
def execClose (rx : Rx) (s : State) : Host.Outcome State Fault Refusal := run (receive .close rx (takeClose rx)) s

/-- DATA (R152). -/
def execData (rx : Rx) (s : State) : Host.Outcome State Fault Refusal := run (receive .data rx (takeData rx)) s

/-- NOTE (R163). -/
def execNote (rx : Rx) (s : State) : Host.Outcome State Fault Refusal := run (receive .note rx (takeNote rx)) s

/-- NOTE_ANSWER (R164). -/
def execNoteAnswer (rx : Rx) (s : State) : Host.Outcome State Fault Refusal :=
  run (receive .noteAnswer rx (takeNoteAnswer rx)) s

/-- A cell is routed to another frame than this one. -/
def forAnother (s : State) (rx : Rx) : Bool :=
  rx.dest != 0 && rx.dest.toNat != floodDest && rx.dest.toNat != s.own.val

/-- RELAY (R13): a routed cell of any kind for another frame. -/
def execRelay (k : Kind) (rx : Rx) (s : State) : Host.Outcome State Fault Refusal :=
  run (fun a => if forAnother a.s rx then receive k rx id a else a) s

/-- ARBITER_DECISION (R15, R16). -/
def execArbiterDecision (p : PortIx) (s : State) : Host.Outcome State Fault Refusal := runState (arbiterDecision · p) s

/-- DATA_CELL_SENT (R151). -/
def execDataCellSent (p : PortIx) (s : State) : Host.Outcome State Fault Refusal := run (dataCellSent p) s

end Sys2Proof.Machine
end

