-- ==== Sys2Proof/Machine/UnitTimers.lean ====
section
/-! DEFINITION. The timers of the reach, roster and timebase units, of the trigger lanes and of the note path, and the
trigger inputs. -/

namespace Sys2Proof.Machine

/-! ## Reach unit -/

/-- PERIOD_TIMER (R45, R50): a BEACON and the ageing, in either order. -/
def execPeriodTimer (s : State) : Host.Outcome State Fault Refusal :=
  run (fun a =>
    let due := a.s.reach.lastPeriod + reachPeriod
    a.atTimer (some a.s.reach.lastPeriod) reachPeriod (fun a =>
      (a.on (·.modReach (fun r => { r with lastPeriod := due }))).race2 (fun a => a.on originateBeacon) ageTable)) s

/-! ## Roster unit -/

/-- ANCHOR_SILENCE (R66). -/
def execAnchorSilence (s : State) : Host.Outcome State Fault Refusal :=
  run (fun a => a.atTimer a.s.roster.silenceSince anchorSilenceLimit (rosterPlain selfAnchor)) s

/-- HELLO_TIMER (R72). -/
def execHelloTimer (s : State) : Host.Outcome State Fault Refusal :=
  run (fun a =>
    match a.s.roster.lastHello with
    | none => a
    | some last =>
      if sendsHello a.s.roster.standing then
        a.atTimer (some last) helloPeriod (fun a => a.on (sendHello · (last + helloPeriod)))
      else a) s

/-- The ROLL of a timer expiry: the generation as it stands (R70). -/
def timedRoll (due : Nat) (s : State) : State := floodRoll (s.modRoster (fun r => { r with lastRoll := some due }))

/-- ROLL_TIMER (R70). -/
def execRollTimer (s : State) : Host.Outcome State Fault Refusal :=
  run (fun a =>
    match a.s.roster.lastRoll with
    | none => a
    | some last =>
      if isAnchor a.s then a.atTimer (some last) rollPeriod (fun a => a.on (timedRoll (last + rollPeriod))) else a) s

/-- WINDOW_DEADLINE (R77): the earliest quarantine window ends. -/
def execWindowDeadline (s : State) : Host.Outcome State Fault Refusal :=
  run (fun a => if isAnchor a.s then a.atTimer (nextWindow a.s) 0 expireWindows else a) s

/-- STRAY_DEADLINE (R79): a STRAY entry becomes VACANT. -/
def execStrayDeadline (f : FrameNo) (s : State) : Host.Outcome State Fault Refusal :=
  run (fun a =>
    if isAnchor a.s ∧ (a.s.entry f).state = .stray then
      a.atTimer (a.s.entry f).deadline 0 (rosterPlain (fun s => issueRoster (setEntryState s f .vacant)))
    else a) s

/-- LEAVE_LIMIT (R80): 1 s has passed since LEAVE was taken; the order completes where its other condition holds. -/
def execLeaveLimit (s : State) : Host.Outcome State Fault Refusal :=
  run (fun a => a.atTimer (a.s.roster.leave.map (·.since)) leaveLimit id) s

/-! ## Timebase unit -/

/-- EMISSION_TIMER (R93). -/
def execEmissionTimer (s : State) : Host.Outcome State Fault Refusal :=
  run (fun a =>
    let due := a.s.tb.lastEmission + emissionPeriod
    a.atTimer (some a.s.tb.lastEmission) emissionPeriod (fun a =>
      a.on (fun s => emitTime (s.modTb (fun t => { t with lastEmission := due }))))) s

/-- The TIME watch expires: counted, and a loss of upstream (R98, R102). -/
def watchGap (s : State) : State :=
  s.modTb (fun t => loseUpstream s.now { t with counters := { t.counters with gaps := t.counters.gaps + 1 } })

/-- TIME_WATCH (R98). -/
def execTimeWatch (s : State) : Host.Outcome State Fault Refusal :=
  run (fun a => a.atTimer a.s.tb.watchSince timeWatchLimit (tbPlain watchGap)) s

/-- HOLDOVER_LIMIT (R99). -/
def execHoldoverLimit (s : State) : Host.Outcome State Fault Refusal :=
  run (fun a =>
    if a.s.tb.state = .holdover then
      a.atTimer a.s.tb.holdoverSince (holdoverTime a.s.store.working) (tbPlain (·.modTb endHoldover))
    else a) s

/-! ## Trigger unit -/

/-- ENABLED_EDGE (R104, R105): a lane input goes to its asserted level. -/
def execEnabledEdge (k : LaneIx) (s : State) : Host.Outcome State Fault Refusal := run (inputEdge · k) s

/-- INPUT_DEASSERTED (R104): a lane input leaves its asserted level. -/
def execInputDeasserted (k : LaneIx) (s : State) : Host.Outcome State Fault Refusal := runState (inputLeaves · k) s

/-- HOLD_LIMIT (R106): an asserted stage is muted. -/
def execHoldLimit (k : LaneIx) (s : State) : Host.Outcome State Fault Refusal :=
  run (fun a =>
    let l := a.s.trig.lanes.get k
    if l.stage = .asserted then
      a.atTimer l.holdSince (holdTime a.s.store.working) (fun a => postTriggers (a.on (muteLane · k)) .none)
    else a) s

/-- UNMUTE_TIMER (R106): a muted stage becomes idle. -/
def execUnmuteTimer (k : LaneIx) (s : State) : Host.Outcome State Fault Refusal :=
  run (fun a =>
    let l := a.s.trig.lanes.get k
    if l.stage = .muted then a.atTimer l.unmuteSince unmuteTime (fun a => postTriggers (a.on (idleLane · k)) .none)
    else a) s

/-- FIRING (R110): rack time reaches the fire time of the first entries. -/
def execFiring (s : State) : Host.Outcome State Fault Refusal :=
  run (fun a =>
    match a.s.trig.schedule with
    | [] => a
    | t :: _ => fireReached (a.on (advanceToRack · t.fireTime))) s

/-- PULSE_END (R110): a lane output becomes quiet. -/
def execPulseEnd (k : LaneIx) (s : State) : Host.Outcome State Fault Refusal :=
  run (fun a => a.atTimer (a.s.trig.lanes.get k).pulseEnd 0 (fun a =>
    a.on (·.modLane k (fun l => { l with pulseEnd := none })))) s

/-! ## Note path -/

/-- ANSWER_TIMER (R164): the answer timer of a note expires. -/
def execAnswerTimer (number : BitVec 16) (s : State) : Host.Outcome State Fault Refusal :=
  run (fun a =>
    match noteOfNumber a.s number with
    | none => a
    | some e => a.atTimer (some e.since) answerTime (expireNote e)) s

/-- WAITING_NOTE_TAKEN (R161): the oldest waiting SEND_NOTE is taken. -/
def execWaitingNoteTaken (s : State) : Host.Outcome State Fault Refusal := run takeWaitingNote s

end Sys2Proof.Machine
end

