-- ==== Sys2Proof/Machine/StreamTimers.lean ====
section
/-! DEFINITION. The timers and events of one stream slot (07, 08). -/

namespace Sys2Proof.Machine

/-- OPEN_REPEAT (R122). -/
def execOpenRepeat (n : SlotIx) (s : State) : Host.Outcome State Fault Refusal :=
  run (fun a =>
    let x := a.s.slot n
    if x.state = .opening then
      a.atTimer (some x.lastOpen) openPeriod (fun a =>
        a.on (fun s => sendOpen (s.modSlot n (fun y => { y with lastOpen := x.lastOpen + openPeriod })) n))
    else a) s

/-- OPEN_LIMIT (R124). -/
def execOpenLimit (n : SlotIx) (s : State) : Host.Outcome State Fault Refusal :=
  run (fun a =>
    let x := a.s.slot n
    if x.state = .opening then a.atTimer (some x.openSince) openLimitTime (closeOpening · n .noOffer .noOffer)
    else a) s

/-- START_GATE (R126): rack time reaches the gate time of an ARMED source. -/
def execStartGate (n : SlotIx) (s : State) : Host.Outcome State Fault Refusal :=
  run (fun a =>
    let x := a.s.slot n
    match x.gate with
    | .atTime t => if x.state = .armed ∧ x.gateOpen = false then settle (a.on (advanceToRack · t)) n .gate else a
    | .now | .onLane _ => a) s

/-- A source that has pace points: paced, past its gate, not CLOSED (R127). -/
def hasPacePoints (x : Slot) : Bool := x.role == .source && x.state != .closed && x.gateOpen && x.pace != 0

/-- PACE_POINT (R127): rack time reaches the next pace point. -/
def execPacePoint (n : SlotIx) (s : State) : Host.Outcome State Fault Refusal :=
  run (fun a =>
    let x := a.s.slot n
    if hasPacePoints x then takePoint (a.on (advanceToRack · (pacePoint x x.nextPace))) n else a) s

/-- CREDIT_PERIOD (R130). -/
def execCreditPeriod (n : SlotIx) (s : State) : Host.Outcome State Fault Refusal :=
  run (fun a =>
    let x := a.s.slot n
    if sendsCredit x then
      a.atTimer (some x.lastCredit) creditPeriodTime (fun a =>
        a.on (fun s => sendCredit (s.modSlot n (fun y => { y with lastCredit := x.lastCredit + creditPeriodTime })) n))
    else a) s

/-- A source that repeats HALT (on): its self halt is set and its stream is open (R131). -/
def repeatsHalt (x : Slot) : Bool :=
  x.role == .source && x.selfHalt && x.state != .closed && x.state != .opening

/-- HALT_REPEAT (R131). -/
def execHaltRepeat (n : SlotIx) (s : State) : Host.Outcome State Fault Refusal :=
  run (fun a =>
    let x := a.s.slot n
    if repeatsHalt x then
      a.atTimer (some x.lastHalt) haltPeriod (fun a =>
        a.on (fun s => sendHalt (s.modSlot n (fun y => { y with lastHalt := x.lastHalt + haltPeriod })) n true))
    else a) s

/-- STRAND_DEADLINE (R134). -/
def execStrandDeadline (n : SlotIx) (s : State) : Host.Outcome State Fault Refusal :=
  run (fun a =>
    let x := a.s.slot n
    if x.state = .stranded then a.atTimer x.strandDeadline 0 (closeSlot · n .peerLost true) else a) s

/-- The close of a slot at its close deadline: a draining sink and a source draining for a leaving peer take the cause
they drain with, a source under FINISH is lost (R136 to R138). -/
def closeAtDeadline (n : SlotIx) (a : Act) : Act :=
  let x := a.s.slot n
  match x.role, x.drainMode with
  | .sink, _ => closeSlot a n x.drainCause true
  | .source, some .peerLeaving => closeSlot a n .peerLeaving true
  | .source, _ => closeSlot a n .peerLost true .unconfirmed

/-- CLOSE_DEADLINE (R136, R138). -/
def execCloseDeadline (n : SlotIx) (s : State) : Host.Outcome State Fault Refusal :=
  run (fun a =>
    let x := a.s.slot n
    if x.state = .draining ∨ (x.role = .sink ∧ x.drain = true ∧ x.state ≠ .closed) then
      a.atTimer x.closeDeadline 0 (closeAtDeadline n)
    else a) s

/-- ACKNOWLEDGEMENT_TIMER (R155): a SENT block resolves UNCONFIRMED. -/
def execAcknowledgementTimer (n : SlotIx) (b : BitVec 32) (s : State) : Host.Outcome State Fault Refusal :=
  run (fun a =>
    match (findRec (a.s.slot n) b).filter (fun r => r.stage == .sent) with
    | none => a
    | some r => a.atTimer r.ackSince ackTime (resolveBlock · n r b .unconfirmed)) s

/-- BLOCK_RECORD_FETCH (R146). -/
def execBlockRecordFetch (n : SlotIx) (s : State) : Host.Outcome State Fault Refusal :=
  run (fun a =>
    match mayFetch (a.s.slot n) && a.s.memOpen, (a.s.slot n).nextRecord with
    | true, some address => fetchRecord a n address
    | _, _ => a) s

/-- BLOCK_START (R129): a ready block of an unpaced source starts at once. -/
def execBlockStart (n : SlotIx) (s : State) : Host.Outcome State Fault Refusal :=
  run (fun a =>
    if (a.s.slot n).pace = 0 then
      match readyBlock a.s n with
      | none => a
      | some b => startBlock a n b 0
    else a) s

end Sys2Proof.Machine
end

