-- ==== Sys2Proof/Machine/RegisterCommands.lean ====
section
/-! DEFINITION. The writes of the register window (R167), the fetch of the order chain (R171) and the end of a store
(R189). -/

namespace Sys2Proof.Machine

/-- BASE_LO (R169). -/
def execBaseLo (value : BitVec 32) (s : State) : Host.Outcome State Fault Refusal := run (writeBaseLo value) s

/-- BASE_HI (R167). -/
def execBaseHi (value : BitVec 32) (s : State) : Host.Outcome State Fault Refusal := runState (writeBaseHi value) s

/-- NUDGE_ORDER_CHAIN (R170): NUDGE 0x0000. -/
def execNudgeOrderChain (s : State) : Host.Outcome State Fault Refusal := run nudgeOrders s

/-- NUDGE_BLOCK_CHAIN (R146): NUDGE 0x0100 + k. -/
def execNudgeBlockChain (n : SlotIx) (s : State) : Host.Outcome State Fault Refusal := run (nudgeBlocks n) s

/-- NUDGE_RESCAN (R178): NUDGE 0x0200. -/
def execNudgeRescan (s : State) : Host.Outcome State Fault Refusal := runState rescan s

/-- LINE (R167, R179): the lane mask. -/
def execLine (value : BitVec 32) (s : State) : Host.Outcome State Fault Refusal := runState (writeLine value) s

/-- IGNORED_REGISTER_WRITE (R167): a write to IDENT, to an unused offset, or of an unnamed NUDGE code. -/
def execIgnoredRegisterWrite (_offset : BitVec 8) (_value : BitVec 32) (s : State) : Host.Outcome State Fault Refusal :=
  .next s

/-- ORDER_FETCH (R171, R172). -/
def execOrderFetch (s : State) : Host.Outcome State Fault Refusal := run orderFetch s

/-- STORE_END (R189). -/
def execStoreEnd (verified : Bool) (s : State) : Host.Outcome State Fault Refusal := run (storeEnd verified) s

end Sys2Proof.Machine
end

