-- ==== Sys2Proof/Machine/OrderCommands.lean ====
section
/-! DEFINITION. The orders, one command for each kind (R172): the owner takes its oldest order. -/

namespace Sys2Proof.Machine

/-! ## Exchange unit -/

/-- NOP (R175). -/
def execNop (s : State) : Host.Outcome State Fault Refusal := run (orderRow (some .nop) (fun a o => done a o)) s

/-- READ_STATE (R175). -/
def execReadState (s : State) : Host.Outcome State Fault Refusal := run (orderRow (some .readState) readStateOrder) s

/-- BAD_KIND (R172): a kind value that names no order. -/
def execBadKind (s : State) : Host.Outcome State Fault Refusal :=
  run (orderRow none (fun a o => complete a o.sequence .badKind)) s

/-! ## Port units (R41, R42) -/

/-- A port parameter of an order, taken modulo 4 where it has been found in range. -/
def portOf (n : Nat) : PortIx := ⟨n % 4, Nat.mod_lt _ (by decide)⟩

/-- ARM_PORT (R41). -/
def armOrder (a : Act) (o : Order) : Act :=
  let p := portOf (portParameter o)
  if 3 < portParameter o then badOrder a o 0
  else if (a.s.port p).state ≠ .faulted then complete a o.sequence .wrongState
  else if a.s.store.working.enable.get p then done (changePort p .training .armed a) o
  else done (changePort p .held .hold a) o

/-- HOLD_PORT (R42). With both parameters invalid the detail is the lower index: the model's choice (entry 61). -/
def holdPortOrder (a : Act) (o : Order) : Act :=
  let p := portOf (portParameter o)
  let st := (a.s.port p).state
  if 3 < portParameter o then badOrder a o 0
  else if 1 < holdAction o then badOrder a o 1
  else if holdAction o = 0 then
    if st = .faulted then complete a o.sequence .wrongState else done (holdPort p a) o
  else if st = .held then done (releasePort p a) o
  else complete a o.sequence .wrongState

/-- ARM_PORT. -/
def execArmPort (s : State) : Host.Outcome State Fault Refusal := run (orderRow (some .armPort) armOrder) s

/-- HOLD_PORT. -/
def execHoldPort (s : State) : Host.Outcome State Fault Refusal := run (orderRow (some .holdPort) holdPortOrder) s

/-! ## Roster unit (R76, R78, R80, R81) -/

/-- A LEAVE order in progress ends CANCELLED. -/
def cancelLeave (a : Act) : Act :=
  match a.s.roster.leave with
  | none => a
  | some l => complete (a.on (·.modRoster (fun r => { r with leave := none }))) l.order .cancelled

/-- JOIN (R81). The latches cleared, a part whose silence count has run out and whose rank is above 0 names itself
anchor at once, in an act of its own (R66). That the LEAVE order is completed CANCELLED before the JOIN is completed is the
model's choice (entry 69). -/
def joinOrder (a : Act) (o : Order) : Act :=
  match a.s.roster.standing with
  | .refused | .leaving =>
    let a := rosterPlain (·.modRoster (fun r => { r with refusedLatch := false, leavingLatch := false })) a
    done (cancelLeave (rosterPlain selfAnchor a)) o
  | .member => done a o
  | .unnumbered | .alone | .seeking | .held => complete a o.sequence .wrongState

/-- LEAVE (R80): the latch, the announcement, the closing of the streams; completed at the end of an act. -/
def leaveOrder (a : Act) (o : Order) : Act :=
  match a.s.roster.standing with
  | .unnumbered | .leaving => complete a o.sequence .wrongState
  | .alone | .seeking | .held | .member | .refused =>
    streamsLeave (rosterPlain (beginLeave o.sequence) (a.on (holdOrder · o.sequence)))

/-- What ADMIT does to an entry (R78); its ROLL is offered before its VERDICT (entry 55). -/
def admitEntry (f : FrameNo) (s : State) : State :=
  verdictFor (issueRoster (setEntryState s f .member)) f .admitted .none

/-- What REFUSE does to an entry; a candidate is sent its VERDICT, an expelled frame is not (R78). -/
def refuseEntry (f : FrameNo) (s : State) : State :=
  let candidate := (s.entry f).state == .quarantined
  let s := issueRoster (setEntryState s f .refused)
  if candidate then verdictFor s f .refused .host else s

/-- The entry carries the serial an order expects. -/
def expectedSerial (s : State) (o : Order) (f : FrameNo) : Bool := (s.entry f).serial.toNat == decideSerial o

/-- ADMIT (R78). That orders its change ends are completed before it is the model's choice (entry 69). -/
def admitOrder (a : Act) (o : Order) : Act :=
  let f := frameOf (decideFrame o)
  if decideFrame o = 0 ∨ 31 < decideFrame o then badOrder a o 0
  else if isAnchor a.s = false then complete a o.sequence .notAnchor
  else if expectedSerial a.s o f = false then complete a o.sequence .notHeld
  else
    match (a.s.entry f).state with
    | .quarantined | .refused => done (rosterPlain (admitEntry f) a) o
    | .vacant | .member | .stray | .leaving => complete a o.sequence .notHeld

/-- REFUSE (R78). The anchor's own number with another serial meets two rows of the table: that it answers WRONG_STATE is
the model's choice (entry 47), as is that orders its change ends are completed before it (entry 69). -/
def refuseOrder (a : Act) (o : Order) : Act :=
  let f := frameOf (decideFrame o)
  if decideFrame o = 0 ∨ 31 < decideFrame o then badOrder a o 0
  else if isAnchor a.s = false then complete a o.sequence .notAnchor
  else if f = a.s.own then complete a o.sequence .wrongState
  else if expectedSerial a.s o f = false then complete a o.sequence .notHeld
  else
    match (a.s.entry f).state with
    | .quarantined | .member | .stray => done (rosterPlain (refuseEntry f) a) o
    | .vacant | .leaving | .refused => complete a o.sequence .notHeld

/-- JOIN. -/
def execJoin (s : State) : Host.Outcome State Fault Refusal := run (orderRow (some .join) joinOrder) s

/-- LEAVE. -/
def execLeave (s : State) : Host.Outcome State Fault Refusal := run (orderRow (some .leave) leaveOrder) s

/-- ADMIT. -/
def execAdmitFrame (s : State) : Host.Outcome State Fault Refusal := run (orderRow (some .admitFrame) admitOrder) s

/-- REFUSE. -/
def execRefuse (s : State) : Host.Outcome State Fault Refusal := run (orderRow (some .refuse) refuseOrder) s

/-- SET_FILTER (R76). -/
def execSetFilter (s : State) : Host.Outcome State Fault Refusal := run (orderRow (some .setFilter) filterOrder) s

/-! ## Trigger unit (R114, R115) -/

/-- A lane parameter of an order, taken modulo 16 where it has been found in range. -/
def laneOf (n : Nat) : LaneIx := ⟨n % 16, Nat.mod_lt _ (by decide)⟩

/-- The results of SCHEDULE_TRIGGER: the trigger sequence and the local insertion result. -/
def scheduleResult (t : Trigger) (j : Insertion) : List Byte := leBytes 2 t.sequence.toNat ++ leBytes 1 (insertionCode j)

/-- SCHEDULE_TRIGGER (R114). -/
def scheduleOrder (a : Act) (o : Order) : Act :=
  let k := laneOf (scheduleLane o)
  let fire : Time := BitVec.ofNat 64 (scheduleTime o)
  if 15 < scheduleLane o then badOrder a o 0
  else if noSync a.s then complete a o.sequence .noTime
  else if fire.toNat < a.s.tb.rackTime.toNat + leadTime (laneSettings a.s k) then complete a o.sequence .tooSoon 1
  else
    let t := ownTrigger a.s k fire
    let j := judgeInsertion a.s t
    done (makeTrigger a k fire (a.s.own != 0)) o (scheduleResult t j)

/-- An entry of this part's own making, by its sequence. -/
def isOwnTrigger (s : State) (sequence : Nat) (t : Trigger) : Bool :=
  t.origin == s.own && t.sequence.toNat == sequence

/-- CANCEL_TRIGGER (R115). Where two entries of the own origin carry the sequence, the first in Schedule order is removed:
the model's choice (entry 56). -/
def cancelOrder (a : Act) (o : Order) : Act :=
  let own := isOwnTrigger a.s (cancelSequence o)
  if a.s.trig.schedule.any own then
    done (a.on (·.modTrig (fun u => { u with
      schedule := u.schedule.eraseP own
      counters := { u.counters with cancelled := u.counters.cancelled + 1 } }))) o
  else complete a o.sequence .notHeld

/-- SCHEDULE_TRIGGER. -/
def execScheduleTrigger (s : State) : Host.Outcome State Fault Refusal :=
  run (orderRow (some .scheduleTrigger) scheduleOrder) s

/-- CANCEL_TRIGGER. -/
def execCancelTrigger (s : State) : Host.Outcome State Fault Refusal :=
  run (orderRow (some .cancelTrigger) cancelOrder) s

/-! ## Note path and settings store -/

/-- SEND_NOTE (R161). -/
def execSendNote (s : State) : Host.Outcome State Fault Refusal := run (orderRow (some .sendNote) noteOrder) s

/-- SET_SETTINGS (R187). -/
def execSetSettings (s : State) : Host.Outcome State Fault Refusal := run (orderRow (some .setSettings) settingsOrder) s

/-- STORE_SETTINGS (R189). -/
def execStoreSettings (s : State) : Host.Outcome State Fault Refusal := run (orderRow (some .storeSettings) storeOrder) s

end Sys2Proof.Machine
end

