-- ==== Sys2Proof/Machine/StreamOrders.lean ====
section
/-! DEFINITION. The stream orders: OPEN_STREAM (R120 to R122), CLOSE_STREAM (R138, R139), HALT_STREAM and RESUME_STREAM
(R131, R157, R158). -/

namespace Sys2Proof.Machine

/-! ## OPEN_STREAM -/

/-- The order opens a source. -/
def opensSource (o : Order) : Bool := openRole o == roleCode .source

/-- The index of the first invalid parameter of an OPEN_STREAM, if any (R120). -/
def openBadParameter (s : State) (o : Order) : Option Nat :=
  if 63 < openSlot o then some 0
  else if 1 < openRole o then some 1
  else if openPeer o = 0 ∨ 31 < openPeer o ∨ openPeer o = s.own.val then some 2
  else if blockSizeOk (openBlockSize o) = false then some 4
  else if opensSource o = true ∧ paceOk (openPace o) = false then some 5
  else if opensSource o = true ∧ 2 < openGateKind o then some 6
  else if opensSource o = true ∧ openGateKind o = 2 ∧ 15 < openGateValue o then some 7
  else if openInterval o = 0 ∨ 64 < openInterval o then some 8
  else if openChain o = 0 then some 10
  else none

/-- Another slot that is not CLOSED holds the identity the order asks for: for a source its tag, for a sink its peer and
tag. -/
def identityInUse (s : State) (o : Order) : Bool :=
  allSlots.any (fun n =>
    let x := s.slot n
    n != slotOf (openSlot o) && x.state != .closed && x.tag.toNat == openTag o
      && (if opensSource o then x.role == .source else x.role == .sink && x.peer.val == openPeer o))

/-- The outcome of the checks behind the parameters, when one fails (R120). -/
def openCheck (s : State) (o : Order) : Option Outcome :=
  let peer := frameOf (openPeer o)
  if (s.slot (slotOf (openSlot o))).state ≠ .closed then some .slotBusy
  else if identityInUse s o then some .inUse
  else if s.roster.standing ≠ .member then some .notMember
  else if opensSource o = true ∧ (copyMember s peer = false ∨ (s.route peer).isNone = true) then some .unreachable
  else none

/-- The start gate an order names. -/
def gateOf (o : Order) : Gate :=
  if openGateKind o = 1 then .atTime (BitVec.ofNat 64 (openGateValue o))
  else if openGateKind o = 2 then .onLane (laneOf (openGateValue o))
  else .now

/-- The slot of a new opening: its fields from the order's parameters, its open number and counters kept (R120, R145). -/
def openedSlot (o : Order) (x : Slot) : Slot :=
  { Slot.reset with
    role := if opensSource o then .source else .sink
    tag := BitVec.ofNat 16 (openTag o)
    peer := frameOf (openPeer o)
    openNumber := x.openNumber
    blockSize := openBlockSize o
    pace := if opensSource o then openPace o else 0
    gate := if opensSource o then gateOf o else .now
    interval := openInterval o
    lateness := if opensSource o then 0 else openLateness o
    chainHead := BitVec.ofNat 64 (openChain o)
    nextRecord := some (BitVec.ofNat 64 (openChain o))
    releaseMark := BitVec.allOnes 32
    counters := x.counters }

/-- A sink is OFFERED (R121). -/
def openSink (a : Act) (o : Order) (n : SlotIx) : Act :=
  done (setSlotState (a.on (·.modSlot n (fun x => { openedSlot o x with openAbsent := true }))) n .offered .offered) o

/-- The slot of a source that begins to open (R122). -/
def openingSlot (now : Nat) (o : Order) (x : Slot) : Slot :=
  { openedSlot o x with
    openNumber := x.openNumber + 1, openOrder := some o.sequence, openSince := now, lastOpen := now }

/-- A source is OPENING, and sends its first OPEN (R122). -/
def openSource (a : Act) (o : Order) (n : SlotIx) : Act :=
  let a := a.on (fun s => (holdOrder s o.sequence).modSlot n (openingSlot s.now o))
  (setSlotState a n .opening .opening).on (sendOpen · n)

/-- OPEN_STREAM (R120). -/
def openOrder (a : Act) (o : Order) : Act :=
  match openBadParameter a.s o with
  | some i => badOrder a o i
  | none =>
    match openCheck a.s o with
    | some r => complete a o.sequence r
    | none => if opensSource o then openSource a o (slotOf (openSlot o)) else openSink a o (slotOf (openSlot o))

/-! ## CLOSE_STREAM -/

/-- CLOSE_STREAM FINISH of a slot (R138). That an open order is completed CANCELLED before this order is the model's choice
(entry 69). -/
def finishSlot (a : Act) (o : Order) (n : SlotIx) : Act :=
  let x := a.s.slot n
  match x.role, x.state with
  | .source, .opening => done (closeOpening a n .cancelled .cancelled) o
  | .source, .armed | .source, .flowing | .source, .timeheld | .source, .halted | .source, .stranded =>
    drainFinish (a.on (fun s =>
      (holdOrder s o.sequence).modSlot n (fun x => { x with finishOrder := some o.sequence }))) n
  | _, _ => complete a o.sequence .wrongState

/-- CLOSE_STREAM ABORT of a slot (R139). That the slot's own orders are completed CANCELLED before this one is the model's
choice (entry 69). -/
def abortSlot (a : Act) (o : Order) (n : SlotIx) : Act :=
  match (a.s.slot n).state with
  | .closed => complete a o.sequence .wrongState
  | .opening => done (closeOpening a n .cancelled .cancelled) o
  | _ => done (closeSlot a n .closed true) o

/-- CLOSE_STREAM. With both parameters invalid the detail is the lower index: the model's choice (entry 61). -/
def closeOrder (a : Act) (o : Order) : Act :=
  let n := slotOf (streamSlotParameter o)
  if 63 < streamSlotParameter o then badOrder a o 0
  else if 1 < closeMode o then badOrder a o 1
  else if closeMode o = 0 then finishSlot a o n
  else abortSlot a o n

/-! ## HALT_STREAM and RESUME_STREAM (R131) -/

/-- The slot is CLOSED, OFFERED or OPENING. -/
def notOpened (x : Slot) : Bool := x.state == .closed || x.state == .offered || x.state == .opening

/-- HALT_STREAM. -/
def haltOrder (a : Act) (o : Order) : Act :=
  let n := slotOf (streamSlotParameter o)
  let x := a.s.slot n
  if 63 < streamSlotParameter o then badOrder a o 0
  else if notOpened x then complete a o.sequence .wrongState
  else if x.selfHalt then done a o
  else
    let a := a.on (fun s => sendHalt (s.modSlot n (fun x => { x with selfHalt := true, lastHalt := s.now })) n true)
    done (settle a n .halt) o

/-- The block numbers of a sink's FAULTED records, in chain order. -/
def faultedBlocks (x : Slot) : List (BitVec 32) :=
  x.fetched.filterMap (fun r => if r.stage = .faulted then r.number else none)

/-- A FAULTED record takes the held outcome DAMAGED, LATE judged as at every completion (R154), and its BLOCKACK is
sent (R158). That no GAP is counted, even where no cell was taken, and that the BLOCKACK is offered before the completion
is written, are the model's choices (entries 58 and 67). -/
def damageFaulted (n : SlotIx) (a : Act) (b : BitVec 32) : Act :=
  a.on (fun s => sendAck (s.modSlot n (finishRec b .damaged)) n b .damaged)

/-- A fetch that stopped on a memory fault is made again (R157). -/
def retryFault (a : Act) (n : SlotIx) : Act :=
  if (a.s.slot n).stop = some .memoryFault then retryStop a n else a

/-- What clearing the self halt lets go on: FAULTED blocks take their outcome, held outcomes are completed, a faulted read
is made again (R157, R158). Their order is the model's choice (entry 60). The completion is made once: as the retry of a
write that had faulted, or for the outcomes just taken; where it faults now it waits for the next NUDGE or
RESUME_STREAM. -/
def resumeAccess (a : Act) (n : SlotIx) : Act :=
  let blocks := faultedBlocks (a.s.slot n)
  let a := a.each blocks (damageFaulted n)
  let a := if (a.s.slot n).writeStop = true ∨ blocks = [] then retryWrite a n else (completeHeld a n).1
  let a := retryFault a n
  if blocks = [] then a else closeIfDrained a n

/-- RESUME_STREAM. -/
def resumeOrder (a : Act) (o : Order) : Act :=
  let n := slotOf (streamSlotParameter o)
  let x := a.s.slot n
  if 63 < streamSlotParameter o then badOrder a o 0
  else if notOpened x then complete a o.sequence .wrongState
  else if x.selfHalt = false then complete a o.sequence .wrongState
  else
    let a := a.on (fun s => sendHalt (s.modSlot n (fun x => { x with selfHalt := false })) n false)
    done (resumeAccess (settle a n .resumed) n) o

/-! ## The commands -/

/-- OPEN_STREAM. -/
def execOpenStream (s : State) : Host.Outcome State Fault Refusal := run (orderRow (some .openStream) openOrder) s

/-- CLOSE_STREAM. -/
def execCloseStream (s : State) : Host.Outcome State Fault Refusal := run (orderRow (some .closeStream) closeOrder) s

/-- HALT_STREAM. -/
def execHaltStream (s : State) : Host.Outcome State Fault Refusal := run (orderRow (some .haltStream) haltOrder) s

/-- RESUME_STREAM. -/
def execResumeStream (s : State) : Host.Outcome State Fault Refusal := run (orderRow (some .resumeStream) resumeOrder) s

end Sys2Proof.Machine
end

