-- ==== Sys2Proof/Machine/Dispatch.lean ====
section
/-! DEFINITION. What each command does: one arm for each constructor of Instr, one call of its meaning. -/

namespace Sys2Proof.Machine

/-- The effect of a command on everything but the queue. -/
def exec (i : Instr) (s : State) : Host.Outcome State Fault Refusal :=
  match i with
  | .deviceReset => Sys2Proof.Machine.execDeviceReset s
  | .resetInputAsserted => Sys2Proof.Machine.execResetInputAsserted s
  | .wakeInterval p => Sys2Proof.Machine.execWakeInterval p s
  | .wakeReceived p => Sys2Proof.Machine.execWakeReceived p s
  | .noise p => Sys2Proof.Machine.execNoise p s
  | .quiet p => Sys2Proof.Machine.execQuiet p s
  | .symbolLock p => Sys2Proof.Machine.execSymbolLock p s
  | .lossOfSignal p what => Sys2Proof.Machine.execLossOfSignal p what s
  | .timeout p => Sys2Proof.Machine.execTimeout p s
  | .probeTimer p => Sys2Proof.Machine.execProbeTimer p s
  | .silent p => Sys2Proof.Machine.execSilent p s
  | .erroneousCell p raw => Sys2Proof.Machine.execErroneousCell p raw s
  | .probe rx => Sys2Proof.Machine.execProbe rx s
  | .echo rx => Sys2Proof.Machine.execEcho rx s
  | .time rx => Sys2Proof.Machine.execTime rx s
  | .trig rx => Sys2Proof.Machine.execTrig rx s
  | .beacon rx => Sys2Proof.Machine.execBeacon rx s
  | .roll rx => Sys2Proof.Machine.execRoll rx s
  | .hello rx => Sys2Proof.Machine.execHello rx s
  | .verdict rx => Sys2Proof.Machine.execVerdict rx s
  | .leaveCell rx => Sys2Proof.Machine.execLeaveCell rx s
  | .openCell rx => Sys2Proof.Machine.execOpenCell rx s
  | .openAnswer rx => Sys2Proof.Machine.execOpenAnswer rx s
  | .credit rx => Sys2Proof.Machine.execCredit rx s
  | .blockack rx => Sys2Proof.Machine.execBlockack rx s
  | .halt rx => Sys2Proof.Machine.execHalt rx s
  | .close rx => Sys2Proof.Machine.execClose rx s
  | .data rx => Sys2Proof.Machine.execData rx s
  | .note rx => Sys2Proof.Machine.execNote rx s
  | .noteAnswer rx => Sys2Proof.Machine.execNoteAnswer rx s
  | .relay k rx => Sys2Proof.Machine.execRelay k rx s
  | .arbiterDecision p => Sys2Proof.Machine.execArbiterDecision p s
  | .dataCellSent p => Sys2Proof.Machine.execDataCellSent p s
  | .periodTimer => Sys2Proof.Machine.execPeriodTimer s
  | .anchorSilence => Sys2Proof.Machine.execAnchorSilence s
  | .helloTimer => Sys2Proof.Machine.execHelloTimer s
  | .rollTimer => Sys2Proof.Machine.execRollTimer s
  | .windowDeadline => Sys2Proof.Machine.execWindowDeadline s
  | .strayDeadline f => Sys2Proof.Machine.execStrayDeadline f s
  | .leaveLimit => Sys2Proof.Machine.execLeaveLimit s
  | .emissionTimer => Sys2Proof.Machine.execEmissionTimer s
  | .timeWatch => Sys2Proof.Machine.execTimeWatch s
  | .holdoverLimit => Sys2Proof.Machine.execHoldoverLimit s
  | .enabledEdge k => Sys2Proof.Machine.execEnabledEdge k s
  | .inputDeasserted k => Sys2Proof.Machine.execInputDeasserted k s
  | .holdLimit k => Sys2Proof.Machine.execHoldLimit k s
  | .unmuteTimer k => Sys2Proof.Machine.execUnmuteTimer k s
  | .firing => Sys2Proof.Machine.execFiring s
  | .pulseEnd k => Sys2Proof.Machine.execPulseEnd k s
  | .openRepeat n => Sys2Proof.Machine.execOpenRepeat n s
  | .openLimit n => Sys2Proof.Machine.execOpenLimit n s
  | .startGate n => Sys2Proof.Machine.execStartGate n s
  | .pacePoint n => Sys2Proof.Machine.execPacePoint n s
  | .creditPeriod n => Sys2Proof.Machine.execCreditPeriod n s
  | .haltRepeat n => Sys2Proof.Machine.execHaltRepeat n s
  | .strandDeadline n => Sys2Proof.Machine.execStrandDeadline n s
  | .closeDeadline n => Sys2Proof.Machine.execCloseDeadline n s
  | .acknowledgementTimer n block => Sys2Proof.Machine.execAcknowledgementTimer n block s
  | .blockRecordFetch n => Sys2Proof.Machine.execBlockRecordFetch n s
  | .blockStart n => Sys2Proof.Machine.execBlockStart n s
  | .answerTimer number => Sys2Proof.Machine.execAnswerTimer number s
  | .waitingNoteTaken => Sys2Proof.Machine.execWaitingNoteTaken s
  | .baseLo value => Sys2Proof.Machine.execBaseLo value s
  | .baseHi value => Sys2Proof.Machine.execBaseHi value s
  | .nudgeOrderChain => Sys2Proof.Machine.execNudgeOrderChain s
  | .nudgeBlockChain n => Sys2Proof.Machine.execNudgeBlockChain n s
  | .nudgeRescan => Sys2Proof.Machine.execNudgeRescan s
  | .line value => Sys2Proof.Machine.execLine value s
  | .ignoredRegisterWrite offset value => Sys2Proof.Machine.execIgnoredRegisterWrite offset value s
  | .orderFetch => Sys2Proof.Machine.execOrderFetch s
  | .nop => Sys2Proof.Machine.execNop s
  | .readState => Sys2Proof.Machine.execReadState s
  | .armPort => Sys2Proof.Machine.execArmPort s
  | .holdPort => Sys2Proof.Machine.execHoldPort s
  | .join => Sys2Proof.Machine.execJoin s
  | .leave => Sys2Proof.Machine.execLeave s
  | .admitFrame => Sys2Proof.Machine.execAdmitFrame s
  | .refuse => Sys2Proof.Machine.execRefuse s
  | .setFilter => Sys2Proof.Machine.execSetFilter s
  | .scheduleTrigger => Sys2Proof.Machine.execScheduleTrigger s
  | .cancelTrigger => Sys2Proof.Machine.execCancelTrigger s
  | .openStream => Sys2Proof.Machine.execOpenStream s
  | .closeStream => Sys2Proof.Machine.execCloseStream s
  | .haltStream => Sys2Proof.Machine.execHaltStream s
  | .resumeStream => Sys2Proof.Machine.execResumeStream s
  | .sendNote => Sys2Proof.Machine.execSendNote s
  | .setSettings => Sys2Proof.Machine.execSetSettings s
  | .storeSettings => Sys2Proof.Machine.execStoreSettings s
  | .badKind => Sys2Proof.Machine.execBadKind s
  | .storeEnd verified => Sys2Proof.Machine.execStoreEnd verified s
  | .resynchronisation p => Sys2Proof.Machine.execResynchronisation p s
  | .signalPresent p => Sys2Proof.Machine.execSignalPresent p s

end Sys2Proof.Machine
end

