-- ==== Sys2Proof/Machine/Step.lean ====
section
/-! DEFINITION. One step: the command at the front of the queue, or, with none waiting, a tick of the clock (entry 1). -/

namespace Sys2Proof.Machine

/-- With no command waiting 1 ns passes, unless the reset input is asserted (entry 1). -/
def tick (s : State) : State := if s.inReset then s else advance s 1

/-- A step: the front command is taken from the queue and runs on the state with the queue's rest. -/
def step (s : State) : Host.Outcome State Fault Refusal :=
  match s.pending with
  | [] => .next (tick s)
  | c :: rest => exec c { s with pending := rest }

/-- The command a table word spells, put at the front of the queue; the table gives no row a word, so the state is
unchanged. -/
def State.withFetchWord (s : State) (nbits w : Nat) : State :=
  match decodeTableWord nbits w with
  | some c => { s with pending := c :: s.pending }
  | none => s

end Sys2Proof.Machine
end

