-- ==== Sys2Proof/Safety.lean ====
section
/-! DEFINITION. What a run may rely on: the invariants of a step, and what the delivery of an act's posts leaves as it
is. -/

namespace Sys2Proof.Machine

/-- A state from which the machine goes on: it neither faults nor refuses. -/
def Safe (s : State) : Prop := ∃ t, step s = .next t

/-- Host memory is in its canonical form. -/
def MemoryOk (s : State) : Prop := s.mem.wf = true

/-- `t` is `u` but for what the delivery of notices and mirrors may touch: the exchange unit, host memory, and, on
entering BROKEN, the streams with the CLOSE cells they send, the notes, and the orders of a LEAVE and a store (R176,
R180 to R182). -/
def Delivers (u t : State) : Prop :=
  { t with
    ex := u.ex
    mem := u.mem
    notes := u.notes
    links := u.links
    stream := u.stream
    roster := { t.roster with leave := u.roster.leave }
    store := { t.store with storing := u.store.storing } } = u

/-- `t` is `u` but for the exchange unit and host memory. -/
def OnlyExchange (u t : State) : Prop := { t with ex := u.ex, mem := u.mem } = u

/-- A port's queues are within their capacities (R14). -/
def LinkOk (l : Link) : Prop :=
  l.tQueue.length ≤ tCapacity ∧ l.cQueue.length ≤ cCapacity ∧ l.dQueue.length ≤ dCapacity

/-- The queues of every port, the order window, the Trigger Schedule and the note window are within their capacities
(R14, R171, R103, R160). -/
structure WithinCapacity (s : State) : Prop where
  queues : ∀ p, LinkOk (s.link p)
  orders : s.ex.window.length ≤ orderCapacity
  schedule : s.trig.schedule.length ≤ scheduleCapacity
  notes : s.notes.window.length ≤ noteCapacity

/-- What every step keeps: memory in its canonical form and every bounded store within its capacity. -/
structure Inv (s : State) : Prop where
  memory : MemoryOk s
  capacity : WithinCapacity s

/-- What no command but a device reset or the reset input changes: the identity and incarnation of the part, its pins'
reset input, the regions of memory that fault, the waiting commands; the clock does not go back, and the invariant
holds on. -/
structure Keeps (s t : State) : Prop where
  inReset : t.inReset = s.inReset
  pending : t.pending = s.pending
  identity : t.store.identity = s.store.identity
  incarnation : t.store.incarnation = s.store.incarnation
  readFaults : t.mem.readFaults = s.mem.readFaults
  writeFaults : t.mem.writeFaults = s.mem.writeFaults
  clock : s.now ≤ t.now
  inv : Inv s → Inv t

end Sys2Proof.Machine
end

