-- ==== Sys2Proof/WellFormed.lean ====
section
/-! DEFINITION. Which terms name a command that can occur: a cell that the receive stage hands on as good, symbols that
it rejects, a write that the register window ignores. -/

namespace Sys2Proof

open Sys2Proof.Machine

/-- A received cell passes the tests of the receive stage (R5, R6). -/
def cellWf (k : Kind) (rx : Rx) : Bool := (rxError k rx).isNone

/-- A cell is routed (R8): its destination is a frame. -/
def isRouted (rx : Rx) : Bool := decide (1 ≤ rx.dest.toNat ∧ rx.dest.toNat ≤ 31)

/-- The NUDGE code names something (R167). -/
def nudgeNamed (code : Nat) : Bool := code == 0 || decide (0x100 ≤ code ∧ code ≤ 0x13F) || code == 0x200

/-- A write of the register window is ignored (R167): it names no register that takes writes, or it is a NUDGE of an
unnamed code. -/
def writeIgnored (offset : BitVec 8) (value : BitVec 32) : Bool :=
  if offset = 0x10 then !nudgeNamed (value.toNat % 2 ^ 16)
  else offset != 0x08 && offset != 0x0C && offset != 0x14

/-- A command that can occur. -/
def Instr.wf : Instr → Bool
  | .erroneousCell _ raw => (rawError raw).isSome
  | .probe rx => cellWf .probe rx
  | .echo rx => cellWf .echo rx
  | .time rx => cellWf .time rx
  | .trig rx => cellWf .trig rx
  | .beacon rx => cellWf .beacon rx
  | .roll rx => cellWf .roll rx
  | .hello rx => cellWf .hello rx
  | .verdict rx => cellWf .verdict rx
  | .leaveCell rx => cellWf .leaveCell rx
  | .openCell rx => cellWf .openCell rx
  | .openAnswer rx => cellWf .openAnswer rx
  | .credit rx => cellWf .credit rx
  | .blockack rx => cellWf .blockack rx
  | .halt rx => cellWf .halt rx
  | .close rx => cellWf .close rx
  | .data rx => cellWf .data rx
  | .note rx => cellWf .note rx
  | .noteAnswer rx => cellWf .noteAnswer rx
  | .relay k rx => cellWf k rx && isRouted rx
  | .strayDeadline f => f != 0
  | .ignoredRegisterWrite offset value => writeIgnored offset value
  | _ => true

end Sys2Proof
end

