-- ==== Sys2Proof/Certificates/Slice0/Obligations.lean ====
section
/-! DEFINITION. The statements for the provers. A statement of what a command does gives the act the command makes: the
state reached, every field it does not name as before, and what is posted to the exchange unit; `finish` ends the act,
and what `finish` can change is stated by itself. -/

open Sys2Proof Sys2Proof.Machine

namespace Sys2Proof.Statements

/-- The command, run at `s`, ends as the act `a` ends: a LEAVE order is judged and what was posted is delivered. -/
def Ends (c : Instr) (s : State) (a : Act) : Prop := exec c s = .next (finish a)

/-- The command, run at `s`, is one act that makes of `s` the state `u` and posts `posts`. -/
def Acts (c : Instr) (s u : State) (posts : List Post) : Prop := Ends c s ⟨u, posts⟩

/-- What a change of port `p` posts: its mirror entry, then its notice with a transition count of 1 (R21). -/
def portReport (p : PortIx) (st : PortState) (cause : PortCause) : List Post :=
  [.mirror (.port p), .notice (.port p st cause 1)]

/-- The neighbour record and receive stage of a port that enters TRAINING at a moment (R25). -/
def trainingRecord (now : Nat) (cause : PortCause) (r : Port) : Port :=
  { r with
    state := .training, cause := cause, health := 0, settling := 0
    partnerSerial := 0, partnerFrame := 0, partnerPort := 0, partnerIncarnation := 0
    samples := [], outstanding := none, rxStage := .ignoring 0, trips := 0, lastNull := false, lock := false
    noiseSince := none, quietSince := none, trainingSince := some now, lastProbe := none, silenceSince := none }

/-- A port that enters DARK at a moment: one burst, the noise count from that moment where signal is present without lock
(R22, R23; that signal from before it does not count is the model's choice, log entry 63). -/
def darkRecord (now : Nat) (cause : PortCause) (r : Port) : Port :=
  { r with
    state := .dark, cause := cause, bursts := r.bursts + 1, lastBurst := now
    noiseSince := if r.signal && !r.lock then some now else none
    quietSince := none, trainingSince := none, lastProbe := none }

/-- What a slot that changes state posts (R156). -/
def slotReport (n : SlotIx) : List Post := [.status n, .notice (.streams (bit 64 n.val))]

/-- What an act posts for a slot that changes state, once however often it does. -/
def slotPosts (ps : List Post) (n : SlotIx) : List Post :=
  if ps.contains (.notice (.streams (bit 64 n.val))) then ps else ps ++ slotReport n

/-- The slot of a state replaced. -/
def setSlot (s : State) (n : SlotIx) (x : Slot) : State := s.modSlot n (fun _ => x)

/-- A slot whose block in progress is cut off at a moment (R151): its sending ends with the cut-off flag. -/
def cutBlock (now : Nat) (x : Slot) : Slot :=
  match x.sending with
  | none => x
  | some d =>
    let cut (r : Rec) : Rec :=
      if r.number = some d.block then { r with stage := .sent, cutOff := true, ackSince := some now } else r
    { x with
      fetched := x.fetched.map cut, endBlock := x.endBlock.map cut, sending := none, offer := none
      counters := { x.counters with cutOff := x.counters.cutOff + 1 } }

/-- A slot takes a state with a cause, and the act posts it (R117, R156). -/
def movedSlot (s : State) (ps : List Post) (n : SlotIx) (x : Slot) (st : StreamState) (cause : StreamCause) : Act :=
  ⟨setSlot s n { x with state := st, cause := cause, sinceNotice := 0 }, slotPosts ps n⟩

/-- Every slot of `s` that is not CLOSED is closed in `t` for the exchange (R142), its block cut off and no Block Record
completed; each but an OFFERED one sends its CLOSE, in ascending slot number (the model's choice, log entry 66). -/
def ClosedForExchange (s t : State) (cause : StreamCause) (reason : CloseReason) : Prop :=
  (∀ n, let x := s.slot n
    let y := cutBlock s.now x
    t.slot n = if x.state = .closed then x else { y with
      state := .closed, cause := cause, strandDeadline := none, closeDeadline := none, openOrder := none
      finishOrder := none, drainMode := none, fetched := [], endBlock := none, nextRecord := none, stop := none
      fetchEnded := true, writeStop := false, sending := none, offer := none
      counters := if x.state ≠ .offered ∧ s.route x.peer = none then
        { y.counters with unsent := y.counters.unsent + 1 } else y.counters }) ∧
  t.links = ((List.finRange 64).foldl (fun v n =>
    let x := s.slot n
    if x.state = .closed ∨ x.state = .offered then v else match s.route x.peer with
      | none => v
      | some r => offer v r.port ⟨ownCell s .close x.peer.val
          (closePayload x.tag x.openNumber (if x.role = .source then 0 else 1) reason), none⟩) s).links

/-- A snapshot of a kind (R194): its head, then its items, each a width to which it is aligned from the snapshot's start
and its bytes, then zeros up to the kind's length. -/
def laidOut (k : SnapshotKind) (items : List (Nat × List Byte)) : List Byte :=
  padTo (snapshotLength k) (items.foldl (fun b x => padTo ((b.length + x.1 - 1) / x.1 * x.1) b ++ x.2)
    (leBytes 1 (snapshotKindCode k) ++ leBytes 1 1 ++ zeros 2 ++ leBytes 4 (snapshotLength k)))

/-- A snapshot's item of a width. -/
def item (width value : Nat) : Nat × List Byte := (width, leBytes width value)

/-- A snapshot's counters, 4 bytes each. -/
def countItems (cs : List Count) : Nat × List Byte := (4, cs.flatMap (fun c => leBytes 4 c.toNat))

/-- What leaving UP does to the record (R39). -/
def leftUp (r : Port) : Port := { r with silenceSince := none, outstanding := none, attempts := 0 }

end Sys2Proof.Statements

open Sys2Proof.Statements

/-! ## The machine -/

/-- A step takes the front command and runs it on the state with the queue's rest. -/
def Obligations.StepRunsFrontCommand : Prop :=
  ∀ (c : Instr) (q : List Instr) (s : State), s.pending = c :: q → step s = exec c { s with pending := q }

/-- With no command waiting a step is 1 ns of the clock, and nothing at all while the reset input is asserted (the
model's choice, log entry 1). What passing time does (R85): the clock and rack time advance as much, a correction is
worked off at 1 ns in 100,000 ns until none is left, and nothing else changes; the residue of the slew is the model's
(log entry 10). A timer's moment is reached by as much time as is missing, a rack time after the least time that
reaches it. Every command answers a next state, and leaves the commands that wait as they are. -/
def Obligations.IdleStepAndAnswers : Prop :=
  (∀ s : State, s.pending = [] →
     (s.inReset = true → step s = .next s) ∧ (s.inReset = false → step s = .next (advance s 1))) ∧
  (∀ (s : State) (d : Nat),
     let whole := (s.tb.slewResidue + d) / 100000
     let part : Int := if 0 ≤ s.tb.correction then min s.tb.correction whole else max s.tb.correction (-(whole : Int))
     advance s d = { s with
       now := s.now + d
       tb := { s.tb with
         rackTime := s.tb.rackTime + BitVec.ofNat 64 d + BitVec.ofInt 64 part
         correction := s.tb.correction - part
         slewResidue := (s.tb.slewResidue + d) % 100000 } }) ∧
  (∀ (s : State) (moment : Nat), advanceTo s moment = advance s (moment - s.now)) ∧
  (∀ s : State, s.tb.slewResidue < 100000 → advance s 0 = s) ∧
  (∀ (s : State) (t : Time), s.tb.slewResidue < 100000 → t.toNat + 1 < 2 ^ 64 →
     let u := advanceToRack s t
     t.toNat ≤ u.tb.rackTime.toNat ∧ u = advance s (u.now - s.now) ∧
     ∀ d, s.now + d < u.now → (advance s d).tb.rackTime.toNat < t.toNat) ∧
  (∀ (c : Instr) (s : State), ∃ t, exec c s = .next t ∧ t.pending = s.pending)

/-- The invariant holds right after reset. -/
def Obligations.InvariantAtReset : Prop := Inv State.reset

/-- Every step keeps host memory in its canonical form, every port queue within its capacity (R14), and the order window,
the note window and the Trigger Schedule within theirs (R171, R160, R103). What bounds the fetched list and the unresolved
blocks of a stream slot is not part of this invariant. -/
def Obligations.InvariantKeptByEveryStep : Prop :=
  ∀ s t : State, Inv s → step s = .next t → Inv t

/-- The receive stage finds a cell that fits good in its own bytes on the line, and reads every field of it back.
Those bytes: the 16 header bytes, each field at its place, the payload and the check (R1; 12, Cells). The check (R3)
is the remainder by the polynomial 0x04C11DB7 over header and payload, each byte least significant bit first, from a
register of all ones, complemented; a known value of it. The codes of the cell kinds (R191), and the bytes of each
payload as its origin writes it (12, Cells). -/
def Obligations.CellBytesReadBack : Prop :=
  (∀ c : Cell, c.payload.length ≤ 256 → headerFits c.kind c.dest.toNat c.origin.val = true →
    rawError ⟨lineBytes c, .endDelimiter⟩ = none ∧ readCell (lineBytes c) = some c) ∧
  (∀ c : Cell,
    let head : List Byte := beBytes 1 (kindCode c.kind) ++ beBytes 1 c.origin.val ++ beBytes 1 c.dest.toNat ++
      beBytes 1 c.hops.val ++ beBytes 2 c.payload.length ++ beBytes 2 c.incarnation.toNat ++ beBytes 2 c.floodSeq.toNat ++
      zeros 2 ++ beBytes 4 c.word.toNat
    lineBytes c = head ++ c.payload ++ beBytes 4 (crc (head ++ c.payload)).toNat) ∧
  (let next (r : BitVec 32) (bit : Bool) : BitVec 32 :=
    if r.getLsbD 31 != bit then (r <<< 1) ^^^ 0x04C11DB7#32 else r <<< 1
   (∀ bs : List Byte, crc bs = ~~~((bs.flatMap (fun b => (List.range 8).map b.getLsbD)).foldl next 0xFFFFFFFF#32)) ∧
   crc [0x31, 0x32, 0x33, 0x34, 0x35, 0x36, 0x37, 0x38, 0x39] = 0x649C2FD3#32) ∧
  [Kind.probe, .echo, .time, .trig, .beacon, .roll, .hello, .verdict, .leaveCell, .openCell, .openAnswer, .credit, .blockack,
    .halt, .close, .data, .note, .noteAnswer].map kindCode = List.range' 1 18 ∧
  (∀ (z : Serial) (p : PortIx) (i : BitVec 8) (v : Time),
    probePayload z p i = beBytes 6 z.toNat ++ beBytes 1 p.val ++ beBytes 1 i.toNat ∧
    echoPayload i v = beBytes 1 i.toNat ++ zeros 3 ++ beBytes 8 v.toNat) ∧
  (∀ (f : FrameNo) (d q : Nat) (k : LaneIx) (i : BitVec 16) (v : Time),
    timePayload f d q v = beBytes 1 f.val ++ beBytes 1 d ++ beBytes 1 q ++ zeros 1 ++ beBytes 8 v.toNat ∧
    trigPayload k q i v = beBytes 1 k.val ++ beBytes 1 q ++ beBytes 2 i.toNat ++ beBytes 8 v.toNat) ∧
  (∀ (z : Serial) (c : BitVec 16) (b : BitVec 32) (f m e : FrameNo) (j : Bool) (p : Nat), helloPayload z c b f m j e p =
    beBytes 6 z.toNat ++ beBytes 2 c.toNat ++ beBytes 4 b.toNat ++ beBytes 1 f.val ++ beBytes 1 m.val ++
      beBytes 1 (flagCode j) ++ beBytes 1 e.val ++ beBytes 1 p ++ zeros 3) ∧
  (∀ (z : Serial) (f m : FrameNo) (x : Answer) (y : RefusalReason) (p : Nat),
    verdictPayload z f x y m p = beBytes 6 z.toNat ++ beBytes 1 f.val ++ beBytes 1 (answerCode x) ++
      beBytes 1 (reasonCode y) ++ beBytes 1 m.val ++ beBytes 1 p ++ zeros 1 ∧
    leavePayload z = beBytes 6 z.toNat ++ zeros 2) ∧
  (∀ (z : Serial) (i : BitVec 16) (b : List Byte) (x : NoteAnswer) (n : Nat),
    notePayload i z b = beBytes 2 i.toNat ++ beBytes 2 b.length ++ beBytes 6 z.toNat ++ zeros 6 ++ b ∧
    noteAnswerPayload i x n = beBytes 2 i.toNat ++ beBytes 1 (noteAnswerCode x) ++ beBytes 1 n) ∧
  (∀ (g i : BitVec 16) (d n m : Nat) (c : BitVec 32) (on : Bool) (x : OpenAnswer) (w : CloseReason) (o : BlockOutcome)
    (v : Time),
    let front (d : Nat) : List Byte := beBytes 2 g.toNat ++ beBytes 2 i.toNat ++ beBytes 1 d ++ zeros 3
    openPayload g i n m = front 0 ++ beBytes 4 n ++ beBytes 4 m ∧
    openAnswerPayload g i x c = front 1 ++ beBytes 1 (openAnswerCode x) ++ zeros 3 ++ beBytes 4 c.toNat ∧
    creditPayload g i c on = front 1 ++ beBytes 4 c.toNat ++ beBytes 1 (flagCode on) ++ zeros 3 ∧
    haltPayload g i d on = front d ++ beBytes 1 (flagCode on) ++ zeros 3 ∧
    closePayload g i d w = front d ++ beBytes 1 (closeReasonCode w) ++ zeros 3 ∧
    blockackPayload g i o = front 1 ++ beBytes 1 (blockOutcomeCode o) ++ zeros 3 ∧
    dataHead g i n on = beBytes 2 g.toNat ++ beBytes 2 i.toNat ++ beBytes 1 0 ++ beBytes 2 n ++ beBytes 1 (flagCode on) ∧
    dataBlockHead n v m = beBytes 4 n ++ beBytes 8 v.toNat ++ beBytes 1 m ++ zeros 3) ∧
  (∀ c : Contents, contentsPayload c = beBytes 1 c.frame.toNat ++ beBytes 1 c.anchorRank.toNat ++
    beBytes 1 c.timeRank.toNat ++ beBytes 1 c.timeState.toNat ++ beBytes 6 c.serial.toNat ++
    beBytes 2 c.incarnation.toNat ++ beBytes 4 c.generation.toNat ++ beBytes 1 c.followedAnchor.toNat ++
    beBytes 1 c.followedMaster.toNat ++ beBytes 1 c.standing.toNat ++ beBytes 1 c.leaving.toNat) ∧
  (∀ x : Roster, rollPayload x = beBytes 4 x.generation.toNat ++ beBytes 1 x.issuer.val ++ zeros 3 ++
    allFrames.flatMap (fun f => beBytes 1 (entryStateCode (x.entries.get f).state) ++ zeros 1 ++
      beBytes 6 (x.entries.get f).serial.toNat))

/-! ## Reset -/

/-- Asserting the reset input puts the part in reset and changes nothing else; while it is asserted every command but
DEVICE_RESET changes nothing, the registers read as after reset and the transmitters and lane outputs are off. That
the lane outputs are low then, a pulse in progress included, is the model's choice (log entry 71). -/
def Obligations.ResetInputHoldsPart : Prop :=
  (∀ s : State, exec .resetInputAsserted s = .next { s with inReset := true }) ∧
  (∀ (c : Instr) (s : State), s.inReset = true → c ≠ .deviceReset → exec c s = .next s) ∧
  (∀ s : State, s.inReset = true →
    (∀ offset, readRegister s offset = readRegister State.reset offset) ∧
    (∀ p, portOutput s p = .off) ∧ (∀ k, outputHigh s k = false))

/-- A device reset (R186): the incarnation advances and the identity stays, the working settings come from the stored
copy exactly where that copy is valid (intact, no store cut off, every value in its range), and every unit takes its
reset values, as ResetValues spells them, over those settings: an enabled port is DARK with its entry burst sent,
another HELD; a numbered part is ALONE with its silence count running, and with a time rank above 0 MASTER of its own
time. Host memory and the waiting commands stay. What a reset leaves at the pins (signal without lock, the input
lines) is the model's choice (log entry 26). -/
def Obligations.DeviceReset : Prop :=
  ∀ s : State,
    let x := s.store
    let inRange (w : Settings) := 1 ≤ w.threshold ∧ w.threshold ≤ 127 ∧ 1 ≤ w.window ∧ w.window ≤ 60 ∧ 1 ≤ w.holdover ∧
      w.holdover ≤ 600 ∧ 1 ≤ w.holdLimit ∧ w.holdLimit ≤ 1000 ∧
      ∀ k, 1 ≤ (w.lanes.get k).lead ∧ (w.lanes.get k).lead ≤ 65535 ∧ 1 ≤ (w.lanes.get k).width ∧
        (w.lanes.get k).width ≤ 1000
    let valid := x.storedIntact = true ∧ x.storing = none ∧ inRange x.stored
    let w := if valid then x.stored else Settings.defaults
    exec .deviceReset s = .next { State.reset with
      choices := s.choices
      mem := s.mem
      pending := s.pending
      store :=
        { identity := x.identity, incarnation := x.incarnation + 1, working := w, stored := x.stored
          storedIntact := decide valid, origin := if valid then .stored else .defaults, modified := false
          storedValid := decide valid, storing := none }
      ports := Vector.ofFn (fun p =>
        if w.enable.get p then
          { Port.reset with signal := (s.port p).signal, noiseSince := if (s.port p).signal then some 0 else none }
        else { Port.reset with state := .held, bursts := 0, signal := (s.port p).signal })
      roster := if w.frame = 0 then Roster.reset else { Roster.reset with standing := .alone, silenceSince := some 0 }
      tb := if w.frame ≠ 0 ∧ w.timeRank ≠ 0 then
          { Timebase.reset with state := .master, master := w.frame, distance := some 0 }
        else Timebase.reset
      trig := { TriggerUnit.reset with
        lanes := Vector.ofFn (fun k => ⟨.idle, (s.trig.lanes.get k).inputHigh, none, none, none⟩) } }

/-- The state after reset, field by field. The values the spec gives (R9, R14, R15, R19, R20, R43, R59, R60, R84, R103,
R117, R160, R167, R168, R185, R186): frame 0 and the other default settings, ports DARK with one burst sent, queues,
flood memory and tables empty, standing UNNUMBERED, timebase FREE at 0, input stages idle, every stream CLOSED, the
exchange DETACHED, no notice held, every counter 0, LINE reading 0. The model's choices: that the stored copy is
invalid, which makes the origin DEFAULTS (log entry 2), the factory identity and the incarnation (log entry 3), the
empty memory (log entry 4), the input lines low (log entry 5), that the model's own fields start at 0 (log entries 1,
6, 10 and 29), and that no command waits. -/
def Obligations.ResetValues : Prop :=
  let settings : Settings := {
    frame := 0, anchorRank := 0, timeRank := 0, enable := Vector.replicate 4 true, wake := .one, threshold := 31
    window := 5, holdover := 10, holdLimit := 100
    lanes := Vector.replicate 16
      { inputEnable := false, fallingEdge := false, outputEnable := false, lead := 100, width := 1 }
    filter := { armed := false, required := 0, patterns := Vector.replicate 4 ⟨false, 0, 0, 0, 0⟩ } }
  let port : Port := {
    state := .dark, cause := .reset, health := 0, settling := 0, partnerSerial := 0, partnerFrame := 0, partnerPort := 0
    partnerIncarnation := 0, samples := [], attempts := 0, probeNumber := 0, outstanding := none, outliers := 0
    missedEchoes := 0, rxStage := .ignoring 0, trips := 0, lastNull := false, signal := false, lock := false, bursts := 1
    lastBurst := 0, noiseSince := none, quietSince := none, trainingSince := none, lastProbe := none
    silenceSince := none }
  let link : Link := {
    tQueue := [], cQueue := [], dQueue := [], turn := 64, line := none, gapEnds := 0
    counters := ⟨0, 0, 0, 0, 0, 0, 0, 0, 0, 0, 0, 0, 0, 0⟩ }
  let slot : Slot := {
    role := .source, state := .closed, cause := .none, tag := 0, peer := 0, openNumber := 0, openAbsent := false
    peerIncarnation := none, blockSize := 0, pace := 0, gate := .now, gateOpen := false, startTime := 0, nextPace := 0
    interval := 0, lateness := 0, chainHead := 0, selfHalt := false, peerHalt := false, drain := false, creditLimit := 0
    unresolved := 0, strandDeadline := none, closeDeadline := none, openOrder := none, finishOrder := none
    drainMode := none, drainCause := .peerLeaving, openSince := 0, lastOpen := 0, lastCredit := 0, lastHalt := 0
    fetched := [], endBlock := none, nextRecord := none, lastRecord := none, stop := none, fetchEnded := false
    writeStop := false, nextBlock := 0, released := 0, releaseMark := 0, sinceNotice := 0, doneCount := 0, sending := none
    offer := none, endStarted := false, expBlock := 0, expCell := 0, asmLength := 0
    counters := ⟨0, 0, 0, 0, 0, 0, 0, 0, 0, 0, 0, 0, 0, 0, 0, 0, 0, 0, 0⟩ }
  State.reset = {
    inReset := false, now := 0, choices := 0
    store := {
      identity := ⟨Config.frameClass, Config.serial, Config.capabilities⟩, incarnation := Config.incarnation
      working := settings, stored := settings, storedIntact := false, origin := .defaults, modified := false
      storedValid := false, storing := none }
    ports := Vector.replicate 4 port, links := Vector.replicate 4 link
    flood := Vector.replicate 32 ⟨none, none, none⟩
    reach := {
      table := Vector.replicate 32 none, ownSequence := 0, portSet := Vector.replicate 4 false, lastPeriod := 0
      counters := ⟨0, 0, 0, 0, 0, 0, 0, 0⟩ }
    roster := {
      standing := .unnumbered, anchor := 0, entries := Vector.replicate 32 ⟨.vacant, 0, none, none⟩, generation := 0
      issuer := 0, leavingLatch := false, refusedLatch := false, heldLatch := false, rejoin := false
      silenceSince := none, lastHello := none, lastRoll := none, rollSequence := 0, leave := none
      counters := ⟨0, 0, 0, 0, 0, 0⟩ }
    tb := {
      rackTime := 0, state := .free, master := 0, distance := none, correction := 0, slewResidue := 0
      stepPending := false, lockCount := 0, excursions := 0, lastOffset := none, watchSince := none
      holdoverSince := none, lastEmission := 0, counters := ⟨0, 0, 0, 0, 0, 0, 0, 0, 0⟩ }
    trig := {
      lanes := Vector.replicate 16
        { stage := .idle, inputHigh := false, holdSince := none, unmuteSince := none, pulseEnd := none }
      schedule := [], sequence := 0, counters := ⟨0, 0, 0, 0, 0, 0, 0, 0, 0, 0⟩ }
    stream := { slots := Vector.replicate 64 slot, unmatched := 0 }
    ex := {
      baseLo := 0, baseHi := 0, mask := 0, attachFault := false, state := .detached, stallCause := none, area := none
      stalls := [], chain := .absent, notPosted := false, lastSequence := none, window := [], mark := none
      lanes := Vector.replicate 12 { full := false, pending := none }, ordersDone := 0, ordersFailed := 0
      errorsPosted := 0 }
    notes := {
      window := [], waiting := [], number := 0, inbox := Vector.replicate 8 false
      counters := ⟨0, 0, 0, 0, 0, 0, 0, 0⟩ }
    mem := { cells := [], readFaults := [], writeFaults := [] }, pending := [] } ∧
  lineRegister State.reset.ex = 0

/-! ## Port units -/

/-- WAKE_INTERVAL: a DARK port sends one burst, one wake interval after its last. NOISE: 10 ms of signal without lock
take a DARK port to LOCKOUT with cause NOISE. QUIET: 1 ms without signal takes a LOCKOUT port to DARK with cause QUIET
and a burst. The clock first comes to the limit where it stands before it (the model's choice, log entry 1), and the noise
count of a port starts at its entry into DARK (its choice, log entry 63). -/
def Obligations.DarkAndLockoutTimers : Prop :=
  (∀ (s : State) (p : PortIx), s.inReset = false → (s.port p).state = .dark →
    let due := (s.port p).lastBurst + wakeTime s.store.working.wake
    Acts (.wakeInterval p) s
      ((advanceTo s due).modPort p (fun r => { r with bursts := r.bursts + 1, lastBurst := due })) []) ∧
  (∀ (s : State) (p : PortIx) (t : Nat), s.inReset = false → (s.port p).state = .dark → (s.port p).noiseSince = some t →
    Acts (.noise p) s
      ((advanceTo s (t + noiseLimit)).modPort p (fun r => { r with
        state := .lockout, cause := .noise, noiseSince := none
        quietSince := if r.signal then none else some (advanceTo s (t + noiseLimit)).now }))
      (portReport p .lockout .noise)) ∧
  (∀ (s : State) (p : PortIx) (t : Nat), s.inReset = false → (s.port p).state = .lockout →
    (s.port p).quietSince = some t →
    Acts (.quiet p) s
      ((advanceTo s (t + quietLimit)).modPort p (darkRecord (advanceTo s (t + quietLimit)).now .quiet))
      (portReport p .dark .quiet))

/-- WAKE_RECEIVED: a DARK port enters TRAINING with cause WAKE; an UP port is lost and enters TRAINING with cause
RETRAIN; a LOCKOUT port's quiet count starts again; HELD, TRAINING and FAULTED ports are as before. SIGNAL_PRESENT,
SYMBOL_LOCK and RESYNCHRONISATION: what the receiver gains, the first PROBE of a training, offered under its number
(R25, R26), and the receive stage ready after eight IDLE symbols. That the number advances where the PROBE joins the T
queue, and stays where it finds the queue full, is inferred (log entry 14); that lock is to be gained anew in TRAINING
is the model's reading (log entry 13). -/
def Obligations.ReceiverEvents : Prop :=
  (∀ (s : State) (p : PortIx), s.inReset = false →
     match (s.port p).state with
     | .dark => Acts (.wakeReceived p) s (s.modPort p (trainingRecord s.now .wake)) (portReport p .training .wake)
     | .up => Ends (.wakeReceived p) s (portLossEvent p
         ⟨s.modPort p (fun r => trainingRecord s.now .retrain (leftUp r)), portReport p .training .retrain⟩)
     | .lockout => Acts (.wakeReceived p) s
         (s.modPort p (fun r => { r with quietSince := r.quietSince.map (fun _ => s.now) })) []
     | .held | .training | .faulted => Acts (.wakeReceived p) s s []) ∧
  ((∀ (s : State) (p : PortIx), s.inReset = false →
     Acts (.signalPresent p) s
       (s.modPort p (fun r => { r with
         signal := true, quietSince := none
         noiseSince := if r.state = .dark ∧ r.lock = false then some (r.noiseSince.getD s.now) else r.noiseSince })) []) ∧
   (∀ (s : State) (p : PortIx), s.inReset = false → (s.port p).lock = false →
     let u := s.modPort p (fun r => { r with signal := true, lock := true, noiseSince := none, quietSince := none })
     Acts (.symbolLock p) s (if (s.port p).state = .training then
       (offer u p ⟨ownCell s .probe 0 (probePayload s.serial p (s.port p).probeNumber), none⟩).modPort p (fun r => { r with
         lastProbe := some s.now
         probeNumber := if (s.link p).tQueue.length < 8 then r.probeNumber + 1 else r.probeNumber })
       else u) []) ∧
   (∀ (s : State) (p : PortIx), s.inReset = false → (s.port p).state = .training ∨ (s.port p).state = .up →
     Acts (.resynchronisation p) s (s.modPort p (fun r => { r with rxStage := .ready })) []))

/-- LOSS_OF_SIGNAL, the signal or the lock lost: an UP port is lost and goes DARK with cause LOST; a TRAINING port
that had lock fails its training with cause LOST, an attempt counted; any other port keeps its state. The cell on the
line of the failed training is lost uncounted, and the noise count of a port starts at its entry into DARK (the model's
choices, log entries 15 and 63). What the receiver loses is lock, and
signal with it; a DARK port whose lock is lost with signal starts its noise count, a LOCKOUT port whose signal is lost its
quiet count, and nothing else changes. -/
def Obligations.LossOfSignal : Prop :=
  ∀ (s : State) (p : PortIx) (what : LineLoss), s.inReset = false → hadLine what (s.port p) = true →
    let lost := loseLine s.now what
    (∀ r, lost r = match what with
      | .signal => { r with
          signal := false, lock := false, noiseSince := none
          quietSince := if r.state = .lockout then some s.now else none }
      | .lock => { r with lock := false, noiseSince := if r.state = .dark ∧ r.signal = true then some s.now else none }) ∧
    (∀ r, countAttempt r = { r with attempts := if r.attempts = 0xFFFF then 0xFFFF else r.attempts + 1 }) ∧
    match (s.port p).state with
    | .up => Ends (.lossOfSignal p what) s (portLossEvent p
        ⟨s.modPort p (fun r => darkRecord s.now .lost (leftUp (lost r))), portReport p .dark .lost⟩)
    | .training =>
      if (s.port p).lock then
        Acts (.lossOfSignal p what) s
          ((s.modPort p (fun r => darkRecord s.now .lost (countAttempt (lost r)))).modLink p
            (fun l => { l with line := none }))
          (portReport p .dark .lost)
      else Acts (.lossOfSignal p what) s (s.modPort p lost) []
    | .held | .dark | .lockout | .faulted => Acts (.lossOfSignal p what) s (s.modPort p lost) []

/-- TIMEOUT: 100 ms of TRAINING end in DARK, an attempt counted. SILENT: an UP port without a partner beacon for 60 ms
is lost and enters TRAINING. PROBE_TIMER: every 10 ms in TRAINING with lock, every 100 ms in UP, a PROBE is offered to
the T queue; its number advances exactly when it joins. The clock first comes to the limit where it stands before it
(the model's choice, log entry 1). When the number advances is inferred (log entry 14); a model's choice is that the cell on
the line of a training that times out is lost uncounted (log entry 15), as is that the noise count starts at the entry
into DARK (log entry 63); that lock is to be gained anew in TRAINING is its reading (log entry 13). -/
def Obligations.TrainingAndProbeTimers : Prop :=
  ((∀ (s : State) (p : PortIx) (t : Nat), s.inReset = false → (s.port p).state = .training →
     (s.port p).trainingSince = some t →
     Acts (.timeout p) s
       (((advanceTo s (t + trainingLimit)).modPort p
         (fun r => darkRecord (advanceTo s (t + trainingLimit)).now .timeout (countAttempt r))).modLink p
           (fun l => { l with line := none }))
       (portReport p .dark .timeout)) ∧
   (∀ (s : State) (p : PortIx) (t : Nat), s.inReset = false → (s.port p).state = .up → (s.port p).silenceSince = some t →
     Ends (.silent p) s (portLossEvent p
       ⟨(advanceTo s (t + silenceLimit)).modPort p
         (fun r => trainingRecord (advanceTo s (t + silenceLimit)).now .silent (leftUp r)), portReport p .training .silent⟩))) ∧
  (∀ (s : State) (p : PortIx) (last : Nat), s.inReset = false → (s.port p).lastProbe = some last →
     ((s.port p).state = .training ∧ (s.port p).lock = true ∨ (s.port p).state = .up) →
     let due := last + (if (s.port p).state = .up then probePeriodUp else probePeriodTraining)
     let a := advanceTo s due
     let cell := ownCell s .probe 0 (probePayload s.serial p (s.port p).probeNumber)
     Acts (.probeTimer p) s
       ((offer a p ⟨cell, none⟩).modPort p (fun r => { r with
         lastProbe := some due
         probeNumber := if (s.link p).tQueue.length < tCapacity then r.probeNumber + 1 else r.probeNumber })) [])

/-- A port-loss event empties the three queues of the port, abandons the cell on its line and counts each as a FLUSH
drop (R17, R39), whatever the other receivers then do. An offer joins the queue of its class at the tail while the
port accepts and space is left, is a T, C or D drop when the queue is full, and a FLUSH drop where the port does not
accept (R14); a routed cell of the part's own is offered at the port its destination's entry names, and not sent where
the entry is UNKNOWN (inferred, log entry 30). At the reach unit a lost port leaves the port set and every entry whose
port it was goes UNKNOWN, each with its reach-lost event, in ascending order (R51, R52); at the stream engine every
block whose cell was on offer there or on its line is cut off: its sending ends, its record SENT with the cut-off flag
and its acknowledgement timer running (R151). That the switch and the stream engine come before the reach unit and the
timebase unit is the model's choice (log entry 76), the order of receivers that the spec leaves open beside it a free
choice (log entry 6); that all entries are UNKNOWN before the first event is its reading (log entry 20). Which cell is
still on the line at the loss follows the model's choice of the time a cell takes (log entry 11). The moment of the
next arbiter decision stays that of the abandoned cell's gap (the model's choice, log entry 53). -/
def Obligations.PortQueues : Prop :=
  (∀ (s : State) (p : PortIx),
     let l := flushLink s.now (s.link p)
     l.tQueue = [] ∧ l.cQueue = [] ∧ l.dQueue = [] ∧ l.line = none ∧ l.turn = (s.link p).turn ∧
     l.gapEnds = (s.link p).gapEnds ∧
     l.counters = { (s.link p).counters with
       flush := (s.link p).counters.flush + BitVec.ofNat 32 ((s.link p).tQueue.length + (s.link p).cQueue.length
         + (s.link p).dQueue.length + (if (s.link p).line.any (fun x => decide (s.now < x.endsAt) || x.src.isSome) then 1 else 0)) } ∧
     ∀ posts, portLossEvent p ⟨s, posts⟩ =
       (streamPortLost p ((s.link p).line.bind (·.src)) ⟨s.modLink p (flushLink s.now), posts⟩).race2
         (reachPortLost p) (timePortLost p)) ∧
  (∀ (s : State) (ps : List Post) (p : PortIx),
     let lost := allFrames.filter (fun f => (s.route f).any (fun r => r.port == p))
     let u : State := { s with reach := { s.reach with portSet := upd s.reach.portSet p (fun _ => false) } }
     reachPortLost p ⟨s, ps⟩ = lost.foldl
       (fun a f => a.race3 (rosterReachLost f) (timeReachLost f) (streamReachLost f)) ⟨lost.foldl markUnknown u, ps⟩) ∧
  (∀ (s : State) (ps : List Post) (p : PortIx) (onLine : Option LocalCell),
     let t := streamPortLost p onLine ⟨s, ps⟩
     t.posts = ps ∧ { t.s with stream := s.stream } = s ∧ t.s.stream.unmatched = s.stream.unmatched ∧
     ∀ n, let x := s.slot n
       let lost := (∃ o, x.offer = some o ∧ o.port = p) ∨ (∃ lc d, onLine = some lc ∧ x.sending = some d ∧
         lc.slot = n ∧ lc.openNumber = x.openNumber ∧ lc.block = d.block)
       (lost → t.s.slot n = cutBlock s.now x) ∧ (¬ lost → t.s.slot n = x)) ∧
  (∀ (l : Link) (st : PortState) (c : TxClass) (q : Queued),
     let accepts := st = .up ∨ (c = .tq ∧ st = .training)
     let full := capacityOf c ≤ (queueOf l c).length
     (accepts → ¬ full → offerLink l st c q = setQueue l c (queueOf l c ++ [q])) ∧
     (accepts → full → offerLink l st c q = { l with counters := match c with
       | .tq => { l.counters with tDrops := l.counters.tDrops + 1 }
       | .cq => { l.counters with cDrops := l.counters.cDrops + 1 }
       | .dq => { l.counters with dDrops := l.counters.dDrops + 1 } }) ∧
     (¬ accepts → offerLink l st c q = { l with counters := { l.counters with flush := l.counters.flush + 1 } })) ∧
  (∀ (s : State) (p : PortIx) (q : Queued), offer s p q = s.modLink p (fun l => offerLink l (s.port p).state
     (if q.cell.kind ∈ [Kind.probe, .echo, .time, .trig] then .tq else if q.cell.kind = .data then .dq else .cq) q)) ∧
  (∀ (s : State) (f : FrameNo) (c : Cell), (s.route f = none → sendRouted s f c = s) ∧
     ∀ r, s.route f = some r → sendRouted s f c = offer s r.port ⟨c, none⟩)

/-! ## Received cells -/

namespace Sys2Proof.Statements

/-- The command that a received cell of a kind is. -/
def cellCommand : Kind → Rx → Instr
  | .probe, rx => .probe rx
  | .echo, rx => .echo rx
  | .time, rx => .time rx
  | .trig, rx => .trig rx
  | .beacon, rx => .beacon rx
  | .roll, rx => .roll rx
  | .hello, rx => .hello rx
  | .verdict, rx => .verdict rx
  | .leaveCell, rx => .leaveCell rx
  | .openCell, rx => .openCell rx
  | .openAnswer, rx => .openAnswer rx
  | .credit, rx => .credit rx
  | .blockack, rx => .blockack rx
  | .halt, rx => .halt rx
  | .close, rx => .close rx
  | .data, rx => .data rx
  | .note, rx => .note rx
  | .noteAnswer, rx => .noteAnswer rx

/-- A good cell of a kind arrives at a port in a state whose receive stage is ready. -/
structure Arrives (k : Kind) (rx : Rx) (st : PortState) (s : State) : Prop where
  running : s.inReset = false
  port : (s.port rx.port).state = st
  ready : (s.port rx.port).rxStage = .ready
  good : cellWf k rx = true

/-- What a good cell does to the record of an UP port: it settles, or lowers the health count (R32, R33). -/
def goodUp (r : Port) : Port :=
  { r with
    lastNull := false
    settling := r.settling - 1
    health := if 0 < r.settling then r.health else r.health - 1 }

/-- The state once the port unit has the report of a good cell at an UP port. -/
def heard (s : State) (rx : Rx) : State := s.modPort rx.port goodUp

end Sys2Proof.Statements

/-- ERRONEOUS_CELL: the cell is counted under the first error found and the stage ignores the line; in UP a second
null DELIMIT error in a row pulls the port, else the cell settles, or raises the health count, or faults the port. The
first error (R5): DELIMIT where a start delimiter or another symbol ends it or it has more than 276 data symbols, no
error where it is cut short with no delimiter (R4), LENGTH where its length field is above 256 or does not agree with
them, CHECK, and KIND where its kind has no name or its destination or origin is not one the kind allows (R6). It is
null where the error is DELIMIT and every data symbol, of one or more, is 0. A command that names a cell of such a
form is that erroneous cell; that an erroneous cell comes whole, as one command, is the model's choice (log entry 12).
-/
def Obligations.ErroneousCell : Prop :=
  (∀ raw : RawCell,
    let b := raw.bytes
    let delimit := raw.ending = .startDelimiter ∨ raw.ending = .otherSymbol ∨ 276 < b.length
    let cut := raw.ending = .noDelimiter
    let length := 256 < beAt b 4 2 ∨ b.length ≠ 20 + beAt b 4 2
    let check := beNat (b.drop (b.length - 4)) ≠ (crc (b.take (b.length - 4))).toNat
    let kind := ∀ k, kindOfCode (beAt b 0 1) = some k → headerFits k (beAt b 2 1) (beAt b 1 1) = false
    (delimit → rawError raw = some .delimit) ∧
    (¬ delimit → cut → rawError raw = none) ∧
    (¬ delimit → ¬ cut → length → rawError raw = some .length) ∧
    (¬ delimit → ¬ cut → ¬ length → check → rawError raw = some .check) ∧
    (¬ delimit → ¬ cut → ¬ length → ¬ check → kind → rawError raw = some .kind) ∧
    (¬ delimit → ¬ cut → ¬ length → ¬ check → ¬ kind → rawError raw = none) ∧
    (rawNull raw = true ↔ delimit ∧ b ≠ [] ∧ ∀ x ∈ b, x = 0)) ∧
  (∀ (k : Kind) (dest origin : Nat), headerFits k dest origin = true ↔
    ((dest = 0 ∧ k ∈ [Kind.probe, .echo, .time, .hello, .verdict] ∨
      1 ≤ dest ∧ dest ≤ 31 ∧ k ∉ [Kind.probe, .echo, .time, .trig, .beacon, .roll] ∨
      dest = 63 ∧ k ∈ [Kind.trig, .beacon, .roll]) ∧ (dest = 0 ∨ origin ≠ 0))) ∧
  (∀ c : PortCounters,
    countError .delimit c = { c with delimit := c.delimit + 1 } ∧
    countError .length c = { c with length := c.length + 1 } ∧
    countError .check c = { c with check := c.check + 1 } ∧ countError .kind c = { c with kind := c.kind + 1 }) ∧
  (∀ (k : Kind) (rx : Rx) (s : State) (raw : RawCell), rawNull raw = false →
    (256 < rx.payload.length ∧ rawError raw = some .delimit ∨
      rx.payload.length ≤ 256 ∧ headerFits k rx.dest.toNat rx.origin.val = false ∧ rawError raw = some .kind) →
    exec (cellCommand k rx) s = exec (.erroneousCell rx.port raw) s ∧
    (rx.dest ≠ 0 → rx.dest.toNat ≠ 63 → rx.dest.toNat ≠ s.own.val →
      exec (.relay k rx) s = exec (.erroneousCell rx.port raw) s)) ∧
  (∀ (s : State) (p : PortIx) (raw : RawCell), s.inReset = false → rawError raw = none →
    Acts (.erroneousCell p raw) s s []) ∧
  ∀ (s : State) (p : PortIx) (raw : RawCell) (e : RxError), s.inReset = false → (s.port p).rxStage = .ready →
    rawError raw = some e →
    let c := Instr.erroneousCell p raw
    let u (f : Port → Port) : State :=
      (s.modCounters p (countError e)).modPort p (fun r => f { r with rxStage := .ignoring 0 })
    let limit := s.store.working.threshold
    ((s.port p).state = .training → Acts c s (u (fun r => { r with lastNull := false })) []) ∧
    ((s.port p).state = .up →
      if rawNull raw = true ∧ (s.port p).lastNull = true then
        Ends c s (portLossEvent p
          ⟨u (fun r => darkRecord s.now .pulled (leftUp { r with settling := r.settling - 1 })),
            portReport p .dark .pulled⟩)
      else if 0 < (s.port p).settling then
        Acts c s (u (fun r => { r with settling := r.settling - 1, lastNull := rawNull raw })) []
      else if (s.port p).health + 1 ≤ limit then
        Acts c s (u (fun r => { r with health := r.health + 1, lastNull := rawNull raw })) []
      else
        Ends c s (portLossEvent p
          ⟨u (fun r => { leftUp r with
              state := .faulted, cause := .health, health := limit, noiseSince := none, quietSince := none
              trainingSince := none, lastProbe := none }),
            portReport p .faulted .health⟩))

/-- Where a good cell goes: at a TRAINING port only PROBE and ECHO reach the port unit, every other kind is discarded
and counted, a routed cell for another frame (RELAY) with them; a port that builds no cells, or ignores the line, takes
none, and relays none. That a good cell is reported to the port unit before it is handed on is the model's choice (log
entry 62), in the other statements too. -/
def Obligations.CellsAtPortsNotUp : Prop :=
  (∀ (k : Kind) (rx : Rx) (s : State), Arrives k rx .training s → k ≠ .probe → k ≠ .echo →
    Acts (cellCommand k rx) s
      ((s.modPort rx.port (fun r => { r with lastNull := false })).modCounters rx.port
        (fun c => { c with trainingDiscard := c.trainingDiscard + 1 })) []) ∧
  (∀ (k : Kind) (rx : Rx) (s : State), s.inReset = false →
    ((s.port rx.port).state ≠ .training ∧ (s.port rx.port).state ≠ .up ∨ (s.port rx.port).rxStage ≠ .ready) →
    Acts (cellCommand k rx) s s []) ∧
  (∀ (k : Kind) (rx : Rx) (s : State), Arrives k rx .training s → rx.dest ≠ 0 → rx.dest.toNat ≠ 63 →
    rx.dest.toNat ≠ s.own.val →
    Acts (.relay k rx) s
      ((s.modPort rx.port (fun r => { r with lastNull := false })).modCounters rx.port
        (fun c => { c with trainingDiscard := c.trainingDiscard + 1 })) []) ∧
  (∀ (k : Kind) (rx : Rx) (s : State), s.inReset = false →
    ((s.port rx.port).state ≠ .training ∧ (s.port rx.port).state ≠ .up ∨ (s.port rx.port).rxStage ≠ .ready) →
    Acts (.relay k rx) s s [])

/-- RELAY: a routed cell for another frame meets the three tests in their order, and passing them is offered, one hop
on, to the queue of its class at the port its destination's entry names (R13). -/
def Obligations.RelayTestsAndOffer : Prop :=
  ∀ (k : Kind) (rx : Rx) (s : State) (f : FrameNo), Arrives k rx .up s → f ≠ 0 → f ≠ s.own → rx.dest.toNat = f.val →
    let drop (g : PortCounters → PortCounters) := Acts (.relay k rx) s ((heard s rx).modCounters rx.port g) []
    (s.own = 0 → drop (fun c => { c with noroute := c.noroute + 1 })) ∧
    (s.own ≠ 0 → match s.route f with
      | none => drop (fun c => { c with noroute := c.noroute + 1 })
      | some r =>
        if r.port = rx.port then drop (fun c => { c with reflect := c.reflect + 1 })
        else if h : rx.hops.val < 7 then
          Acts (.relay k rx) s
            (offer (heard s rx) r.port ⟨{ rxCell k rx with hops := ⟨rx.hops.val + 1, Nat.succ_lt_succ h⟩ }, none⟩) []
        else drop (fun c => { c with hops := c.hops + 1 }))

/-- A flooded cell of the part's own origin is counted OWN and reaches no owner; one that is not new reaches no owner
and is not copied, whether a TRIG or a ROLL. A record that is empty, of another incarnation, or of an older sequence
makes a cell new; a sequence is newer by 1 to 32,767 (R10). Of a new one the record of its origin and kind takes the
incarnation and the sequence, every other record staying (R9, R10), and one copy, one hop on, is offered at each UP port but
the arrival port, none at 7 hops and none at an unnumbered part (R11). -/
def Obligations.FloodNewness : Prop :=
  (∀ (k : Kind) (rx : Rx) (s : State), (k = .trig ∨ k = .roll) → Arrives k rx .up s → rx.dest.toNat = 63 →
    rx.origin = s.own →
    Acts (cellCommand k rx) s ((heard s rx).modCounters rx.port (fun c => { c with own := c.own + 1 })) []) ∧
  (∀ (k : Kind) (rx : Rx) (s : State) (r : FloodRecord), (k = .trig ∨ k = .roll) → Arrives k rx .up s →
    rx.dest.toNat = 63 → rx.origin ≠ s.own → floodRecord (s.flood.get rx.origin) k = some r →
    r.incarnation = rx.incarnation → newer rx.floodSeq r.sequence = false →
    Acts (cellCommand k rx) s (heard s rx) []) ∧
  (∀ i q, isNew none i q = true) ∧
  (∀ (r : FloodRecord) (i q : BitVec 16), isNew (some r) i q = true ↔
    (r.incarnation ≠ i ∨ (1 ≤ (q - r.sequence).toNat ∧ (q - r.sequence).toNat ≤ 32767))) ∧
  (∀ (k : Kind) (rx : Rx) (s : State), k = .trig ∨ k = .beacon ∨ k = .roll →
    let v := recordFlood s k rx
    floodRecord (v.flood.get rx.origin) k = some ⟨rx.incarnation, rx.floodSeq⟩ ∧
    (∀ j, j ≠ k → floodRecord (v.flood.get rx.origin) j = floodRecord (s.flood.get rx.origin) j) ∧
    (∀ f, f ≠ rx.origin → v.flood.get f = s.flood.get f) ∧ { v with flood := s.flood } = s) ∧
  (∀ (k : Kind) (rx : Rx) (s : State),
    (s.own = 0 ∨ rx.hops.val = 7 → floodCopies s k rx = s) ∧
    (∀ h : rx.hops.val < 7, s.own ≠ 0 →
      let copy : Cell :=
        { kind := k, origin := rx.origin, dest := rx.dest, hops := ⟨rx.hops.val + 1, Nat.succ_lt_succ h⟩
          incarnation := rx.incarnation, floodSeq := rx.floodSeq, word := rx.word, payload := rx.payload }
      floodCopies s k rx = (([0, 1, 2, 3] : List PortIx).filter (fun p =>
        decide ((s.port p).state = .up ∧ p ≠ rx.port))).foldl (fun v p => offer v p ⟨copy, none⟩) s))

/-- PROBE: the own serial faults the port; in TRAINING the neighbour record takes the PROBE and an ECHO is offered,
the end of training judged; in UP another identity retrains the port, the same identity is answered (R27). That the cell on
the line of a training that ends in LOOPBACK is lost uncounted is the model's choice (log entry 15), and that lock is to
be gained anew in TRAINING its reading (log entry 13). The record of an UP port takes the partner's port and frame; the
silence watch starts where the frame number was 0 and stops where it is 0 now. A PROBE of unfit form, one with serial 0
among them, is discarded (inferred, log entry 42). -/
def Obligations.ProbeTaken : Prop :=
  (∀ (rx : Rx) (s : State), rx.payload.length ≠ 8 ∨ 3 < beAt rx.payload 6 1 ∨ beAt rx.payload 0 6 = 0 →
    (Arrives .probe rx .up s → Acts (.probe rx) s (heard s rx) []) ∧
    (Arrives .probe rx .training s → Acts (.probe rx) s (s.modPort rx.port (fun r => { r with lastNull := false })) [])) ∧
  ∀ (s : State) (rx : Rx) (serial : Serial) (q : PortIx) (number : BitVec 8), rx.dest = 0 → serial ≠ 0 →
    rx.payload.length = 8 → beAt rx.payload 0 6 = serial.toNat → beAt rx.payload 6 1 = q.val →
    beAt rx.payload 7 1 = number.toNat →
    let echo (u : State) : State :=
      offer u rx.port ⟨ownCell u .echo 0 (echoPayload number 0), some (rx.stamp + BitVec.ofInt 64 rx.steps)⟩
    (Arrives .probe rx .training s →
      if serial = s.serial then
        Acts (.probe rx) s
          ((s.modPort rx.port (fun r => { r with
            lastNull := false, state := .faulted, cause := .loopback, noiseSince := none, quietSince := none
            trainingSince := none, lastProbe := none })).modLink rx.port (fun l => { l with line := none }))
          (portReport rx.port .faulted .loopback)
      else
        Ends (.probe rx) s (tryTrained rx.port
          ⟨echo (s.modPort rx.port (fun r => { r with
            lastNull := false, partnerSerial := serial, partnerFrame := rx.origin, partnerPort := q
            partnerIncarnation := rx.incarnation })), []⟩)) ∧
    (Arrives .probe rx .up s →
      if serial = s.serial then
        Ends (.probe rx) s (portLossEvent rx.port
          ⟨s.modPort rx.port (fun r => { leftUp (goodUp r) with
            state := .faulted, cause := .loopback, noiseSince := none, quietSince := none
            trainingSince := none, lastProbe := none }), portReport rx.port .faulted .loopback⟩)
      else if serial ≠ (s.port rx.port).partnerSerial ∨ rx.incarnation ≠ (s.port rx.port).partnerIncarnation then
        Ends (.probe rx) s (portLossEvent rx.port
          ⟨s.modPort rx.port (fun r => trainingRecord s.now .changed (leftUp (goodUp r))),
            portReport rx.port .training .changed⟩)
      else
        Acts (.probe rx) s
          (echo (s.modPort rx.port (fun r => { goodUp r with
            partnerPort := q, partnerFrame := rx.origin
            silenceSince := if r.partnerFrame = rx.origin then r.silenceSince else if rx.origin = 0 then none
              else if r.partnerFrame = 0 then some s.now else r.silenceSince }))) [])

/-- ECHO: the number of the outstanding probe completes a round trip, whose measurement is half of what remains of the
round trip after the turnaround, the round trip being the time from departure to arrival less the steps taken between
them; any other ECHO, and one whose form does not fit, changes nothing more, in UP or TRAINING (R28; that an unfit one
is discarded is inferred, log entry 24). The round trip is the difference of two rack times read as signed (the
model's reading, log entry 27), the arrival corrected by the steps that the command carries (log entry 12). The delay
filter (R31): under four samples a measurement joins them; with four it replaces the oldest where it lies within 100
ns of their mean, and is an outlier where it does not or is below 0. -/
def Obligations.EchoAndDelayFilter : Prop :=
  (∀ (rx : Rx) (s : State), rx.payload.length ≠ 12 →
    (Arrives .echo rx .up s → Acts (.echo rx) s (heard s rx) []) ∧
    (Arrives .echo rx .training s → Acts (.echo rx) s (s.modPort rx.port (fun r => { r with lastNull := false })) [])) ∧
  (∀ (s : State) (rx : Rx) (number : BitVec 8) (turnaround : Time), rx.dest = 0 → rx.payload.length = 12 →
     beAt rx.payload 0 1 = number.toNat → beAt rx.payload 4 8 = turnaround.toNat →
     let m (o : OutstandingProbe) : Int :=
       ((rx.stamp + BitVec.ofInt 64 rx.steps - o.departure - o.steps).toInt - turnaround.toNat) / 2
     (Arrives .echo rx .up s → match (s.port rx.port).outstanding with
       | some o =>
         if o.number = number then
           Acts (.echo rx) s ((heard s rx).modPort rx.port (fun r =>
             offerMeasurement { r with outstanding := none, trips := r.trips + 1 } (m o))) []
         else Acts (.echo rx) s (heard s rx) []
       | none => Acts (.echo rx) s (heard s rx) []) ∧
     (Arrives .echo rx .training s →
       (∀ o, (s.port rx.port).outstanding = some o → o.number = number →
         Ends (.echo rx) s (tryTrained rx.port
           ⟨s.modPort rx.port (fun r => offerMeasurement
             { r with lastNull := false, outstanding := none, trips := r.trips + 1 } (m o)), []⟩)) ∧
       ((∀ o, (s.port rx.port).outstanding = some o → o.number ≠ number) →
         Ends (.echo rx) s (tryTrained rx.port ⟨s.modPort rx.port (fun r => { r with lastNull := false }), []⟩)))) ∧
  (∀ (r : Port) (m : Int),
     (m < 0 → offerMeasurement r m = { r with outliers := r.outliers + 1 }) ∧
     (0 ≤ m → r.samples.length < 4 → offerMeasurement r m = { r with samples := r.samples ++ [m.toNat] }) ∧
     (0 ≤ m → r.samples.length = 4 → (m - (r.samples.sum / 4 : Nat)).natAbs ≤ 100 →
       offerMeasurement r m = { r with samples := r.samples.drop 1 ++ [m.toNat] }) ∧
     (0 ≤ m → r.samples.length = 4 → 100 < (m - (r.samples.sum / 4 : Nat)).natAbs →
       offerMeasurement r m = { r with outliers := r.outliers + 1 }))

/-- Training succeeds at the moment lock, two round trips and a partner's PROBE are there within 100 ms: the port is
UP with four settling cells, its watch runs where the partner is numbered, the arbiter's turn and the port set are
set; short of one of them nothing changes (R29, R40). -/
def Obligations.TrainingSucceeds : Prop :=
  ∀ (s : State) (p : PortIx) (t : Nat) (posts : List Post), (s.port p).state = .training →
    (s.port p).trainingSince = some t →
    tryTrained p ⟨s, posts⟩ =
      if (s.port p).lock = true ∧ 2 ≤ (s.port p).trips ∧ (s.port p).partnerSerial ≠ 0 ∧ s.now ≤ t + trainingLimit then
        ⟨(((s.modPort p (fun r => { r with
            state := .up, cause := .trained, settling := 4, health := 0, lastNull := false, trainingSince := none
            silenceSince := if r.partnerFrame = 0 then none else some s.now })).modLink p
              (fun l => { l with turn := 64 })).modReach (fun r => { r with portSet := upd r.portSet p (fun _ => true) })),
          posts ++ portReport p .up .trained⟩
      else ⟨s, posts⟩

/-! ## Exchange unit -/

/-- The durations of the timers and the capacities of the stores, as the rules give them, and the frames, ports, lanes and
slots in ascending order. -/
def Obligations.Durations : Prop :=
  noiseLimit = 10000000 ∧ quietLimit = 1000000 ∧ trainingLimit = 100000000 ∧ probePeriodTraining = 10000000 ∧
  probePeriodUp = 100000000 ∧ silenceLimit = 60000000 ∧ reachPeriod = 20000000 ∧ anchorSilenceLimit = 60000000 ∧
  helloPeriod = 500000000 ∧ rollPeriod = 200000000 ∧ strayTime = 2000000000 ∧ leaveLimit = 1000000000 ∧
  emissionPeriod = 1000000 ∧ timeWatchLimit = 5000000 ∧ unmuteTime = 1000000 ∧ openPeriod = 50000000 ∧
  openLimitTime = 2000000000 ∧ creditPeriodTime = 10000000 ∧ haltPeriod = 10000000 ∧ strandTime = 2000000000 ∧
  closeTime = 1000000000 ∧ ackTime = 100000000 ∧ answerTime = 100000000 ∧
  tCapacity = 8 ∧ cCapacity = 32 ∧ dCapacity = 64 ∧ orderCapacity = 16 ∧ scheduleCapacity = 32 ∧ noteCapacity = 4 ∧
  wakeTime .half = 500000000 ∧ wakeTime .one = 1000000000 ∧ wakeTime .two = 2000000000 ∧
  capacityOf .tq = 8 ∧ capacityOf .cq = 32 ∧ capacityOf .dq = 64 ∧ allFrames.map (·.val) = List.range' 1 31 ∧
  allPorts = List.finRange 4 ∧ allLanes = List.finRange 16 ∧ allSlots = List.finRange 64

namespace Sys2Proof.Statements

/-- The bytes of memory from an address on. -/
def bytesIn (m : Memory) (a len : Nat) : List Byte := (List.range len).map (fun i => memByte m (a + i))

/-- A read of a run of bytes does not fault. -/
def Readable (m : Memory) (a len : Nat) : Prop := firstFault m.readFaults a len = none

/-- A write of a run of bytes does not fault. -/
def Writable (m : Memory) (a len : Nat) : Prop := firstFault m.writeFaults a len = none

/-- Memory `m'` is `m` with a run of bytes stored from an address on; every other byte reads as before. -/
structure Stored (m m' : Memory) (a : Nat) (bs : List Byte) : Prop where
  bytes : ∀ x, memByte m' x = if a ≤ x ∧ x < a + bs.length then bs.getD (x - a) 0 else memByte m x
  readFaults : m'.readFaults = m.readFaults
  writeFaults : m'.writeFaults = m.writeFaults

/-- The posted notice of one MEMORY_FAULT, the low 64 bits of its address in it (the model's choice for an address
of 2^64 or more, log entry 74). -/
def faultPost (w : What) (address : Nat) : Post :=
  .notice (.errors .memoryFault .memoryFault w (BitVec.ofNat 64 address) 1)

/-- The exchange STALLED by an access. -/
def stalledBy (x : StallAccess) (c : StallCause) (e : Exchange) : Exchange :=
  { e with state := .stalled, stallCause := some c, stalls := if e.stalls.contains x then e.stalls else e.stalls ++ [x] }

end Sys2Proof.Statements

/-- With no LEAVE order held, the end of an act delivers its posts one after the other, each with the part's values of
that moment: a notice is taken by its lane, a mirror and a Stream Status entry are written. What the delivery can
change: the lanes, the count of errors and memory inside the Exchange Area, or, on entering BROKEN, what that ends;
nothing where no exchange is attached. No other byte of memory changes. A mirror or Stream Status entry is written at
its place in the area with the part's values of that moment (R149, R180, R190, R193, and the layouts of chapter 12); a
write that faults leaves it as it was and is reported, not retried. Each mirror's and the entry's bytes are spelled,
every field in its place. That posts are delivered at the end of an act is the model's choice (log entry 35), as is
that a faulting write writes nothing (log entry 4). -/
def Obligations.PostsTouchOnlyTheExchange : Prop :=
  (∀ (s : State) (m : Mirror), s.memOpen = true →
    let a := areaBase s + (match m with
      | .port p => 0x40 + 0x50 * p.val
      | .roster => 0x20
      | .timebase => 0x28
      | .origin => 0x18
      | .counters => 0x180)
    let b := mirrorBytes s m
    (Writable s.mem a b.length → ∃ v, Stored s.mem v a b ∧ deliver s (.mirror m) = { s with mem := v }) ∧
    (∀ x, firstFault s.mem.writeFaults a b.length = some x → deliver s (.mirror m) =
      takeNotice s (.errors .memoryFault .memoryFault .mirrorWrite (BitVec.ofNat 64 x) 1))) ∧
  (∀ (s : State) (n : SlotIx), s.memOpen = true →
    let a := areaBase s + 0x1000 + 0x20 * n.val
    let x := s.slot n
    let b := leBytes 1 (roleCode x.role) ++ leBytes 1 (streamStateCode x.state) ++ leBytes 1 (streamCauseCode x.cause) ++
      leBytes 1 (flagCode x.selfHalt + 2 * flagCode x.peerHalt) ++ leBytes 2 x.tag.toNat ++ leBytes 1 x.peer.val ++
      zeros 1 ++ leBytes 2 (if x.openAbsent then 0 else x.openNumber.toNat) ++ leBytes 1 x.unresolved ++ zeros 1 ++
      leBytes 4 x.creditLimit.toNat ++ leBytes 4 x.released.toNat ++ leBytes 4 x.releaseMark.toNat ++
      leBytes 4 x.doneCount.toNat ++ zeros 4
    (Writable s.mem a b.length → ∃ v, Stored s.mem v a b ∧ deliver s (.status n) = { s with mem := v }) ∧
    (∀ e, firstFault s.mem.writeFaults a b.length = some e → deliver s (.status n) =
      takeNotice s (.errors .memoryFault .memoryFault .statusWrite (BitVec.ofNat 64 e) 1))) ∧
  (∀ (s : State) (n : Notice), deliver s (.notice n) = takeNotice s n) ∧
  (∀ s : State,
    let counts (cs : List Count) : List Byte := cs.flatMap (fun c => leBytes 4 c.toNat)
    (∀ p : PortIx,
      let r := s.port p
      let c := (s.link p).counters
      mirrorBytes s (.port p) = leBytes 1 (portStateCode r.state) ++ leBytes 1 (portCauseCode r.cause) ++
        leBytes 1 r.health ++ leBytes 1 r.partnerFrame.val ++
        leBytes 4 (if r.samples = [] then 0 else r.samples.sum / r.samples.length) ++ leBytes 8 r.partnerSerial.toNat ++
        counts [c.delimit, c.length, c.check, c.kind, c.trainingDiscard, c.own, c.noroute, c.reflect, c.hops, c.tDrops,
          c.cDrops, c.dDrops, c.flush, c.reroute] ++ zeros 8) ∧
    mirrorBytes s .roster = leBytes 1 (standingCode s.roster.standing) ++ leBytes 1 s.roster.anchor.val ++
      leBytes 1 (flagCode (s.own != 0 && s.roster.anchor == s.own)) ++ leBytes 1 s.roster.issuer.val ++
      leBytes 4 s.roster.generation.toNat ∧
    mirrorBytes s .timebase = leBytes 1 (timeStateCode s.tb.state) ++ leBytes 1 s.tb.master.val ++
      leBytes 1 (match (if s.tb.master = 0 ∨ s.tb.master = s.own then none else s.route s.tb.master) with
        | some r => r.port.val
        | none => 0xFF) ++
      leBytes 1 (s.tb.distance.getD 0xFF) ++ leBytes 1 (flagCode s.tb.lastOffset.isSome) ++ zeros 3 ++
      leBytes 8 (BitVec.ofInt 64 (s.tb.lastOffset.getD 0)).toNat ∧
    mirrorBytes s .origin = leBytes 4 (flagCode (s.store.origin == .defaults) + 2 * flagCode s.store.modified +
      4 * flagCode s.store.storedValid + 8 * flagCode s.store.storing.isSome) ∧
    (let r := s.reach.counters
     let o := s.roster.counters
     let t := s.tb.counters
     let g := s.trig.counters
     let n := s.notes.counters
     mirrorBytes s .counters = counts [r.learned, r.improved, r.late, r.stale, r.far, r.malformed, r.conflict, r.lost,
       o.helloForwarded, o.helloDropped, o.verdictForwarded, o.verdictDropped, o.leaveDropped, o.rollIgnored,
       t.accepted, t.ignored, t.far, t.nodelay, t.held, t.excursion, t.steps, t.losses, t.gaps,
       g.fired, g.late, g.dropped, g.merged, g.localOnly, g.outputOff, g.trigIgnored, g.trigMalformed, g.mutedEdge,
       g.cancelled, n.sent, n.accepted, n.busy, n.notAttached, n.refused, n.malformed, n.unconfirmed, n.ignored,
       s.ex.ordersDone, s.ex.ordersFailed, s.ex.errorsPosted, s.stream.unmatched])) ∧
  ∀ (u : State) (posts : List Post), u.roster.leave = none →
    let t := finish ⟨u, posts⟩
    t = posts.foldl deliver u ∧
    (posts = [] → t = u) ∧
    (u.memOpen = false → t = u) ∧
    (t.ex.state = u.ex.state → OnlyExchange u t ∧
      { t.ex with lanes := u.ex.lanes, errorsPosted := u.ex.errorsPosted } = u.ex) ∧
    (t.ex.state ≠ u.ex.state → t.ex.state = .broken ∧ Delivers u t) ∧
    (∀ a, (a < areaBase u ∨ areaBase u + 0x1800 ≤ a) → memByte t.mem a = memByte u.mem a) ∧
    t.mem.readFaults = u.mem.readFaults ∧ t.mem.writeFaults = u.mem.writeFaults

/-- A notice at a lane (R176): discarded while no exchange is attached; the pending notice of a lane held FULL, merged
into one that is there; else written with its merge count, the flag last, and the lane held FULL. A fault before the
flag leaves the lane EMPTY with the notice pending and is reported; on the ERRORS lane it breaks the exchange (R181,
R182). That the faulting write leaves memory as before, but for the run written before it, is the model's choice (log
entry 4), as is what the ERRORS lane is held as in BROKEN (log entry 51). The lane each notice goes to and its fields
are those of chapter 12, spelled, with the codes of ERRORS. -/
def Obligations.NoticeLanes : Prop :=
  (∀ (s : State) (n : Notice),
    let k := noticeLane n
    let b := s.ex.lanes.get k
    let base := areaBase s + 0x400 + 0x40 * k.val
    let p : PendingNotice := match b.pending with
      | none => ⟨n, 0⟩
      | some p => ⟨mergeNotice p.notice n, min (p.merges + 1) 255⟩
    let v := if k = 11 then s.modEx (fun e => { e with errorsPosted := e.errorsPosted + 1 }) else s
    (s.memOpen = false → takeNotice s n = s) ∧
    (s.memOpen = true → b.full = true → takeNotice s n = setLane v k ⟨true, some p⟩) ∧
    (s.memOpen = true → b.full = false → Writable s.mem base 64 →
      ∃ m, Stored s.mem m base
          (leBytes 1 1 ++ leBytes 1 p.merges ++ zeros 6 ++ padTo 56 (noticeFields p.notice)) ∧
        takeNotice s n = { setLane v k ⟨true, none⟩ with mem := m }) ∧
    let stops (m : Memory) (x : Nat) : Prop :=
      if k = 11 then takeNotice s n = enterBroken { setLane v k ⟨false, some p⟩ with mem := m }
      else takeNotice s n = takeNotice { setLane s k ⟨false, some p⟩ with mem := m }
        (.errors .memoryFault .memoryFault .laneWrite (BitVec.ofNat 64 x) 1)
    (∀ x, s.memOpen = true → b.full = false → firstFault s.mem.writeFaults (base + 1) 63 = some x → stops s.mem x) ∧
    (∀ x, s.memOpen = true → b.full = false → Writable s.mem (base + 1) 63 →
      firstFault s.mem.writeFaults base 1 = some x →
      ∃ m, Stored s.mem m (base + 1) (leBytes 1 p.merges ++ zeros 6 ++ padTo 56 (noticeFields p.notice)) ∧ stops m x)) ∧
  let lane (n : Notice) (k : Nat) (b : List Byte) : Prop := (noticeLane n).val = k ∧ noticeFields n = b
  (∀ c q f, lane (.orders c q f) 0 (leBytes 4 c.toNat ++ leBytes 4 q.toNat ++ leBytes 1 (flagCode f))) ∧
  (∀ p st ca t, lane (.port p st ca t) (p.val + 1)
    (leBytes 1 (portStateCode st) ++ leBytes 1 (portCauseCode ca) ++ zeros 2 ++ leBytes 4 t.toNat)) ∧
  (∀ g a st b, lane (.roster g a st b) 5
    (leBytes 4 g.toNat ++ leBytes 1 a.val ++ leBytes 1 (standingCode st) ++ zeros 2 ++ leBytes 4 b.toNat)) ∧
  (∀ st m n z, lane (.time st m n z) 6 (leBytes 1 (timeStateCode st) ++ leBytes 1 m.val ++ zeros 2 ++ leBytes 4 n.toNat ++
    leBytes 8 (BitVec.ofInt 64 z).toNat)) ∧
  (∀ f m q l d o g, lane (.triggers f m q l d o g) 7 (leBytes 2 f.toNat ++ leBytes 2 m.toNat ++ leBytes 1 q.toNat ++
    zeros 3 ++ leBytes 4 l.toNat ++ leBytes 4 d.toNat ++ leBytes 4 o.toNat ++ leBytes 4 g.toNat)) ∧
  (∀ b, lane (.streams b) 8 (leBytes 8 b.toNat)) ∧ (∀ b, lane (.notes b) 9 (leBytes 1 b.toNat)) ∧
  (∀ q e, lane (.admission q e) 10 (leBytes 4 q.toNat ++ leBytes 4 e.toNat)) ∧
  (∀ f l w a c, lane (.errors f l w a c) 11 (leBytes 1 (errorKindCode f) ++ leBytes 1 (errorKindCode l) ++
    leBytes 1 (whatCode w) ++ zeros 1 ++ leBytes 4 c.toNat ++ leBytes 8 a.toNat)) ∧
  [ErrorKind.memoryFault, .brokenChain, .badHeader, .settingsLost].map errorKindCode = [1, 2, 3, 4] ∧
  [What.none, .headerRead, .orderRead, .orderWrite, .parameterRead, .snapshotWrite, .mirrorWrite, .statusWrite, .laneWrite,
    .rescanRead, .inboxWrite, .noteBodyRead, .blockRecordRead, .blockRecordWrite, .bufferRead, .bufferWrite].map whatCode =
    List.range 16

/-- The merge of a notice into the pending notice of its lane, field by field; a sum is held at its field's maximum
(R177). -/
def Obligations.NoticeMerge : Prop :=
  (∀ a b : Count, (satAdd a b).toNat = min (a.toNat + b.toNat) (2 ^ 32 - 1)) ∧
  (∀ c c' s s' f f', mergeNotice (.orders c s f) (.orders c' s' f') =
    .orders (satAdd c c') (if newer s' s then s' else s) (f || f')) ∧
  (∀ k st ca t st' ca' t', mergeNotice (.port k st ca t) (.port k st' ca' t') = .port k st' ca' (satAdd t t')) ∧
  (∀ g a st b g' a' st' b', mergeNotice (.roster g a st b) (.roster g' a' st' b') = .roster g' a' st' (b ||| b')) ∧
  (∀ st m n z st' m' n' z', mergeNotice (.time st m n z) (.time st' m' n' z') =
    .time st' m' (satAdd n n') (if n' = 0 then z else z')) ∧
  (∀ f m q l d o g f' m' q' l' d' o' g',
    mergeNotice (.triggers f m q l d o g) (.triggers f' m' q' l' d' o' g') =
      .triggers (f ||| f') (m ||| m') (if f' = 0 then q else q') (satAdd l l') (satAdd d d') (satAdd o o') (satAdd g g')) ∧
  (∀ b b', mergeNotice (.streams b) (.streams b') = .streams (b ||| b')) ∧
  (∀ b b', mergeNotice (.notes b) (.notes b') = .notes (b ||| b')) ∧
  (∀ q e q' e', mergeNotice (.admission q e) (.admission q' e') = .admission (q ||| q') (e ||| e')) ∧
  (∀ f l w a c f' l' w' a' c', mergeNotice (.errors f l w a c) (.errors f' l' w' a' c') =
    .errors f l' w' a' (satAdd c c'))

/-- The register window (R167): what each offset reads, with the fields of LINE; a LINE write replaces the 12-bit
mask, a BASE_HI write is held, and a write the window ignores changes nothing. Outside BROKEN the interrupt line is
asserted exactly when some lane held FULL has its mask bit set; in BROKEN always (R179). The codes of the exchange
states and of the stall causes. -/
def Obligations.RegistersAndInterruptLine : Prop :=
  ((∀ s : State, s.inReset = false →
     readRegister s 0x00 = BitVec.ofNat 32 (0x47D3 + 2 ^ 16 * 0x44 + 2 ^ 24 * Config.revision.toNat) ∧
     readRegister s 0x08 = s.ex.baseLo ∧ readRegister s 0x0C = s.ex.baseHi ∧
     readRegister s 0x14 = lineRegister s.ex ∧
     ∀ offset, offset ≠ 0x00 → offset ≠ 0x08 → offset ≠ 0x0C → offset ≠ 0x14 → readRegister s offset = 0) ∧
   (∀ e : Exchange,
     (∀ k : NoticeIx, (lineRegister e).getLsbD k.val = (e.lanes.get k).full) ∧
     (lineRegister e).getLsbD 16 = lineAsserted e ∧
     ((lineRegister e).extractLsb' 17 2).toNat = exStateCode e.state ∧
     ((lineRegister e).extractLsb' 19 2).toNat =
       (if e.state = .stalled then stallCauseCode e.stallCause else stallCauseCode none) ∧
     (lineRegister e).getLsbD 21 = e.attachFault) ∧
   [ExState.detached, .attached, .stalled, .broken].map exStateCode = [0, 1, 2, 3] ∧
   [none, some StallCause.badHeader, some .brokenChain, some .memoryFault].map stallCauseCode = [0, 1, 2, 3] ∧
   (∀ (s : State) (v : BitVec 32), s.inReset = false →
     Acts (.line v) s { s with ex := { s.ex with mask := v.extractLsb' 0 12 } } []) ∧
   (∀ (s : State) (v : BitVec 32), s.inReset = false →
     Acts (.baseHi v) s { s with ex := { s.ex with baseHi := v } } []) ∧
   (∀ (s : State) (offset : BitVec 8) (v : BitVec 32), writeIgnored offset v = true →
     exec (.ignoredRegisterWrite offset v) s = .next s)) ∧
  (∀ e : Exchange, lineAsserted e = true ↔
     (e.state = .broken ∨ ∃ k : NoticeIx, (e.lanes.get k).full = true ∧ e.mask.getLsbD k.val = true))

/-- BASE_LO (R169): outside DETACHED an exchange reset first; then address 0 detaches, an unaligned address detaches
with the attach fault, and an aligned one has the header read: format 1 attaches with every mirror and Stream Status
entry written, another format stalls with BAD_HEADER, a fault with MEMORY_FAULT. What an exchange reset leaves (R183):
orders, stalls, beliefs, mask and notes as after a device reset, the chain position at the chain head field, the
orders of a LEAVE and of a store let go, every open stream CLOSED with its records unwritten and a CLOSE of reason
EXCHANGE_RESET sent to its peer, UNSENT where that is not REACHABLE, an offered one without (R141, R142); memory and
every other unit as they were. What BROKEN leaves (R182): beliefs and mask as they were, orders and stalls abandoned
unwritten, the note window and the waiting notes emptied, the orders of a LEAVE and of a store let go, every open
stream CLOSED with EXCHANGE_BROKEN and its CLOSE sent likewise. The slots close in ascending order (the model's
choice, log entry 66). That the slots closed by the reset post nothing is the model's choice (log entry 35); the
position stays the head field, not read, until an attach reads it (log entry 31). -/
def Obligations.BaseLoWriteAndReset : Prop :=
  (∀ (s : State) (lo : BitVec 32), s.inReset = false →
     let r := if s.ex.state = .detached then s else exchangeReset s
     let e : Exchange := { r.ex with baseLo := lo, attachFault := false, state := .detached, area := none }
     let address : BitVec 64 := s.ex.baseHi ++ lo
     let header := bytesIn s.mem address.toNat 16
     let written : List Post :=
       [.mirror (.port 0), .mirror (.port 1), .mirror (.port 2), .mirror (.port 3), .mirror .roster, .mirror .timebase,
         .mirror .origin, .mirror .counters] ++ (List.finRange 64).map (fun n => .status n)
     (address = 0 → Acts (.baseLo lo) s { r with ex := e } []) ∧
     (address ≠ 0 → address.toNat % 4096 ≠ 0 → Acts (.baseLo lo) s { r with ex := { e with attachFault := true } } []) ∧
     (address ≠ 0 → address.toNat % 4096 = 0 → Readable s.mem address.toNat 16 → leAt header 0 4 = 1 →
       Acts (.baseLo lo) s
         { r with ex := { e with
             state := .attached, area := some address, stallCause := none, stalls := [], notPosted := false
             chain := .headField (BitVec.ofNat 64 (leAt header 8 8)) } }
         (written ++ if s.store.origin = .defaults then [.notice (.errors .settingsLost .settingsLost .none 0 1)]
           else [])) ∧
     (address ≠ 0 → address.toNat % 4096 = 0 → Readable s.mem address.toNat 16 → leAt header 0 4 ≠ 1 →
       Acts (.baseLo lo) s { r with ex := stalledBy .header .badHeader { e with area := some address } }
         [.notice (.errors .badHeader .badHeader .none address 1)]) ∧
     (∀ x, address ≠ 0 → address.toNat % 4096 = 0 → firstFault s.mem.readFaults address.toNat 16 = some x →
       Acts (.baseLo lo) s { r with ex := stalledBy .header .memoryFault { e with area := some address } }
         [faultPost .headerRead x])) ∧
  (∀ s : State,
     let t := exchangeReset s
     t.ex = { s.ex with
       mask := 0, stallCause := none, stalls := [], chain := .head, notPosted := false, lastSequence := none
       window := [], mark := none, lanes := Exchange.reset.lanes } ∧
     t.notes = { s.notes with window := [], waiting := [], inbox := NotePath.reset.inbox } ∧
     t.roster = { s.roster with leave := none } ∧
     t.store = { s.store with storing := s.store.storing.map (fun x => { x with order := none }) } ∧
     ClosedForExchange s t .exchangeReset .exchangeReset ∧
     t.stream.unmatched = s.stream.unmatched ∧
     { t with
       ex := s.ex, notes := s.notes, roster := s.roster, store := s.store, stream := s.stream, links := s.links } = s) ∧
  (∀ s : State,
     let t := enterBroken s
     t.ex = { s.ex with state := .broken, window := [], stalls := [] } ∧
     t.notes = { s.notes with window := [], waiting := [] } ∧
     t.roster = { s.roster with leave := none } ∧
     t.store = { s.store with storing := s.store.storing.map (fun x => { x with order := none }) } ∧
     ClosedForExchange s t .exchangeBroken .exchangeBroken ∧
     t.stream.unmatched = s.stream.unmatched ∧
     { t with
       ex := s.ex, notes := s.notes, roster := s.roster, store := s.store, stream := s.stream, links := s.links } = s)

/-- NUDGE 0x0000 (R170): ignored while no exchange is attached; ATTACHED, a not-posted stop has the record read again
and a tail stop its link, and with no stop nothing happens; STALLED, completion writes are made again in chain order,
then the reads, and the exchange is ATTACHED once none is left; each is judged as when it was first made, a read that
faults again joining the stalls again. That the re-reads are made in the NUDGE's step is
inferred (log entry 34), as are that a record is read only where the window has a place (log entry 44) and that the first
mark is written into the header (log entry 22); that a NUDGE in STALLED makes no other read than those that stalled it is a
choice (log entry 52), as is that 48 bytes of parameters are kept (log entry 7). -/
def Obligations.NudgeOrderChain : Prop :=
  (∀ s : State, s.inReset = false →
    ((s.ex.state = .detached ∨ s.ex.state = .broken) → Acts .nudgeOrderChain s s []) ∧
    (s.ex.state = .attached → ∀ v, nextOrderAddress s.ex = some v → s.ex.notPosted = false →
      Acts .nudgeOrderChain s s []) ∧
    (s.ex.state = .attached → ∀ v, nextOrderAddress s.ex = some v → s.ex.notPosted = true →
      Ends .nudgeOrderChain s (readOrder v ⟨{ s with ex := { s.ex with notPosted := false } }, []⟩)) ∧
    (s.ex.state = .attached → s.ex.chain = .headField 0 → Readable s.mem (areaBase s + 8) 8 →
      Acts .nudgeOrderChain s
        { s with ex := { s.ex with chain := .headField (BitVec.ofNat 64 (leNat (bytesIn s.mem (areaBase s + 8) 8))) } }
        []) ∧
    (∀ v, s.ex.state = .attached → s.ex.chain = .last v 0 → Readable s.mem v.toNat 8 →
      Ends .nudgeOrderChain s (judgeMark
        ⟨{ s with ex := { s.ex with chain := .last v (BitVec.ofNat 64 (leNat (bytesIn s.mem v.toNat 8))) } }, []⟩)) ∧
    (s.ex.state = .stalled →
      Ends .nudgeOrderChain s
        ((s.ex.stalls.foldl retryRead ((s.ex.window.map (·.sequence)).foldl retryCompletion ⟨s, []⟩)).on endStall)) ∧
    (∀ x, s.ex.state = .attached → s.ex.chain = .headField 0 → firstFault s.mem.readFaults (areaBase s + 8) 8 = some x →
      Acts .nudgeOrderChain s { s with ex := stalledBy .linkRead .memoryFault s.ex } [faultPost .orderRead x]) ∧
    (∀ v x, s.ex.state = .attached → s.ex.chain = .last v 0 → firstFault s.mem.readFaults v.toNat 8 = some x →
      Acts .nudgeOrderChain s { s with ex := stalledBy .linkRead .memoryFault s.ex } [faultPost .orderRead x])) ∧
  (∀ s : State, endStall s = if s.ex.state = .stalled ∧ s.ex.stalls = [] then
    { s with ex := { s.ex with state := .attached, stallCause := none } } else s) ∧
  (∀ (s : State) (ps : List Post) (q : BitVec 32),
    ((∀ o c, windowOrder s q = some o → o.status ≠ .completing c) → retryCompletion ⟨s, ps⟩ q = ⟨s, ps⟩) ∧
    ∀ o c, windowOrder s q = some o → o.status = .completing c →
      retryCompletion ⟨s, ps⟩ q = complete ⟨s, ps⟩ q c.outcome c.detail c.results) ∧
  (∀ (s : State) (ps : List Post),
    let w (x : StallAccess) : State := { s with ex := { s.ex with stalls := s.ex.stalls.filter (fun y => y != x) } }
    let base := areaBase s
    let header := bytesIn s.mem base 16
    let written : List Post :=
      [.mirror (.port 0), .mirror (.port 1), .mirror (.port 2), .mirror (.port 3), .mirror .roster, .mirror .timebase,
        .mirror .origin, .mirror .counters] ++ (List.finRange 64).map (fun n => .status n)
    (∀ q, retryRead ⟨s, ps⟩ (.completion q) = ⟨s, ps⟩) ∧
    (∀ v, retryRead ⟨s, ps⟩ (.orderRead v) = readOrder v ⟨w (.orderRead v), ps⟩) ∧
    (Readable s.mem base 16 → leAt header 0 4 = 1 → retryRead ⟨s, ps⟩ .header =
      ⟨{ s with ex := { s.ex with
          state := .attached, stallCause := none, stalls := [], notPosted := false
          chain := .headField (BitVec.ofNat 64 (leAt header 8 8)) } },
        ps ++ written ++ if s.store.origin = .defaults then [.notice (.errors .settingsLost .settingsLost .none 0 1)]
          else []⟩) ∧
    (Readable s.mem base 16 → leAt header 0 4 ≠ 1 → retryRead ⟨s, ps⟩ .header =
      ⟨{ s with ex := stalledBy .header .badHeader (w .header).ex },
        ps ++ [.notice (.errors .badHeader .badHeader .none (BitVec.ofNat 64 base) 1)]⟩) ∧
    (∀ x, firstFault s.mem.readFaults base 16 = some x → retryRead ⟨s, ps⟩ .header =
      ⟨{ s with ex := stalledBy .header .memoryFault (w .header).ex }, ps ++ [faultPost .headerRead x]⟩) ∧
    (s.ex.chain = .absent ∨ s.ex.chain = .head → retryRead ⟨s, ps⟩ .linkRead = ⟨w .linkRead, ps⟩) ∧
    (∀ z, s.ex.chain = .headField z → Readable s.mem (base + 8) 8 → retryRead ⟨s, ps⟩ .linkRead =
      ⟨{ s with ex := { (w .linkRead).ex with
        chain := .headField (BitVec.ofNat 64 (leNat (bytesIn s.mem (base + 8) 8))) } }, ps⟩) ∧
    (∀ v z, s.ex.chain = .last v z → Readable s.mem v.toNat 8 → retryRead ⟨s, ps⟩ .linkRead = judgeMark
      ⟨{ s with ex := { (w .linkRead).ex with
        chain := .last v (BitVec.ofNat 64 (leNat (bytesIn s.mem v.toNat 8))) } }, ps⟩) ∧
    (∀ a x, (∃ z, s.ex.chain = .headField z ∧ a = base + 8) ∨ (∃ v z, s.ex.chain = .last v z ∧ a = v.toNat) →
      firstFault s.mem.readFaults a 8 = some x → retryRead ⟨s, ps⟩ .linkRead =
        ⟨{ s with ex := stalledBy .linkRead .memoryFault (w .linkRead).ex }, ps ++ [faultPost .orderRead x]⟩)) ∧
  (∀ (s : State) (ps : List Post) (v : BitVec 64),
    let b := bytesIn s.mem v.toNat 64
    let q := BitVec.ofNat 32 (leAt b 8 4)
    let u : State := { s with ex := { s.ex with
      lastSequence := some q, chain := .last v (BitVec.ofNat 64 (leAt b 0 8)), notPosted := false
      window := s.ex.window ++ [{
        address := v, sequence := q, kind := BitVec.ofNat 8 (leAt b 0x0C 1), parameters := bytesAt b 0x10 48
        status := .dispatched }] } }
    let follows := ∀ l, s.ex.lastSequence = some l → q = l + 1
    let room := s.ex.window.length < 16
    (¬ room → readOrder v ⟨s, ps⟩ = ⟨s, ps⟩) ∧
    (∀ x, room → firstFault s.mem.readFaults v.toNat 64 = some x → readOrder v ⟨s, ps⟩ =
      ⟨{ s with ex := stalledBy (.orderRead v) .memoryFault s.ex }, ps ++ [faultPost .orderRead x]⟩) ∧
    (room → Readable s.mem v.toNat 64 →
      (leAt b 0x0D 1 ≠ 1 → readOrder v ⟨s, ps⟩ = ⟨{ s with ex := { s.ex with notPosted := true } }, ps⟩) ∧
      (leAt b 0x0D 1 = 1 → ¬ follows → readOrder v ⟨s, ps⟩ =
        ⟨{ s with ex := stalledBy (.orderRead v) .brokenChain s.ex },
          ps ++ [.notice (.errors .brokenChain .brokenChain .none v 1)]⟩) ∧
      (leAt b 0x0D 1 = 1 → follows → readOrder v ⟨s, ps⟩ = if s.ex.lastSequence.isSome then ⟨u, ps⟩
        else writeMark ⟨{ u with ex := { u.ex with mark := some (q - 1) } }, ps⟩ (q - 1))))

/-- NUDGE 0x0100 + k (R146) is ignored while no exchange is attached or the slot is CLOSED; else a faulted completion
write and then the slot's fetch stop are tried again: a tail's link alone is read, and read nonzero gives the next record
and releases a DONE tail (R149), read 0 leaves the stop; a record found not POSTED, or whose read faulted, is fetched
again as BLOCK_RECORD_FETCH fetches it. That the write is made again before the read is the model's choice (log entry
60); that the NUDGE reads in its own step, and reads a tail's link also after fetching has ended, is inferred (log
entries 34 and 38). A fault that does not change the slot's state leaves its cause (the model's choice, log entry 49).
NUDGE 0x0200 (R178) writes every header mirror, finds emptied lanes and inbox slots, and writes what was pending for a
lane that is or becomes held EMPTY; with no fault in the area each byte of memory is a written mirror's, a written lane
record's, or as before. With faults it makes the same accesses in the same order: the mirrors, each as any mirror is
written, then the lanes 0 to 11 and the inbox slots 0 to 7 in turn, once BROKEN is entered none. A flag whose read faults
leaves its lane or slot as it was held, with an ERRORS notice RESCAN_READ, and the rescan goes on; a lane write that
faults leaves the lane held EMPTY with its notice pending and is reported, on the ERRORS lane it breaks the exchange
(R181, R182). Choices of the model: that a faulting write leaves its own run as before and the run before it written (log
entry 4), that these ERRORS notices are taken at once (log entry 35), and what the ERRORS lane is held as in BROKEN (log
entry 51). -/
def Obligations.NudgeBlocksAndRescan : Prop :=
  (∀ (a : Act) (n : SlotIx), retryWrite a n = if (a.s.slot n).writeStop = true then
    completeAndEnd ⟨setSlot a.s n { a.s.slot n with writeStop := false }, a.posts⟩ n else a) ∧
  (∀ (s : State) (n : SlotIx), s.inReset = false → s.memOpen = false ∨ (s.slot n).state = .closed →
    Acts (.nudgeBlockChain n) s s []) ∧
  (∀ (s : State) (n : SlotIx), s.inReset = false → s.memOpen = true → (s.slot n).state ≠ .closed →
    let x := s.slot n
    Ends (.nudgeBlockChain n) s (retryStop (retryWrite ⟨s, []⟩ n) n) ∧
    (x.writeStop = true → Ends (.nudgeBlockChain n) s
      (retryStop (completeAndEnd ⟨setSlot s n { x with writeStop := false }, []⟩ n) n)) ∧
    (x.writeStop = false → x.stop = none → Acts (.nudgeBlockChain n) s s []) ∧
    (∀ v, x.writeStop = false → x.stop = some .notPosted ∨ x.stop = some .memoryFault → x.nextRecord = some v →
      x.fetchEnded = false → x.fetched.length < 16 →
      exec (.nudgeBlockChain n) s = exec (.blockRecordFetch n) (setSlot s n { x with stop := none })) ∧
    (x.writeStop = false → x.stop ≠ some .tail → x.nextRecord ≠ none → x.fetchEnded = true →
      Acts (.nudgeBlockChain n) s s []) ∧
    (∀ l : LastRecord, x.writeStop = false → x.stop = some .tail ∨ x.stop = some .memoryFault ∧ x.nextRecord = none →
      x.lastRecord = some l →
      let link := leNat (bytesIn s.mem l.address.toNat 8)
      let y : Slot := { x with
        stop := none, nextRecord := some (BitVec.ofNat 64 link), lastRecord := some { l with linkZero := false }
        fetched := x.fetched.map (fun r => if r.address = some l.address then { r with linked := true } else r) }
      (∀ e, firstFault s.mem.readFaults l.address.toNat 8 = some e → Ends (.nudgeBlockChain n) s
        (faultHalt ⟨setSlot s n { x with
          stop := some .memoryFault, counters := { x.counters with faults := x.counters.faults + 1 } },
          [faultPost .blockRecordRead e]⟩ n)) ∧
      (Readable s.mem l.address.toNat 8 → link = 0 → Acts (.nudgeBlockChain n) s (setSlot s n { x with
        stop := some .tail
        fetchEnded := x.fetchEnded || decide (x.state = .draining ∧
          (x.drainMode = some .finish ∨ x.drainMode = some .finishPeerLeaving)) }) []) ∧
      (Readable s.mem l.address.toNat 8 → link ≠ 0 → l.done = false → Acts (.nudgeBlockChain n) s (setSlot s n y) []) ∧
      (Readable s.mem l.address.toNat 8 → link ≠ 0 → l.done = true → Acts (.nudgeBlockChain n) s
        (setSlot s n { y with released := x.released + 1, releaseMark := l.number.getD x.releaseMark }) [.status n]))) ∧
  (∀ s : State, s.inReset = false → s.memOpen = false → Acts .nudgeRescan s s []) ∧
  (∀ s : State, s.inReset = false → s.memOpen = true →
    let mirrors : List Mirror :=
      [.port 0, .port 1, .port 2, .port 3, .roster, .timebase, .origin, .counters]
    Acts .nudgeRescan s ((List.finRange 8).foldl rescanInbox ((List.finRange 12).foldl rescanLane
      (mirrors.foldl (fun v m => deliver v (.mirror m)) s))) []) ∧
  (∀ (s : State) (k : NoticeIx),
    let b := s.ex.lanes.get k
    let base := areaBase s + 0x400 + 0x40 * k.val
    let stays := b.full = true ∧ memByte s.mem base ≠ 0
    (s.memOpen = false → rescanLane s k = s) ∧
    (∀ x, s.memOpen = true → firstFault s.mem.readFaults base 1 = some x → rescanLane s k =
      takeNotice s (.errors .memoryFault .memoryFault .rescanRead (BitVec.ofNat 64 x) 1)) ∧
    (s.memOpen = true → Readable s.mem base 1 →
      (stays → rescanLane s k = s) ∧
      (¬ stays → b.pending = none → rescanLane s k = setLane s k ⟨false, none⟩) ∧
      ∀ p, ¬ stays → b.pending = some p →
        let record : List Byte := leBytes 1 p.merges ++ zeros 6 ++ padTo 56 (noticeFields p.notice)
        let kept (m : Memory) : State := { setLane s k ⟨false, some p⟩ with mem := m }
        let stops (m : Memory) (x : Nat) : Prop := rescanLane s k = if k = 11 then enterBroken (kept m)
          else takeNotice (kept m) (.errors .memoryFault .memoryFault .laneWrite (BitVec.ofNat 64 x) 1)
        (Writable s.mem base 64 → ∃ m, Stored s.mem m base (leBytes 1 1 ++ record) ∧
          rescanLane s k = { setLane s k ⟨true, none⟩ with mem := m }) ∧
        (∀ x, firstFault s.mem.writeFaults (base + 1) 63 = some x → stops s.mem x) ∧
        (∀ x, Writable s.mem (base + 1) 63 → firstFault s.mem.writeFaults base 1 = some x →
          ∃ m, Stored s.mem m (base + 1) record ∧ stops m x))) ∧
  (∀ (s : State) (k : InboxIx),
    let flag := areaBase s + 0x800 + 0x100 * k.val
    (s.memOpen = false → rescanInbox s k = s) ∧
    (∀ x, s.memOpen = true → firstFault s.mem.readFaults flag 1 = some x → rescanInbox s k =
      takeNotice s (.errors .memoryFault .memoryFault .rescanRead (BitVec.ofNat 64 x) 1)) ∧
    (s.memOpen = true → Readable s.mem flag 1 →
      (memByte s.mem flag ≠ 0 → rescanInbox s k = s) ∧
      (memByte s.mem flag = 0 → rescanInbox s k =
        { s with notes := { s.notes with inbox := upd s.notes.inbox k (fun _ => false) } }))) ∧
  (∀ s : State, s.inReset = false → s.memOpen = true → Readable s.mem (areaBase s) 0x1800 →
    Writable s.mem (areaBase s) 0x1800 →
    let lane (k : NoticeIx) := areaBase s + 0x400 + 0x40 * k.val
    let stays (k : NoticeIx) := (s.ex.lanes.get k).full = true ∧ memByte s.mem (lane k) ≠ 0
    let mirrors : List (Nat × List Byte) :=
      ([(.port 0, 0x40), (.port 1, 0x90), (.port 2, 0xE0), (.port 3, 0x130), (.roster, 0x20), (.timebase, 0x28),
        (.origin, 0x18), (.counters, 0x180)] : List (Mirror × Nat)).map (fun m => (areaBase s + m.2, mirrorBytes s m.1))
    let records : List (Nat × List Byte) := (List.finRange 12).flatMap (fun k =>
      match (s.ex.lanes.get k).pending with
      | some p => if stays k then [] else
          [(lane k, leBytes 1 1 ++ leBytes 1 p.merges ++ zeros 6 ++ padTo 56 (noticeFields p.notice))]
      | none => [])
    ∃ t, Acts .nudgeRescan s t [] ∧
      (∀ k : NoticeIx, t.ex.lanes.get k =
        if stays k then s.ex.lanes.get k else ⟨(s.ex.lanes.get k).pending.isSome, none⟩) ∧
      (∀ k : InboxIx, t.notes.inbox.get k =
        (s.notes.inbox.get k && memByte s.mem (areaBase s + 0x800 + 0x100 * k.val) != 0)) ∧
      (∀ r ∈ mirrors ++ records, ∀ i, i < r.2.length → memByte t.mem (r.1 + i) = r.2.getD i 0) ∧
      (∀ a, (∀ r ∈ mirrors ++ records, a < r.1 ∨ r.1 + r.2.length ≤ a) → memByte t.mem a = memByte s.mem a) ∧
      t.mem.readFaults = s.mem.readFaults ∧ t.mem.writeFaults = s.mem.writeFaults ∧
      { t with ex := { t.ex with lanes := s.ex.lanes }, notes := { t.notes with inbox := s.notes.inbox }, mem := s.mem }
        = s)

/-- Where the next record comes from (R171): the chain head field or the last record's link, where it was read
nonzero. The owner of each order kind (R172), and the order it takes next: the first in the window that is dispatched
and of its kinds, a kind value that names no order being the exchange unit's; that an order row takes it is the
model's choice (log entry 8). ORDER_FETCH (R171, R172): ATTACHED with a place in the window and no stop pending, the
next record is read whole: one not POSTED stops the fetch, one that does not follow the last sequence stalls with
BROKEN_CHAIN, any other joins the window dispatched; the first after an attach sets the reclaim mark (R174). A fault
stalls. That 48 bytes are kept, and that a fetch not enabled has no effect, are the model's choices (log entries 7 and
9); that the first mark is written into the header is its reading (log entry 22). The parameters of each order kind
lie at the places of R191, of which the widths are the model's choice where it gives none (log entry 7). -/
def Obligations.OrderFetch : Prop :=
  (∀ o : Order,
    let at' (place width : Nat) : Nat := leAt o.parameters place width
    (readStateKind o = at' 0 1 ∧ readStatePointer o = at' 8 8 ∧ readStateLength o = at' 16 8 ∧ readStateSlot o = at' 24 1) ∧
    (portParameter o = at' 0 1 ∧ holdAction o = at' 1 1) ∧ (decideFrame o = at' 0 1 ∧ decideSerial o = at' 8 8) ∧
    filterPointer o = at' 0 8 ∧ (scheduleLane o = at' 0 1 ∧ scheduleTime o = at' 8 8) ∧ cancelSequence o = at' 0 2 ∧
    (openSlot o = at' 0 1 ∧ openRole o = at' 1 1 ∧ openPeer o = at' 2 1 ∧ openTag o = at' 4 2 ∧ openBlockSize o = at' 8 4 ∧
      openPace o = at' 12 4 ∧ openGateKind o = at' 16 1 ∧ openGateValue o = at' 24 8 ∧ openInterval o = at' 32 1 ∧
      openLateness o = at' 36 4 ∧ openChain o = at' 40 8) ∧
    (streamSlotParameter o = at' 0 1 ∧ closeMode o = at' 1 1) ∧
    (noteDest o = at' 0 1 ∧ notePointer o = at' 8 8 ∧ noteLength o = at' 16 1) ∧
    (settingsMask o = at' 0 4 ∧ settingsPointer o = at' 8 8)) ∧
  (∀ (e : Exchange) (v z : BitVec 64),
    (e.chain = .absent ∨ e.chain = .head → nextOrderAddress e = none) ∧
    (e.chain = .headField v ∨ e.chain = .last z v → nextOrderAddress e = if v = 0 then none else some v)) ∧
  [OrderKind.nop, .readState, .armPort, .holdPort, .join, .leave, .admitFrame, .refuse, .setFilter, .scheduleTrigger,
    .cancelTrigger, .openStream, .closeStream, .haltStream, .resumeStream, .sendNote, .setSettings,
    .storeSettings].map orderOwner =
    [.exchange, .exchange, .ports, .ports, .roster, .roster, .roster, .roster, .roster, .trigger, .trigger, .stream,
      .stream, .stream, .stream, .notePath, .settings, .settings] ∧
  (∀ (s : State) (w : OrderOwner) (o : Order),
    let waits (x : Order) : Prop :=
      x.status = .dispatched ∧ (orderKindOfCode x.kind.toNat).elim .exchange orderOwner = w
    nextOrder s w = some o ↔ waits o ∧ ∃ before after, s.ex.window = before ++ o :: after ∧ ∀ x ∈ before, ¬ waits x) ∧
  (∀ (s : State) (ps : List Post) (m : BitVec 32),
    let ad := areaBase s + 0x10
    (s.memOpen = false → writeMark ⟨s, ps⟩ m = ⟨s, ps⟩) ∧
    (s.memOpen = true → Writable s.mem ad 4 →
      ∃ v, Stored s.mem v ad (leBytes 4 m.toNat) ∧ writeMark ⟨s, ps⟩ m = ⟨{ s with mem := v }, ps⟩) ∧
    (∀ x, s.memOpen = true → firstFault s.mem.writeFaults ad 4 = some x →
      writeMark ⟨s, ps⟩ m = ⟨s, ps ++ [faultPost .mirrorWrite x]⟩)) ∧
  ∀ s : State, s.inReset = false →
    ((s.ex.state ≠ .attached ∨ 16 ≤ s.ex.window.length ∨ s.ex.notPosted = true ∨ nextOrderAddress s.ex = none) →
      Acts .orderFetch s s []) ∧
    (∀ v, s.ex.state = .attached → s.ex.window.length < 16 → s.ex.notPosted = false → nextOrderAddress s.ex = some v →
      let b := bytesIn s.mem v.toNat 64
      let q := BitVec.ofNat 32 (leAt b 8 4)
      let u : State := { s with ex := { s.ex with
        lastSequence := some q, chain := .last v (BitVec.ofNat 64 (leAt b 0 8)), notPosted := false
        window := s.ex.window ++ [{
          address := v, sequence := q, kind := BitVec.ofNat 8 (leAt b 0x0C 1), parameters := bytesAt b 0x10 48
          status := .dispatched }] } }
      (∀ x, firstFault s.mem.readFaults v.toNat 64 = some x →
        Acts .orderFetch s { s with ex := stalledBy (.orderRead v) .memoryFault s.ex } [faultPost .orderRead x]) ∧
      (Readable s.mem v.toNat 64 → leAt b 0x0D 1 ≠ 1 →
        Acts .orderFetch s { s with ex := { s.ex with notPosted := true } } []) ∧
      (∀ l, Readable s.mem v.toNat 64 → leAt b 0x0D 1 = 1 → s.ex.lastSequence = some l → q ≠ l + 1 →
        Acts .orderFetch s { s with ex := stalledBy (.orderRead v) .brokenChain s.ex }
          [.notice (.errors .brokenChain .brokenChain .none v 1)]) ∧
      (∀ l, Readable s.mem v.toNat 64 → leAt b 0x0D 1 = 1 → s.ex.lastSequence = some l → q = l + 1 →
        Acts .orderFetch s u []) ∧
      (Readable s.mem v.toNat 64 → leAt b 0x0D 1 = 1 → s.ex.lastSequence = none →
        Ends .orderFetch s (writeMark ⟨{ u with ex := { u.ex with mark := some (q - 1) } }, []⟩ (q - 1))))

/-! ## Orders -/

namespace Sys2Proof.Statements

/-- `o` is the oldest order its owner has not taken, and it is of a kind. That an order row takes this order is the
model's choice (log entry 8). -/
structure Oldest (k : OrderKind) (o : Order) (s : State) : Prop where
  running : s.inReset = false
  oldest : nextOrder s (orderOwner k) = some o
  kind : orderKindOfCode o.kind.toNat = some k

/-- The command, run at `s`, gives the order an outcome, a detail and results, and has no other effect. -/
def Answers (c : Instr) (s : State) (o : Order) (outcome : Outcome) (detail : Nat := 0) (results : List Byte := []) :
    Prop :=
  Ends c s (complete ⟨s, []⟩ o.sequence outcome detail results)

/-- The order held in the window by its owner. -/
def held (s : State) (o : Order) : State :=
  { s with ex := { s.ex with
      window := s.ex.window.map (fun w => if w.sequence = o.sequence then { w with status := .held } else w) } }

end Sys2Proof.Statements

/-- The completion of an order (R173): outcome, detail and results are written into its record, then the state DONE;
it leaves the window, is counted, the mark is judged (R174) and one ORDERS notice is posted. A fault on any of the
writes stalls the exchange with the completion held, the order not DONE and no ORDERS notice posted; that the faulting
write leaves its own bytes as before, and those of the writes made before it written, is the model's choice (log entry
4). The mark, absent before the first fetch, is the number before the oldest order of the window, and with the
window empty the last sequence, or the number before it while the last record's link is 0; it is written into the
header each time it advances, and a fault of that write is reported, not retried (R174, R180). NOP does only this,
with DONE, and a kind value that names no order with BAD_KIND. The codes of the outcomes and of the order kinds
(R191). -/
def Obligations.OrderCompletion : Prop :=
  [Outcome.done, .badKind, .badOrder, .wrongState, .notMember, .notAnchor, .notHeld, .unreachable, .slotBusy, .noOffer,
    .mismatch, .full, .cancelled, .noTime, .tooSoon, .busy, .notAttached, .unconfirmed, .inUse, .storeFailed,
    .memoryFault].map outcomeCode = List.range 21 ∧
  [OrderKind.nop, .readState, .armPort, .holdPort, .join, .leave, .admitFrame, .refuse, .setFilter, .scheduleTrigger,
    .cancelTrigger, .openStream, .closeStream, .haltStream, .resumeStream, .sendNote, .setSettings,
    .storeSettings].map orderKindCode = List.range' 1 18 ∧
  (∀ (k : OrderKind) (n : Nat), orderKindOfCode n = some k ↔ orderKindCode k = n) ∧
  (∀ (s : State) (ps : List Post) (q : BitVec 32) (o : Order) (c : Completion), windowOrder s q = some o →
    let ad := o.address.toNat
    let answer : List Byte := leBytes 1 (outcomeCode c.outcome) ++ leBytes 1 c.detail
    let results : List Byte := (padTo 16 c.results).take 16
    let ends : Act := complete ⟨s, ps⟩ q c.outcome c.detail c.results
    let stalls (m : Memory) (x : Nat) : Prop := ends = ⟨{ s with
        mem := m
        ex := stalledBy (.completion o.sequence) .memoryFault { s.ex with window := s.ex.window.map (fun w =>
          if w.sequence = o.sequence then { w with status := .completing c } else w) } }, ps ++ [faultPost .orderWrite x]⟩
    (Writable s.mem (ad + 0x0D) 51 →
      ∃ m m₁ m₂, Stored s.mem m₁ (ad + 0x0E) answer ∧ Stored m₁ m₂ (ad + 0x30) results ∧ Stored m₂ m (ad + 0x0D) [2] ∧
        ends = (judgeMark ⟨{ s with
            mem := m
            ex := { s.ex with
              window := s.ex.window.filter (fun w => w.sequence != o.sequence)
              stalls := s.ex.stalls.filter (fun x => x != .completion o.sequence)
              ordersDone := if c.outcome = .done then s.ex.ordersDone + 1 else s.ex.ordersDone
              ordersFailed := if c.outcome = .done then s.ex.ordersFailed else s.ex.ordersFailed + 1 } }, ps⟩).post
          (.notice (.orders 1 o.sequence (decide (c.outcome ≠ .done))))) ∧
    (∀ x, firstFault s.mem.writeFaults (ad + 0x0E) 2 = some x → stalls s.mem x) ∧
    (∀ x, Writable s.mem (ad + 0x0E) 2 → firstFault s.mem.writeFaults (ad + 0x30) 16 = some x →
      ∃ m, Stored s.mem m (ad + 0x0E) answer ∧ stalls m x) ∧
    (∀ x, Writable s.mem (ad + 0x0E) 2 → Writable s.mem (ad + 0x30) 16 →
      firstFault s.mem.writeFaults (ad + 0x0D) 1 = some x →
      ∃ m m₁, Stored s.mem m₁ (ad + 0x0E) answer ∧ Stored m₁ m (ad + 0x30) results ∧ stalls m x)) ∧
  (∀ (s : State) (ps : List Post),
    let e := s.ex
    let tail := ∃ v, e.chain = .last v 0
    let judged (m : BitVec 32) := (∃ o rest, e.window = o :: rest ∧ m = o.sequence - 1) ∨
      ∃ l, e.window = [] ∧ e.lastSequence = some l ∧ (tail ∧ m = l - 1 ∨ ¬ tail ∧ m = l)
    let ad := areaBase s + 0x10
    (e.mark = none ∨ e.lastSequence = none → judgeMark ⟨s, ps⟩ = ⟨s, ps⟩) ∧
    ∀ old m, e.mark = some old → e.lastSequence ≠ none → judged m →
      let u : State := { s with ex := { e with mark := some m } }
      (newer m old = false → judgeMark ⟨s, ps⟩ = ⟨s, ps⟩) ∧
      (newer m old = true → s.memOpen = false → judgeMark ⟨s, ps⟩ = ⟨u, ps⟩) ∧
      (newer m old = true → s.memOpen = true → Writable s.mem ad 4 →
        ∃ v, Stored s.mem v ad (leBytes 4 m.toNat) ∧ judgeMark ⟨s, ps⟩ = ⟨{ u with mem := v }, ps⟩) ∧
      (∀ x, newer m old = true → s.memOpen = true → firstFault s.mem.writeFaults ad 4 = some x →
        judgeMark ⟨s, ps⟩ = ⟨u, ps ++ [faultPost .mirrorWrite x]⟩)) ∧
  (∀ (s : State) (ps : List Post) (q : BitVec 32) (r : Outcome) (d : Nat) (b : List Byte), windowOrder s q = none →
    complete ⟨s, ps⟩ q r d b = ⟨s, ps⟩) ∧
  (∀ (s : State) (o : Order), Oldest .nop o s → Answers .nop s o .done) ∧
  (∀ (s : State) (o : Order), s.inReset = false → nextOrder s .exchange = some o →
    orderKindOfCode o.kind.toNat = none → Answers .badKind s o .badKind)

/-- READ_STATE (R175): the first parameter out of range gives BAD_ORDER with its index; else the snapshot, of its
kind's length and with its head, is written into the buffer and the order completes DONE with the length; a fault
gives MEMORY_FAULT and an ERRORS notice, the bytes below the faulting address written and no other (R175; that the
faulting address is the lowest that faults: log entry 4). The lengths are those of R194; the bytes of each snapshot
are spelled, field by field in the order of its chapter's list (R194), with the codes in them. Where the spec leaves a
snapshot's layout open it is the model's (log entry 21), as is that of several invalid parameters the lowest index is
given (log entry 61). -/
def Obligations.ReadState : Prop :=
  (snapshotLength .roster = 2048 ∧ snapshotLength .reach = 2048 ∧ snapshotLength .triggers = 2048 ∧
    snapshotLength .ports = 1024 ∧ snapshotLength .streamSlot = 1024 ∧ snapshotLength .settings = 512 ∧
    snapshotLength .timebase = 128 ∧ snapshotLength .identity = 64) ∧
  (∀ (s : State) (n : SlotIx),
    let x := s.store
    let t := s.tb
    let c := t.counters
    let head (k : SnapshotKind) (len : Nat) : List Byte :=
      leBytes 1 (snapshotKindCode k) ++ leBytes 1 1 ++ zeros 2 ++ leBytes 4 len
    let counts (cs : List Count) : List Byte := cs.flatMap (fun c => leBytes 4 c.toNat)
    snapshot s .identity n = head .identity 64 ++ leBytes 2 x.identity.frameClass.toNat ++ zeros 6 ++
      leBytes 8 x.identity.serial.toNat ++ leBytes 4 x.identity.capabilities.toNat ++ leBytes 2 x.incarnation.toNat ++
      leBytes 2 0x47D3 ++ leBytes 1 0x44 ++ leBytes 1 Config.revision.toNat ++ zeros 30 ∧
    snapshot s .timebase n = head .timebase 128 ++ leBytes 8 t.rackTime.toNat ++ leBytes 1 (timeStateCode t.state) ++
      leBytes 1 t.master.val ++ leBytes 1 (match (if t.master = 0 ∨ t.master = s.own then none else s.route t.master) with
        | some r => r.port.val
        | none => 0xFF) ++
      leBytes 1 (t.distance.getD 0) ++ zeros 4 ++ leBytes 8 (BitVec.ofInt 64 t.correction).toNat ++
      leBytes 8 (BitVec.ofInt 64 (t.lastOffset.getD 0)).toNat ++ leBytes 1 (flagCode t.stepPending) ++
      leBytes 1 t.lockCount ++ leBytes 1 t.excursions ++ zeros 5 ++
      leBytes 8 (t.holdoverSince.elim 0 (fun m => s.now - m)) ++ leBytes 2 s.store.working.holdover ++ zeros 2 ++
      counts [c.accepted, c.ignored, c.far, c.nodelay, c.held, c.excursion, c.steps, c.losses, c.gaps] ++ zeros 32) ∧
  (∀ (s : State) (n : SlotIx),
    let x := s.roster
    let c := x.counters
    snapshot s .roster n = laidOut .roster ([item 1 (standingCode x.standing), item 1 x.anchor.val,
        item 1 (flagCode (s.own != 0 && x.anchor == s.own)), item 1 (flagCode x.leavingLatch),
        item 1 (flagCode x.refusedLatch), item 1 (flagCode x.heldLatch), item 1 (flagCode x.rejoin),
        item 4 x.generation.toNat, item 1 x.issuer.val] ++
      allFrames.flatMap (fun f => [item 1 (entryStateCode (s.entry f).state), item 8 (s.entry f).serial.toNat]) ++
      allFrames.flatMap (fun f => match (s.entry f).identity with
        | none => [item 2 0, item 4 0, item 1 0, item 1 0, item 1 0, item 8 ((s.entry f).deadline.getD 0)]
        | some i => [item 2 i.frameClass.toNat, item 4 i.capabilities.toNat, item 1 (flagCode i.rejoin),
            item 1 i.entryFrame.val, item 1 i.entryPort.val, item 8 ((s.entry f).deadline.getD 0)]) ++
      [countItems [c.helloForwarded, c.helloDropped, c.verdictForwarded, c.verdictDropped, c.leaveDropped,
        c.rollIgnored]])) ∧
  (∀ (s : State) (n : SlotIx),
    let c := s.reach.counters
    snapshot s .reach n = laidOut .reach (allFrames.flatMap (fun f => match s.route f with
        | none => [item 1 0, item 1 0, item 1 0, item 2 0, item 2 0, item 1 0, (4, zeros 20)]
        | some r =>
          let z := r.contents
          [item 1 1, item 1 r.hops, item 1 r.port.val, item 2 r.incarnation.toNat, item 2 r.sequence.toNat, item 1 r.age,
            (4, leBytes 1 z.frame.toNat ++ leBytes 1 z.anchorRank.toNat ++ leBytes 1 z.timeRank.toNat ++
              leBytes 1 z.timeState.toNat ++ leBytes 6 z.serial.toNat ++ leBytes 2 z.incarnation.toNat ++
              leBytes 4 z.generation.toNat ++ leBytes 1 z.followedAnchor.toNat ++ leBytes 1 z.followedMaster.toNat ++
              leBytes 1 z.standing.toNat ++ leBytes 1 z.leaving.toNat)]) ++
      [item 2 s.reach.ownSequence.toNat, item 1 (bitmap 8 allPorts s.reach.portSet.get).toNat,
        countItems [c.learned, c.improved, c.late, c.stale, c.far, c.malformed, c.conflict, c.lost]])) ∧
  (∀ (s : State) (n : SlotIx), snapshot s .ports n = laidOut .ports (allPorts.flatMap (fun p =>
    let r := s.port p
    let c := (s.link p).counters
    [item 1 (portStateCode r.state), item 1 (portCauseCode r.cause), item 1 r.health, item 1 r.settling,
      item 8 r.partnerSerial.toNat, item 1 r.partnerFrame.val, item 1 r.partnerPort.val, item 2 r.partnerIncarnation.toNat,
      item 1 r.samples.length, item 4 (r.samples.getD 0 0), item 4 (r.samples.getD 1 0), item 4 (r.samples.getD 2 0),
      item 4 (r.samples.getD 3 0), item 4 (if r.samples = [] then 0 else r.samples.sum / r.samples.length),
      item 2 r.attempts.toNat, item 1 r.probeNumber.toNat, item 1 (r.outstanding.elim 0 (fun o => o.number.toNat)),
      item 8 (r.outstanding.elim 0 (fun o => o.departure.toNat)), item 4 r.outliers.toNat, item 4 r.missedEchoes.toNat,
      countItems [c.delimit, c.length, c.check, c.kind, c.trainingDiscard, c.own, c.noroute, c.reflect, c.hops, c.tDrops,
        c.cDrops, c.dDrops, c.flush, c.reroute]]))) ∧
  (∀ (s : State) (n : SlotIx),
    let x := s.trig
    let c := x.counters
    snapshot s .triggers n = laidOut .triggers ([item 1 x.schedule.length] ++ (List.range 32).flatMap (fun i => match x.schedule[i]? with
        | none => [item 1 0, item 8 0, item 1 0, item 2 0, item 1 0]
        | some t => [item 1 t.lane.val, item 8 t.fireTime.toNat, item 1 t.origin.val, item 2 t.sequence.toNat,
            item 1 t.quality.toNat]) ++
      [item 8 s.tb.rackTime.toNat] ++ allLanes.flatMap (fun k =>
        let l := x.lanes.get k
        [item 1 (inputStageCode l.stage), item 1 (flagCode l.pulseEnd.isSome),
          item 4 (l.pulseEnd.elim 0 (fun e => e - s.now))]) ++
      [item 2 x.sequence.toNat, countItems [c.fired, c.late, c.dropped, c.merged, c.localOnly, c.outputOff, c.trigIgnored,
        c.trigMalformed, c.mutedEdge, c.cancelled]])) ∧
  (∀ (s : State) (n : SlotIx),
    let x := s.store
    let w := x.working
    snapshot s .settings n = laidOut .settings [(8, leBytes 1 w.frame.val ++ leBytes 1 w.anchorRank.val ++ leBytes 1 w.timeRank.val ++
        leBytes 1 (bitmap 8 allPorts w.enable.get).toNat ++ leBytes 1 (wakeCode w.wake) ++ leBytes 1 w.threshold ++
        leBytes 2 w.holdLimit ++ leBytes 2 w.window ++ leBytes 2 w.holdover ++ zeros 4 ++ allLanes.flatMap (fun k =>
          let l := w.lanes.get k
          leBytes 1 (flagCode l.inputEnable + 2 * flagCode l.fallingEdge + 4 * flagCode l.outputEnable) ++ zeros 1 ++
            leBytes 2 l.lead ++ leBytes 2 l.width ++ zeros 2)),
      (8, leBytes 1 (flagCode w.filter.armed) ++ zeros 3 ++ leBytes 4 w.filter.required.toNat ++
        (List.finRange 4).flatMap (fun k =>
          let p := w.filter.patterns.get k
          leBytes 1 (flagCode p.enabled) ++ zeros 1 ++ leBytes 2 p.classValue.toNat ++ leBytes 2 p.classMask.toNat ++
            zeros 2 ++ leBytes 8 p.serialValue.toNat ++ leBytes 8 p.serialMask.toNat)),
      item 1 (settingsOriginCode x.origin), item 1 (flagCode x.modified), item 1 (flagCode x.storedValid),
      item 1 (flagCode x.storing.isSome)]) ∧
  (∀ (s : State) (n : SlotIx),
    let x := s.slot n
    let c := x.counters
    snapshot s .streamSlot n = laidOut .streamSlot ([item 1 (roleCode x.role), item 1 (streamStateCode x.state), item 1 (streamCauseCode x.cause),
        item 2 x.tag.toNat, item 1 x.peer.val, item 2 (if x.openAbsent then 0 else x.openNumber.toNat),
        item 2 (x.peerIncarnation.elim 0 (fun i => i.toNat)), item 4 x.blockSize, item 4 x.pace,
        item 1 (match x.gate with | .now => 0 | .atTime _ => 1 | .onLane _ => 2),
        item 8 (match x.gate with | .now => 0 | .atTime t => t.toNat | .onLane k => k.val),
        item 8 x.startTime.toNat, item 8 x.nextPace, item 1 x.interval, item 4 x.lateness, item 8 x.chainHead.toNat,
        item 1 (flagCode x.selfHalt), item 1 (flagCode x.peerHalt), item 1 (flagCode x.drain), item 4 x.creditLimit.toNat,
        item 1 x.unresolved, item 8 (x.strandDeadline.getD 0), item 8 (x.closeDeadline.getD 0),
        item 4 (x.openOrder.elim 0 (fun q => q.toNat)), item 4 (x.finishOrder.elim 0 (fun q => q.toNat)),
        countItems [c.openSent, c.blocksStarted, c.missedPace, c.creditSent, c.unsent, c.delivered, c.damaged,
          c.unconfirmed, c.discarded, c.rejected, c.ended, c.cutOff, c.stale, c.beyond, c.heldOff, c.gap, c.late,
          c.ackIgnored, c.faults], item 4 s.stream.unmatched.toNat] ++
      (List.range 16).flatMap (fun i => match x.fetched[i]? with
        | none => [item 8 0, item 4 0, item 1 0, item 1 0]
        | some r => [item 8 (r.address.elim 0 (fun a => a.toNat)), item 4 (r.number.elim 0 (fun b => b.toNat)),
            item 1 (stageCode r.stage), item 1 (r.outcome.elim 0 blockOutcomeCode)]))) ∧
  ([TimeState.free, .master, .acquiring, .locked, .holdover].map timeStateCode = List.range 5 ∧
    [Standing.unnumbered, .alone, .seeking, .held, .member, .refused, .leaving].map standingCode = List.range 7 ∧
    [EntryState.vacant, .quarantined, .member, .stray, .leaving, .refused].map entryStateCode = List.range 6 ∧
    [PortState.held, .dark, .lockout, .training, .up, .faulted].map portStateCode = List.range 6 ∧
    [PortCause.reset, .wake, .noise, .quiet, .trained, .timeout, .lost, .loopback, .changed, .health, .pulled, .retrain,
      .silent, .hold, .release, .armed].map portCauseCode = List.range 16 ∧
    [InputStage.idle, .asserted, .muted].map inputStageCode = [0, 1, 2] ∧
    [SettingsOrigin.stored, .defaults].map settingsOriginCode = [0, 1] ∧ [Role.source, .sink].map roleCode = [0, 1] ∧
    [StreamState.closed, .opening, .armed, .flowing, .timeheld, .halted, .stranded, .draining, .offered].map
      streamStateCode = [0, 1, 2, 3, 4, 5, 6, 7, 1] ∧
    [StreamCause.none, .offered, .opening, .accepted, .halt, .peerHalt, .resumed, .gate, .timebase, .drain, .returned,
      .peerUnreachable, .peerStray, .notMember, .peerLeaving, .finish, .leaving, .cancelled, .noOffer, .mismatch, .full,
      .unreachable, .closed, .peerClosed, .peerLost, .ended, .exchangeReset, .exchangeBroken, .memoryFault].map
      streamCauseCode = List.range 29 ∧
    [Stage.waiting, .sending, .sent, .credited, .assembling, .faulted, .resolved].map stageCode = [0, 1, 2, 0, 1, 2, 3] ∧
    [BlockOutcome.delivered, .damaged, .unconfirmed, .discarded, .rejected, .ended].map blockOutcomeCode =
      List.range' 1 6 ∧
    [SnapshotKind.roster, .reach, .ports, .timebase, .triggers, .settings, .identity, .streamSlot].map snapshotKindCode =
      List.range 8 ∧
    ∀ k n, snapshotKindOfCode n = some k ↔ snapshotKindCode k = n) ∧
  ∀ (s : State) (o : Order), Oldest .readState o s →
    (snapshotKindOfCode (readStateKind o) = none → Answers .readState s o .badOrder 0) ∧
    ∀ k, snapshotKindOfCode (readStateKind o) = some k →
      let ad := readStatePointer o
      let bs := snapshot s k (slotOf (readStateSlot o))
      bs.length = snapshotLength k ∧
      bs.take 8 = leBytes 1 (snapshotKindCode k) ++ leBytes 1 1 ++ zeros 2 ++ leBytes 4 (snapshotLength k) ∧
      (ad = 0 → Answers .readState s o .badOrder 1) ∧
      (ad ≠ 0 → readStateLength o < snapshotLength k → Answers .readState s o .badOrder 2) ∧
      (ad ≠ 0 → snapshotLength k ≤ readStateLength o → k = .streamSlot → 63 < readStateSlot o →
        Answers .readState s o .badOrder 3) ∧
      (ad ≠ 0 → snapshotLength k ≤ readStateLength o → (k = .streamSlot → readStateSlot o ≤ 63) →
        (Writable s.mem ad (snapshotLength k) → ∃ m, Stored s.mem m ad bs ∧
          Ends .readState s (complete ⟨{ s with mem := m }, []⟩ o.sequence .done 0 (leBytes 2 (snapshotLength k)))) ∧
        (∀ x, firstFault s.mem.writeFaults ad (snapshotLength k) = some x →
          ad ≤ x ∧ ∃ m, Stored s.mem m ad (bs.take (x - ad)) ∧
            Ends .readState s
              ((complete ⟨{ s with mem := m }, []⟩ o.sequence .memoryFault).post (faultPost .snapshotWrite x))))

/-- ARM_PORT (R41): an index outside 0 to 3 gives BAD_ORDER with detail 0; a FAULTED port goes to TRAINING with cause
ARMED where its enable setting is on, its health count 0, its transmitter sending training symbols, and to HELD with
cause HOLD where it is off, DONE; in any other state WRONG_STATE. That lock is to be gained anew in TRAINING is the
model's reading (log entry 13). -/
def Obligations.ArmPort : Prop :=
  ∀ (s : State) (o : Order), Oldest .armPort o s →
    (3 < portParameter o → Answers .armPort s o .badOrder 0) ∧
    ∀ p : PortIx, portParameter o = p.val →
      ((s.port p).state ≠ .faulted → Answers .armPort s o .wrongState) ∧
      ((s.port p).state = .faulted → s.store.working.enable.get p = true →
        let u := s.modPort p (trainingRecord s.now .armed)
        Ends .armPort s (complete ⟨u, portReport p .training .armed⟩ o.sequence .done) ∧
        (u.port p).state = .training ∧ (u.port p).cause = .armed ∧ (u.port p).health = 0 ∧
        portOutput u p = .trainingSymbols) ∧
      ((s.port p).state = .faulted → s.store.working.enable.get p = false →
        Ends .armPort s (complete ⟨s.modPort p (fun r => { r with
          state := .held, cause := .hold, noiseSince := none, quietSince := none, trainingSince := none
          lastProbe := none }), portReport p .held .hold⟩ o.sequence .done))

/-- HOLD_PORT (R42) by action and port state: a hold takes a port to HELD, from UP with a port loss; a release takes a
HELD port to DARK with a burst; the parameters are tested first. A cell on the line of a held TRAINING port is lost
uncounted (the model's choice, log entry 15); with both parameters invalid the lower index is given (log entry 61). The
noise count of a released port starts at its entry into DARK (log entry 63). -/
def Obligations.HoldPort : Prop :=
  ∀ (s : State) (o : Order), Oldest .holdPort o s →
    (3 < portParameter o → Answers .holdPort s o .badOrder 0) ∧
    ∀ p : PortIx, portParameter o = p.val →
      let idle (r : Port) : Port := { r with
        state := .held, cause := .hold, noiseSince := none, quietSince := none, trainingSince := none, lastProbe := none }
      (1 < holdAction o → Answers .holdPort s o .badOrder 1) ∧
      (holdAction o = 0 → match (s.port p).state with
        | .dark | .lockout =>
          Ends .holdPort s (complete ⟨s.modPort p idle, portReport p .held .hold⟩ o.sequence .done)
        | .training => Ends .holdPort s (complete
            ⟨(s.modPort p idle).modLink p (fun l => { l with line := none }), portReport p .held .hold⟩ o.sequence .done)
        | .up => Ends .holdPort s (complete
            (portLossEvent p ⟨s.modPort p (fun r => idle (leftUp r)), portReport p .held .hold⟩) o.sequence .done)
        | .held => Answers .holdPort s o .done
        | .faulted => Answers .holdPort s o .wrongState) ∧
      (holdAction o = 1 → if (s.port p).state = .held then
          Ends .holdPort s (complete ⟨s.modPort p (darkRecord s.now .release), portReport p .dark .release⟩ o.sequence
            .done)
        else Answers .holdPort s o .wrongState)

/-! ## Roster -/

namespace Sys2Proof.Statements

/-- The own entry (R62) has a state: the entry at the own number carries the own serial and the state. -/
def OwnEntry (s : State) (st : EntryState) : Prop :=
  s.own ≠ 0 ∧ (s.entry s.own).serial = s.serial ∧ (s.entry s.own).state = st ∧ st ≠ .vacant

/-- The best of the frames that are candidates, each with a rank: the highest rank, then the lowest frame number. -/
def Best (candidate : FrameNo → Nat → Prop) (f : FrameNo) (n : Nat) : Prop :=
  candidate f n ∧ ∀ g m, candidate g m → g = f ∨ m < n ∨ m = n ∧ f.val < g.val

/-- The own rank of a kind as the part acts on it: 0 while the leaving latch is set (R64, R87). -/
def actingRank (s : State) (rank : Fin 16) : Nat := if s.roster.leavingLatch then 0 else rank.val

/-- A frame is REACHABLE with contents that show an anchor rank above 0 and the leaving flag clear. -/
def AnchorReady (s : State) (f : FrameNo) (n : Nat) : Prop :=
  ∃ r, s.route f = some r ∧ r.contents.leaving = 0 ∧ r.contents.anchorRank.toNat = n ∧ n ≠ 0

/-- A frame advertises as anchor (R64). -/
def AdvertisesAnchor (s : State) (f : FrameNo) (n : Nat) : Prop :=
  AnchorReady s f n ∧ ∃ r, s.route f = some r ∧ r.contents.followedAnchor.toNat = f.val

end Sys2Proof.Statements

/-- The standing is the first row of R62 that applies; becoming MEMBER clears the held and refused latches and sets
the rejoin flag, becoming REFUSED clears the held latch. An act of the roster unit (R63) evaluates it, lets HELLO
follow it (R72: a standing that sends HELLO and did not before has one offered on every UP port, in ascending order,
its period running from then; one that does not send ends the period), and, where an entry, the standing or the
followed anchor changed, mirrors the summary and posts one ROSTER notice; each change then goes to the stream engine
and the timebase unit, in an order that is the model's free choice (log entry 6), the entries in ascending order (log
entry 54). The anchor (R64 to R69): a followed anchor is fit while its rank is above 0 and it is not leaving; one that
is not fit brings an election of the best MEMBER, the part itself naming itself; a part that looks for an anchor
adopts the best of the frames that advertise as one and are named, and a better one of them is switched to. Where the
followed anchor becomes 0 the silence count starts; a part that ceases to be anchor discards identities, deadlines and
its ROLL timer. An advert is up to three acts, in the model's order (log entry 45): the test of the followed anchor,
the LEAVING mark at the anchor (R80), adoption or merge. That the cells of an act are offered before those its events
cause is the model's choice (log entry 70), and so is that its ROSTER notice is posted before theirs (log entry 81).
-/
def Obligations.StandingAndRosterActs : Prop :=
  (∀ s : State,
    let r := s.roster
    (s.own = 0 → standingOf s = .unnumbered) ∧
    (s.own ≠ 0 → r.leavingLatch = true → standingOf s = .leaving) ∧
    (s.own ≠ 0 → r.leavingLatch = false → r.anchor = s.own → standingOf s = .member) ∧
    (s.own ≠ 0 → r.leavingLatch = false → r.anchor ≠ s.own → r.anchor ≠ 0 → OwnEntry s .member →
      standingOf s = .member) ∧
    (s.own ≠ 0 → r.leavingLatch = false → r.anchor ≠ s.own → ¬ (r.anchor ≠ 0 ∧ OwnEntry s .member) →
      (r.refusedLatch = true → standingOf s = .refused) ∧
      (r.refusedLatch = false → r.anchor = 0 → standingOf s = .alone) ∧
      (r.refusedLatch = false → r.anchor ≠ 0 →
        ((r.heldLatch = true ∨ OwnEntry s .quarantined) → standingOf s = .held) ∧
        (r.heldLatch = false → ¬ OwnEntry s .quarantined → standingOf s = .seeking)))) ∧
  (∀ s : State, evaluateStanding s =
    if standingOf s = s.roster.standing then s
    else if standingOf s = .member then
      { s with roster := { s.roster with standing := .member, heldLatch := false, refusedLatch := false, rejoin := true } }
    else if standingOf s = .refused then { s with roster := { s.roster with standing := .refused, heldLatch := false } }
    else { s with roster := { s.roster with standing := standingOf s } }) ∧
  (∀ (before : Standing) (s : State),
    let sends (st : Standing) := st = .seeking ∨ st = .held
    let v := s.upPorts.foldl (fun v p => offer v p ⟨ownCell s .hello 0 (helloPayload s.serial s.store.identity.frameClass
      s.store.identity.capabilities s.own s.roster.anchor s.roster.rejoin 0 0), none⟩) s
    helloOnStanding before s =
      if ¬ sends s.roster.standing then { s with roster := { s.roster with lastHello := none } }
      else if sends before then s
      else { v with roster := { v.roster with lastHello := some s.now } }) ∧
  (∀ (f : State → State) (s : State) (ps : List Post),
    let v := helloOnStanding s.roster.standing (evaluateStanding (f s))
    let changed := allFrames.filter (fun g =>
      decide ((s.entry g).state ≠ (v.entry g).state ∨ (s.entry g).serial ≠ (v.entry g).serial))
    let moved := v.roster.standing ≠ s.roster.standing
    let told : Act := if changed ≠ [] ∨ moved ∨ v.roster.anchor ≠ s.roster.anchor then
        ⟨v, ps ++ [.mirror .roster, .notice (.roster v.roster.generation v.roster.anchor v.roster.standing
          (bitmap 32 changed (fun _ => true)))]⟩
      else ⟨v, ps⟩
    let heard := changed.foldl (fun a g => a.race2 (streamEntryChanged g) (timeEntryChanged g)) told
    rosterPlain f ⟨s, ps⟩ = if moved then heard.race2 streamStandingChanged timeRetest else heard) ∧
  (∀ s : State,
    let rank := actingRank s s.store.working.anchorRank
    let follows := s.roster.anchor
    let fit := (follows = s.own ∧ rank ≠ 0) ∨ (follows ≠ s.own ∧ ∃ n, AnchorReady s follows n)
    let elects (f : FrameNo) (n : Nat) := f ≠ 0 ∧ (f = s.own ∧ OwnEntry s .member ∧ n = rank ∧ n ≠ 0 ∨
      f ≠ s.own ∧ (s.entry f).state = .member ∧ AnchorReady s f n)
    let named (f : FrameNo) (n : Nat) := f ≠ 0 ∧ f ≠ s.own ∧ AdvertisesAnchor s f n ∧
      ∃ g r, g ≠ 0 ∧ s.route g = some r ∧ r.contents.followedAnchor.toNat = f.val
    let looks := follows = 0 ∧ s.own ≠ 0 ∧ s.roster.refusedLatch = false ∧ s.roster.leavingLatch = false
    let followedRank := if follows = s.own then rank else (s.route follows).elim 0 (fun r => r.contents.anchorRank.toNat)
    (follows = 0 ∨ fit → retestAnchor s = s) ∧
    (follows ≠ 0 → ¬ fit → retestAnchor s = electAnchor s) ∧
    ((∀ f n, ¬ elects f n) → electAnchor s = setAnchor s 0) ∧
    (∀ f n, Best elects f n → f = s.own → electAnchor s = nameSelf s) ∧
    (∀ f n, Best elects f n → f ≠ s.own → electAnchor s = setAnchor s f) ∧
    ((∀ f n, ¬ named f n) → adoptOrMerge s = s) ∧
    (∀ f n, Best named f n →
      (looks → adoptOrMerge s = setAnchor s f) ∧
      (¬ looks → follows ≠ 0 → (followedRank < n ∨ n = followedRank ∧ f.val < follows.val) →
        adoptOrMerge s = setAnchor s f) ∧
      (¬ looks → (follows = 0 ∨ n < followedRank ∨ n = followedRank ∧ follows.val ≤ f.val) → adoptOrMerge s = s))) ∧
  (∀ (s : State) (m : FrameNo),
    let ceases := s.own ≠ 0 ∧ s.roster.anchor = s.own ∧ m ≠ s.own
    let r : Roster := { s.roster with anchor := m, silenceSince := if m = 0 ∧ s.own ≠ 0 then some s.now else none }
    (¬ ceases → setAnchor s m = { s with roster := r }) ∧
    (ceases → ∃ es, setAnchor s m = { s with roster := { r with lastRoll := none, entries := es } } ∧
      ∀ f, es.get f = if f = 0 then s.entry f else { s.entry f with identity := none, deadline := none })) ∧
  (∀ (f : FrameNo) (a : Act), rosterAdvert f a = rosterPlain adoptOrMerge
    (rosterPlain (fun s => if (s.own ≠ 0 ∧ s.roster.anchor = s.own) ∧ (s.route f).any (fun r => r.contents.leaving != 0)
        then markLeaving s f else s)
      (rosterPlain (fun s => if s.roster.anchor = f then retestAnchor s else s) a)))

/-- JOIN (R81): in REFUSED or LEAVING the refused and leaving latches are cleared, the part names itself anchor where
this leaves it looking for one with its rank above 0 and its silence count past 60 ms (R66), in an act of its own (log
entry 45), a LEAVE order in progress ends CANCELLED and the order completes DONE; in MEMBER DONE without effect; else
WRONG_STATE. LEAVE (R80): in UNNUMBERED or LEAVING WRONG_STATE; else the latch is set, the departure announced, by a
ROLL with the own entry LEAVING and an election at the anchor, by a LEAVE to the followed anchor elsewhere, and the
own streams are closed; the order is held. It completes DONE at the end of an act once every stream is CLOSED and the
own entry shows LEAVING or 1 s has passed, which LEAVE_LIMIT brings about. When the LEAVE order is judged is the
model's choice (log entries 1 and 35), as is that a LEAVE ended by JOIN is completed before the JOIN (log entry 69). A LEAVE
whose destination is UNKNOWN is not sent (inferred, log entry 30). -/
def Obligations.JoinAndLeave : Prop :=
  (∀ (s : State) (o : Order), Oldest .join o s →
    match s.roster.standing with
    | .refused | .leaving =>
      let a := rosterPlain selfAnchor (rosterPlain
        (fun s => { s with roster := { s.roster with refusedLatch := false, leavingLatch := false } }) ⟨s, []⟩)
      Ends .join s (match a.s.roster.leave with
        | none => complete a o.sequence .done
        | some l => complete (complete ⟨{ a.s with roster := { a.s.roster with leave := none } }, a.posts⟩ l.order .cancelled)
            o.sequence .done)
    | .member => Answers .join s o .done
    | .unnumbered | .alone | .seeking | .held => Answers .join s o .wrongState) ∧
  (∀ (s : State) (o : Order), Oldest .leave o s →
    if s.roster.standing = .unnumbered ∨ s.roster.standing = .leaving then Answers .leave s o .wrongState
    else Ends .leave s (streamsLeave (rosterPlain (beginLeave o.sequence) ⟨held s o, []⟩))) ∧
  (∀ s : State,
    let due := s.roster.anchor = 0 ∧ s.own ≠ 0 ∧ s.roster.refusedLatch = false ∧ s.roster.leavingLatch = false ∧
      s.store.working.anchorRank ≠ 0 ∧ ∃ t, s.roster.silenceSince = some t ∧ t + 60000000 ≤ s.now
    (due → selfAnchor s = nameSelf s) ∧ (¬ due → selfAnchor s = s)) ∧
  (∀ (s : State) (q : BitVec 32), (beginLeave q s).roster.leavingLatch = true ∧
    (beginLeave q s).roster.leave = some ⟨q, s.now⟩ ∧
    (let u : State := { s with roster := { s.roster with leavingLatch := true, leave := some ⟨q, s.now⟩ } }
     (s.own ≠ 0 → s.roster.anchor = s.own → beginLeave q s =
       electAnchor (issueRoster (u.modEntry s.own (fun e => { e with state := .leaving, deadline := none })))) ∧
     (s.roster.anchor ≠ s.own → s.roster.anchor ≠ 0 → beginLeave q s = retestAnchor (sendRouted u s.roster.anchor
       (ownCell s .leaveCell s.roster.anchor.val (beBytes 6 s.serial.toNat ++ zeros 2)))) ∧
     (s.roster.anchor = 0 → beginLeave q s = u))) ∧
  (∀ (s : State) (l : LeaveOrder), s.inReset = false → s.roster.leave = some l →
    Acts .leaveLimit s (advanceTo s (l.since + leaveLimit)) []) ∧
  (∀ (a : Act) (l : LeaveOrder), a.s.roster.leave = some l →
    let isOver := (∀ n, (a.s.slot n).state = .closed) ∧ (OwnEntry a.s .leaving ∨ l.since + leaveLimit ≤ a.s.now)
    (isOver → finish a = (let b := complete ⟨{ a.s with roster := { a.s.roster with leave := none } }, a.posts⟩ l.order .done
      b.posts.foldl deliver b.s)) ∧
    (¬ isOver → finish a = a.posts.foldl deliver a.s))

/-- ADMIT and REFUSE (R78): the frame number is tested, then whether the part is anchor; ADMIT makes a QUARANTINED or
REFUSED entry with the expected serial MEMBER, REFUSE makes a QUARANTINED, MEMBER or STRAY one REFUSED, not the own
entry; each is one roster change, a candidate is sent its VERDICT, and any other entry or serial gives NOT_HELD. That
a REFUSE of the own number with another serial gives WRONG_STATE is the model's choice (log entry 47). A roster change
raises the generation and floods a ROLL of the whole roster under the next ROLL sequence (R70); a VERDICT about an
entry goes to its entry frame, or link-local on its entry port where that is this part, and is not sent where no
identity is held (R75), nor where its destination is UNKNOWN (inferred, log entry 30). That the ROLL is offered before
the VERDICT is the model's choice (log entry 55). So is that orders which the change ends complete before ADMIT or
REFUSE (log entry 69), and that all 8 bytes of the expected serial are compared (log entry 7). -/
def Obligations.AdmitAndRefuse : Prop :=
  (∀ (s : State) (o : Order), Oldest .admitFrame o s → (decideFrame o = 0 ∨ 31 < decideFrame o) →
    Answers .admitFrame s o .badOrder 0) ∧
  (∀ (s : State) (o : Order), Oldest .refuse o s → (decideFrame o = 0 ∨ 31 < decideFrame o) →
    Answers .refuse s o .badOrder 0) ∧
  (∀ (s : State) (o : Order) (f : FrameNo), Oldest .admitFrame o s → f ≠ 0 → decideFrame o = f.val →
    let e := s.entry f
    (isAnchor s = false → Answers .admitFrame s o .notAnchor) ∧
    (isAnchor s = true →
      if e.serial.toNat = decideSerial o ∧ (e.state = .quarantined ∨ e.state = .refused) then
        Ends .admitFrame s (complete (rosterPlain (fun s =>
          verdictFor (issueRoster (s.modEntry f (fun e => { e with state := .member, deadline := none }))) f .admitted .none)
          ⟨s, []⟩) o.sequence .done)
      else Answers .admitFrame s o .notHeld)) ∧
  (∀ (s : State) (o : Order) (f : FrameNo), Oldest .refuse o s → f ≠ 0 → decideFrame o = f.val →
    let e := s.entry f
    let out (s : State) := issueRoster (s.modEntry f (fun e => { e with state := .refused, deadline := none }))
    (isAnchor s = false → Answers .refuse s o .notAnchor) ∧
    (isAnchor s = true → f = s.own → Answers .refuse s o .wrongState) ∧
    (isAnchor s = true → f ≠ s.own →
      if e.serial.toNat = decideSerial o ∧ e.state = .quarantined then
        Ends .refuse s (complete (rosterPlain (fun s => verdictFor (out s) f .refused .host) ⟨s, []⟩) o.sequence .done)
      else if e.serial.toNat = decideSerial o ∧ (e.state = .member ∨ e.state = .stray) then
        Ends .refuse s (complete (rosterPlain out ⟨s, []⟩) o.sequence .done)
      else Answers .refuse s o .notHeld)) ∧
  (∀ s : State,
    let g := s.roster.generation + 1
    let q := s.roster.rollSequence + 1
    let roll : List Byte := beBytes 4 g.toNat ++ beBytes 1 s.roster.issuer.val ++ zeros 3 ++ allFrames.flatMap (fun f =>
      beBytes 1 (entryStateCode (s.entry f).state) ++ zeros 1 ++ beBytes 6 (s.entry f).serial.toNat)
    issueRoster s = s.upPorts.foldl (fun v p => offer v p ⟨ownCell s .roll 63 roll q, none⟩)
      { s with roster := { s.roster with generation := g, rollSequence := q } }) ∧
  (∀ (s : State) (f : FrameNo) (x : Answer) (reason : RefusalReason), match (s.entry f).identity with
    | none => verdictFor s f x reason = s
    | some i => verdictFor s f x reason =
        sendVerdict s (s.entry f).serial f x reason i.entryFrame i.entryPort) ∧
  (∀ (s : State) (serial : Serial) (f e : FrameNo) (x : Answer) (reason : RefusalReason) (p : PortIx),
    let verdict : List Byte := beBytes 6 serial.toNat ++ beBytes 1 f.val ++ beBytes 1 (answerCode x) ++
      beBytes 1 (reasonCode reason) ++ beBytes 1 s.roster.anchor.val ++ beBytes 1 p.val ++ zeros 1
    (e = s.own → sendVerdict s serial f x reason e p = offer s p ⟨ownCell s .verdict 0 verdict, none⟩) ∧
    (e ≠ s.own → sendVerdict s serial f x reason e p = sendRouted s e (ownCell s .verdict e.val verdict)))

/-- ROLL (R71): one from a frame that is not the followed anchor, at the anchor itself, or of an unfit form is counted
ROLL IGNORED; a newer generation or another issuing anchor replaces the copy, and the own entry becoming REFUSED sets
the refused latch; any other changes nothing. LEAVE at the anchor marks the frame (R80), elsewhere it is counted. The
flood has been recorded and copied before (R10, R11; that the copies come first is the model's choice, log entry 46). The
form of a ROLL is the model's reading (log entry 23), as is that a LEAVE of another length or with serial 0 is discarded
(log entries 24 and 42); that the anchor does not count a LEAVE of another serial is its choice (log entry 64). -/
def Obligations.RollAndLeaveCells : Prop :=
  (∀ b : List Byte, rollFits b = true ↔
    (b.length = 256 ∧ beAt b 4 1 ≤ 31 ∧ ∀ f : FrameNo, f ≠ 0 → beAt b (8 * f.val) 1 ≤ 5)) ∧
  (∀ (b : List Byte) (f : FrameNo) (st : EntryState), beAt b (8 * f.val) 1 = entryStateCode st →
    rollEntry b f = if st = .vacant then ⟨.vacant, 0, none, none⟩
      else ⟨st, BitVec.ofNat 48 (beAt b (8 * f.val + 2) 6), none, none⟩) ∧
  (∀ (rx : Rx) (s : State), Arrives .roll rx .up s → rx.dest.toNat = 63 → rx.origin ≠ s.own →
    isNew (floodRecord (s.flood.get rx.origin) .roll) rx.incarnation rx.floodSeq = true →
    let u := floodCopies (recordFlood (heard s rx) .roll rx) .roll rx
    let b := rx.payload
    let newer' := newer (BitVec.ofNat 32 (beAt b 0 4)) s.roster.generation = true ∨ beAt b 4 1 ≠ s.roster.issuer.val
    let count (s : State) : State := { s with roster := { s.roster with
      counters := { s.roster.counters with rollIgnored := s.roster.counters.rollIgnored + 1 } } }
    (s.roster.anchor ≠ rx.origin ∨ s.own = s.roster.anchor ∧ s.own ≠ 0 ∨ rollFits b = false →
      Ends (.roll rx) s (rosterPlain count ⟨u, []⟩)) ∧
    (s.roster.anchor = rx.origin → rollFits b = true → newer' →
      Ends (.roll rx) s (rosterPlain (replaceCopy b) ⟨u, []⟩)) ∧
    (s.roster.anchor = rx.origin → rollFits b = true → ¬ newer' → Ends (.roll rx) s (rosterPlain id ⟨u, []⟩))) ∧
  (∀ (s : State) (b : List Byte), rollFits b = true →
    let t := replaceCopy b s
    t.roster.generation = BitVec.ofNat 32 (beAt b 0 4) ∧ t.roster.issuer.val = beAt b 4 1 ∧
    (∀ f, f ≠ 0 → t.entry f = rollEntry b f) ∧ t.entry 0 = s.entry 0 ∧
    { t with roster := { t.roster with
      generation := s.roster.generation, issuer := s.roster.issuer, entries := s.roster.entries
      refusedLatch := s.roster.refusedLatch } } = s ∧
    t.roster.refusedLatch = (s.roster.refusedLatch || (ownEntryIs t .refused && !ownEntryIs s .refused))) ∧
  (∀ (rx : Rx) (s : State), Arrives .leaveCell rx .up s → rx.dest.toNat = s.own.val →
    rx.payload.length ≠ 8 ∨ beAt rx.payload 0 6 = 0 → Acts (.leaveCell rx) s (heard s rx) []) ∧
  (∀ (rx : Rx) (s : State), Arrives .leaveCell rx .up s → rx.dest.toNat = s.own.val → rx.payload.length = 8 →
    beAt rx.payload 0 6 ≠ 0 →
    (isAnchor s = false → Ends (.leaveCell rx) s (rosterPlain (fun s => { s with roster := { s.roster with
      counters := { s.roster.counters with leaveDropped := s.roster.counters.leaveDropped + 1 } } }) ⟨heard s rx, []⟩)) ∧
    (isAnchor s = true → (s.entry rx.origin).serial.toNat = beAt rx.payload 0 6 →
      Ends (.leaveCell rx) s (rosterPlain (fun s => markLeaving s rx.origin) ⟨heard s rx, []⟩)) ∧
    (isAnchor s = true → (s.entry rx.origin).serial.toNat ≠ beAt rx.payload 0 6 →
      Ends (.leaveCell rx) s (rosterPlain id ⟨heard s rx, []⟩))) ∧
  (∀ (s : State) (f : FrameNo), markLeaving s f = match (s.entry f).state with
    | .member | .stray => issueRoster (s.modEntry f (fun e => { e with state := .leaving, deadline := none }))
    | .quarantined => issueRoster (s.modEntry f (fun _ => .vacant))
    | .vacant | .leaving | .refused => s)

/-- HELLO at the entry frame (R73): one that fails a test is counted HELLO DROPPED; one that passes is decided where
the entry frame is the anchor, and else sent on to the anchor with entry frame and port filled in; a routed HELLO is
decided at the anchor and dropped elsewhere, as is one that names frame 0 (inferred, log entry 40); one that cannot be
routed is not counted (log entry 30). VERDICT (R75): at the entry frame it goes on to the candidate's port where that
is UP with the candidate's serial, its fields as they came and its reserved byte 0 (R192); at the candidate
QUARANTINED sets the held latch and REFUSED the refused latch. The forms of HELLO and VERDICT (12, Cells) and their
codes (R191) are spelled. A HELLO or VERDICT of unfit form, one with serial 0 among them, is discarded (inferred, log
entries 24 and 42). -/
def Obligations.HelloAndVerdict : Prop :=
  (∀ s : State, dropHello s = { s with roster := { s.roster with
    counters := { s.roster.counters with helloDropped := s.roster.counters.helloDropped + 1 } } }) ∧
  (∀ (b : List Byte) (h : HelloFields), parseHello b = some h ↔
    b.length = 20 ∧ beAt b 0 6 ≠ 0 ∧ beAt b 0 6 = h.serial.toNat ∧ beAt b 6 2 = h.frameClass.toNat ∧
    beAt b 8 4 = h.capabilities.toNat ∧ beAt b 0x0C 1 = h.frame.val ∧ beAt b 0x0D 1 = h.anchor.val ∧
    beAt b 0x0E 1 = flagCode h.rejoin ∧ beAt b 0x0F 1 = h.entryFrame.val ∧ beAt b 0x10 1 = h.entryPort.val) ∧
  (∀ (b : List Byte) (v : VerdictFields), parseVerdict b = some v ↔
    b.length = 12 ∧ beAt b 0 6 ≠ 0 ∧ beAt b 0 6 = v.serial.toNat ∧ beAt b 6 1 = v.frame.val ∧
    beAt b 7 1 = answerCode v.answer ∧ beAt b 8 1 = reasonCode v.reason ∧ beAt b 9 1 = v.anchor.val ∧
    beAt b 10 1 = v.port.val) ∧
  [Answer.admitted, .quarantined, .refused, .wait].map answerCode = [1, 2, 3, 4] ∧
  [RefusalReason.none, .duplicate, .prior, .timeout, .host].map reasonCode = [0, 1, 2, 3, 4] ∧
  (∀ (rx : Rx) (s : State) (h : HelloFields), Arrives .hello rx .up s → rx.dest = 0 → parseHello rx.payload = some h →
    let passes := s.roster.standing = .member ∧ rx.origin ≠ 0 ∧ rx.origin = h.frame ∧
      h.serial = (s.port rx.port).partnerSerial ∧ h.serial ≠ s.serial ∧ h.anchor = s.roster.anchor
    (¬ passes → Acts (.hello rx) s (dropHello (heard s rx)) []) ∧
    (passes → isAnchor s = true → Ends (.hello rx) s (decideCandidate
      ⟨h.frame, h.serial, ⟨h.frameClass, h.capabilities, h.rejoin, s.own, rx.port⟩⟩ ⟨heard s rx, []⟩)) ∧
    (passes → isAnchor s = false → s.route s.roster.anchor = none → Acts (.hello rx) s (heard s rx) []) ∧
    (passes → isAnchor s = false → ∀ r, s.route s.roster.anchor = some r →
      let u := offer (heard s rx) r.port ⟨ownCell s .hello s.roster.anchor.val
        (helloPayload h.serial h.frameClass h.capabilities h.frame h.anchor h.rejoin s.own rx.port.val), none⟩
      Acts (.hello rx) s { u with roster := { u.roster with
        counters := { u.roster.counters with helloForwarded := u.roster.counters.helloForwarded + 1 } } } [])) ∧
  (∀ (rx : Rx) (s : State) (h : HelloFields), Arrives .hello rx .up s → rx.dest ≠ 0 → rx.dest.toNat = s.own.val →
    parseHello rx.payload = some h →
    if isAnchor s = true ∧ h.serial ≠ s.serial ∧ h.frame ≠ 0 then Ends (.hello rx) s (decideCandidate
      ⟨h.frame, h.serial, ⟨h.frameClass, h.capabilities, h.rejoin, h.entryFrame, h.entryPort⟩⟩ ⟨heard s rx, []⟩)
    else Acts (.hello rx) s (dropHello (heard s rx)) []) ∧
  (∀ (rx : Rx) (s : State), rx.dest = 0 ∨ rx.dest.toNat = s.own.val →
    (Arrives .hello rx .up s → parseHello rx.payload = none → Acts (.hello rx) s (heard s rx) []) ∧
    (Arrives .verdict rx .up s → parseVerdict rx.payload = none → Acts (.verdict rx) s (heard s rx) []) ∧
    (beAt rx.payload 0 6 = 0 → parseHello rx.payload = none ∧ parseVerdict rx.payload = none)) ∧
  (∀ (rx : Rx) (s : State) (v : VerdictFields), Arrives .verdict rx .up s → rx.dest ≠ 0 → rx.dest.toNat = s.own.val →
    parseVerdict rx.payload = some v →
    let u := heard s rx
    let count (g : RosterCounters → RosterCounters) (s : State) : State :=
      { s with roster := { s.roster with counters := g s.roster.counters } }
    if (u.port v.port).state = .up ∧ (s.port v.port).partnerSerial = v.serial then
      Acts (.verdict rx) s (count (fun c => { c with verdictForwarded := c.verdictForwarded + 1 })
        (offer u v.port ⟨ownCell s .verdict 0 (beBytes 6 v.serial.toNat ++ beBytes 1 v.frame.val ++
          beBytes 1 (answerCode v.answer) ++ beBytes 1 (reasonCode v.reason) ++ beBytes 1 v.anchor.val ++
          beBytes 1 v.port.val ++ zeros 1), none⟩)) []
    else Acts (.verdict rx) s (count (fun c => { c with verdictDropped := c.verdictDropped + 1 }) u) []) ∧
  (∀ (rx : Rx) (s : State) (v : VerdictFields), Arrives .verdict rx .up s → rx.dest = 0 →
    parseVerdict rx.payload = some v →
    let mine := v.serial = s.serial ∧ v.frame = s.own ∧ v.anchor = s.roster.anchor
    let acts (g : Roster → Roster) := Ends (.verdict rx) s (rosterPlain (fun s => { s with roster := g s.roster })
      ⟨heard s rx, []⟩)
    (mine → match v.answer with
      | .admitted | .wait => acts id
      | .quarantined => acts (fun r => { r with heldLatch := true })
      | .refused => acts (fun r => { r with refusedLatch := true })) ∧
    (¬ mine → acts (fun r =>
      { r with counters := { r.counters with verdictDropped := r.counters.verdictDropped + 1 } })))

/-- The decision on a candidate, step by step (R74), and the Admission Filter (R76): one known at its number is
answered at once; else other entries with its serial become VACANT, and it is refused, admitted, quarantined or told
to wait. The anchor makes the change one act with its ROLL, sends the VERDICT to the entry frame and port (R75), and
posts an ADMISSION notice where a quarantine begins. That the ROLL comes before the VERDICT is the model's choice (log
entry 55), and so is that the ADMISSION notice is posted last (log entry 81). -/
def Obligations.CandidateDecision : Prop :=
  (∀ s : State, quarantinedCount s = (allFrames.filter (fun f => decide ((s.entry f).state = .quarantined))).length) ∧
  (∀ (s : State) (c : Candidate),
    let e := s.entry c.frame
    let d := decide74 s c
    (e.serial = c.serial → e.state = .member ∨ e.state = .stray ∨ e.state = .quarantined →
      d.answer = (if e.state = .quarantined then .quarantined else .admitted) ∧
      d.reason = .none ∧ d.changed = decide (e.state = .stray) ∧
      d.state.entry c.frame = { e with
        state := if e.state = .stray then .member else e.state, identity := some c.identity
        deadline := if e.state = .stray then none else e.deadline }) ∧
    (e.serial ≠ c.serial ∨ ¬ (e.state = .member ∨ e.state = .stray ∨ e.state = .quarantined) →
      let v := (vacateOthers s c).1
      let taken := e.serial ≠ c.serial ∧
        (e.state = .member ∨ e.state = .stray ∨ e.state = .quarantined ∨ e.state = .leaving)
      let prior := e.state = .refused ∧ e.serial = c.serial
      let other (f : FrameNo) := f ≠ 0 ∧ f ≠ c.frame ∧ (s.entry f).state ≠ .vacant ∧ (s.entry f).serial = c.serial
      let vacated := (vacateOthers s c).2
      (vacated = true ↔ ∃ f, other f) ∧
      (∀ f, (other f → v.entry f = ⟨.vacant, 0, none, none⟩) ∧ (¬ other f → v.entry f = s.entry f)) ∧
      { v with roster := { v.roster with entries := s.roster.entries } } = s ∧
      (taken → d.answer = .refused ∧ d.reason = .duplicate ∧ d.changed = vacated ∧ d.state = v) ∧
      (prior → d.answer = .refused ∧ d.reason = .prior ∧ d.changed = vacated ∧ d.state = v) ∧
      (¬ taken → ¬ prior → filterMatches s.store.working.filter c = true →
        d.answer = .admitted ∧ d.reason = .none ∧ d.changed = true ∧
        d.state = v.modEntry c.frame (fun _ => ⟨.member, c.serial, some c.identity, none⟩)) ∧
      (¬ taken → ¬ prior → filterMatches s.store.working.filter c = false →
        (quarantinedCount v < 4 → d.answer = .quarantined ∧ d.reason = .none ∧ d.changed = true ∧
          d.state = v.modEntry c.frame (fun _ => ⟨.quarantined, c.serial, some c.identity,
            some (s.now + s.store.working.window * 1000000000)⟩)) ∧
        (4 ≤ quarantinedCount v → d.answer = .wait ∧ d.reason = .none ∧ d.changed = vacated ∧ d.state = v)))) ∧
  (∀ (s : State) (ps : List Post) (c : Candidate),
    let a := rosterPlain (fun s =>
      let d := decide74 s c
      sendVerdict (if d.changed then issueRoster d.state else d.state) c.serial c.frame d.answer d.reason
        c.identity.entryFrame c.identity.entryPort) ⟨s, ps⟩
    let begins := (decide74 s c).answer = .quarantined ∧
      ¬ ((s.entry c.frame).state = .quarantined ∧ (s.entry c.frame).serial = c.serial)
    (begins → decideCandidate c ⟨s, ps⟩ = a.post (.notice (.admission (bit 32 c.frame.val) 0))) ∧
    (¬ begins → decideCandidate c ⟨s, ps⟩ = a)) ∧
  (∀ (f : Filter) (c : Candidate), filterMatches f c = true ↔
    (f.armed = true ∧
      (∃ k : Fin 4, let p := f.patterns.get k
        p.enabled = true ∧
        (∀ i : Nat, p.classMask.getLsbD i = false → i < 16 →
          c.identity.frameClass.getLsbD i = p.classValue.getLsbD i) ∧
        (∀ i : Nat, p.serialMask.getLsbD i = false → i < 48 → c.serial.getLsbD i = p.serialValue.getLsbD i)) ∧
      (f.required = 0 ∨ ∃ i : Nat, c.identity.capabilities.getLsbD i = true ∧ f.required.getLsbD i = true)))

/-- The timers of the roster unit: ANCHOR_SILENCE names the part anchor where it looks for one and its rank is above 0
(R66); HELLO_TIMER sends a HELLO every 500 ms in SEEKING or HELD (R72); ROLL_TIMER floods the roster every 200 ms with
its generation as it stands (R70); WINDOW_DEADLINE ends the quarantine windows that have run out (R77); STRAY_DEADLINE
makes a STRAY entry VACANT (R79). A part that names itself anchor inherits the entries by state and reach, sets its
own MEMBER and issues the roster (R68). At the anchor a lost MEMBER becomes STRAY with 2 s to return, another lost
entry VACANT, and a STRAY frame that is reached again MEMBER (R79); elsewhere the loss of the followed anchor has it
tested. The clock first comes to the limit where it stands before it (the model's choice, log entry 1); a ROLL is
offered before the VERDICTs of its change (log entry 55), and the ADMISSION notice posted behind the other notices of
its act (log entry 81), both the model's choice. -/
def Obligations.RosterTimers : Prop :=
  (∀ s : State,
    let ends (f : FrameNo) (d : Nat) := f ≠ 0 ∧ (s.entry f).state = .quarantined ∧ (s.entry f).deadline = some d
    (nextWindow s = none ↔ ∀ f d, ¬ ends f d) ∧
    ∀ t, nextWindow s = some t ↔ (∃ f, ends f t) ∧ ∀ f d, ends f d → t ≤ d) ∧
  (∀ (s : State) (t : Nat), s.inReset = false → s.roster.silenceSince = some t →
    let u := advanceTo s (t + anchorSilenceLimit)
    let due := s.roster.anchor = 0 ∧ s.own ≠ 0 ∧ s.roster.refusedLatch = false ∧ s.roster.leavingLatch = false ∧
      s.store.working.anchorRank ≠ 0
    (due → Ends .anchorSilence s (rosterPlain nameSelf ⟨u, []⟩)) ∧
    (¬ due → Ends .anchorSilence s (rosterPlain id ⟨u, []⟩))) ∧
  (∀ s : State, s.own ≠ 0 →
    let t := nameSelf s
    t.roster.anchor = s.own ∧ t.roster.issuer = s.own ∧ t.roster.generation = s.roster.generation + 1 ∧
    t.entry s.own = ⟨.member, s.serial, none, none⟩ ∧ t.roster.lastRoll = some s.now ∧
    t.roster.silenceSince = none ∧
    ∃ es, t = issueRoster { s with roster := { s.roster with
        anchor := s.own, issuer := s.own, entries := es, silenceSince := none, lastRoll := some s.now } } ∧
      es.get 0 = s.entry 0 ∧ es.get s.own = ⟨.member, s.serial, none, none⟩ ∧
      ∀ f, f ≠ 0 → f ≠ s.own →
        let e := s.entry f
        let stray : RosterEntry := ⟨.stray, e.serial, none, some (s.now + 2000000000)⟩
        (e.serial = s.serial ∨ e.state = .vacant ∨ e.state = .quarantined → es.get f = ⟨.vacant, 0, none, none⟩) ∧
        (e.serial ≠ s.serial → (e.state = .stray ∨ e.state = .member ∧ s.route f = none) → es.get f = stray) ∧
        (e.serial ≠ s.serial → (e.state = .member ∨ e.state = .leaving ∨ e.state = .refused) → s.route f ≠ none →
          es.get f = ⟨e.state, e.serial, none, none⟩) ∧
        (e.serial ≠ s.serial → (e.state = .leaving ∨ e.state = .refused) → s.route f = none →
          es.get f = ⟨.vacant, 0, none, none⟩)) ∧
  (∀ (f : FrameNo) (a : Act),
    rosterReachLost f a = rosterPlain (fun s =>
      if s.own ≠ 0 ∧ s.roster.anchor = s.own then strayOnLoss s f
      else if s.roster.anchor = f then retestAnchor s else s) a ∧
    rosterReachGained f a = rosterPlain (fun s =>
      if (s.own ≠ 0 ∧ s.roster.anchor = s.own) ∧ (s.entry f).state = .stray then
        issueRoster (s.modEntry f (fun e => { e with state := .member, deadline := none }))
      else s) a) ∧
  (∀ (s : State) (f : FrameNo), strayOnLoss s f = match (s.entry f).state with
    | .member => issueRoster (s.modEntry f (fun e => { e with
        state := .stray, deadline := some (s.now + 2000000000) }))
    | .leaving | .refused | .quarantined => issueRoster (s.modEntry f (fun _ => ⟨.vacant, 0, none, none⟩))
    | .stray | .vacant => s) ∧
  (∀ (s : State) (last : Nat), s.inReset = false → s.roster.lastHello = some last →
    (s.roster.standing = .seeking ∨ s.roster.standing = .held) →
    let u := advanceTo s (last + helloPeriod)
    let v := s.upPorts.foldl (fun v p => offer v p ⟨ownCell s .hello 0
      (helloPayload s.serial s.store.identity.frameClass s.store.identity.capabilities s.own s.roster.anchor
        s.roster.rejoin 0 0), none⟩) u
    Acts .helloTimer s { v with roster := { v.roster with lastHello := some (last + helloPeriod) } } []) ∧
  (∀ (s : State) (last : Nat), s.inReset = false → s.roster.lastRoll = some last → s.own ≠ 0 → s.roster.anchor = s.own →
    let u := advanceTo s (last + rollPeriod)
    let v : State := { u with roster := { u.roster with
      lastRoll := some (last + rollPeriod), rollSequence := s.roster.rollSequence + 1 } }
    Acts .rollTimer s (s.upPorts.foldl (fun v p => offer v p
      ⟨ownCell s .roll 63 (rollPayload s.roster) (s.roster.rollSequence + 1), none⟩) v) []) ∧
  (∀ (s : State) (t : Nat), s.inReset = false → isAnchor s = true → nextWindow s = some t →
    let u := advanceTo s t
    let out := allFrames.filter (fun f =>
      decide ((s.entry f).state = .quarantined) && (s.entry f).deadline.any (fun d => decide (d ≤ u.now)))
    out ≠ [] ∧ Ends .windowDeadline s ((rosterPlain (fun v =>
      let v := issueRoster (out.foldl (fun v f => v.modEntry f (fun e => { e with state := .refused, deadline := none })) v)
      out.foldl (fun v f => verdictFor v f .refused .timeout) v) ⟨u, []⟩).post
        (.notice (.admission 0 (bitmap 32 out (fun _ => true)))))) ∧
  (∀ (s : State) (f : FrameNo) (d : Nat), s.inReset = false → isAnchor s = true → (s.entry f).state = .stray →
    (s.entry f).deadline = some d →
    Ends (.strayDeadline f) s (rosterPlain (fun v => issueRoster (v.modEntry f (fun _ => .vacant)))
      ⟨advanceTo s d, []⟩))

/-! ## Settings -/

/-- SET_SETTINGS (R187, R188) by the first case that applies, the lowest selected group whose value is out of the range of
R185 being the bad one, and what its values become; the units then take what changed. SET_FILTER (R76): the filter is replaced whole, or left as it is with the outcome the table names. Both set
the modified flag exactly where a working setting changed, and the settings origin field follows (R190). What the units
take from a change: a new frame number empties reach, flood memory and roster copy and gives up the mastery of the old
number, with a reach-lost event for each frame that was REACHABLE (R57, R82, R101); a new rank has anchor or master tested
(R82, R101); an enable setting holds or releases its port, a wake interval gives a DARK port its burst where that is due,
a threshold caps the health count (R22, R33, R38); a holdover limit ends a holdover that is past it (R101); a lane's
settings set its input stage by its line and take the entries of an output that is turned off, a hold limit mutes a stage
past it, with one notice where a lane was muted or unmuted (R113). The order in which the units take their changes is the
model's choice (log entry 43), as is the ascending order of the ports (log entry 75); that the reach-lost events come
last is inferred (log entry 20), the order of each one's receivers a free choice (log entry 6). The cell on the line of a
TRAINING port that its setting holds is lost uncounted (the model's choice, log entry 15); the noise count of a released
port starts at its entry into DARK (log entry 63); the residue of the slew is set to 0 with the correction (log entry
10); of the 8 bytes of a serial in a filter image the upper 2 are dropped (log entry 7). -/
def Obligations.SettingsOrders : Prop :=
  (∀ b : List Byte, imageFrame b = leAt b 0x00 1 ∧ imageAnchorRank b = leAt b 0x01 1 ∧ imageTimeRank b = leAt b 0x02 1 ∧
    (∀ p, imageEnable b p = (leAt b 0x03 1).testBit p.val) ∧ imageWake b = leAt b 0x04 1 ∧
    imageThreshold b = leAt b 0x05 1 ∧ imageHoldLimit b = leAt b 0x06 2 ∧ imageWindow b = leAt b 0x08 2 ∧
    imageHoldover b = leAt b 0x0A 2 ∧ (∀ k : LaneIx, let o := 0x10 + 8 * k.val
      imageLane b k = ⟨(leAt b o 1).testBit 0, (leAt b o 1).testBit 1, (leAt b o 1).testBit 2, leAt b (o + 2) 2,
        leAt b (o + 4) 2⟩) ∧
    imageArmed b = leAt b 0 1 ∧ (∀ k : Fin 4, imagePatternEnable b k = leAt b (8 + 24 * k.val) 1) ∧
    (imageFilter b).armed = decide (leAt b 0 1 ≠ 0) ∧ (imageFilter b).required = BitVec.ofNat 32 (leAt b 4 4) ∧
    ∀ k : Fin 4, let o := 8 + 24 * k.val
      (imageFilter b).patterns.get k = ⟨decide (leAt b o 1 ≠ 0), BitVec.ofNat 16 (leAt b (o + 2) 2),
        BitVec.ofNat 16 (leAt b (o + 4) 2), BitVec.ofNat 48 (leAt b (o + 8) 8), BitVec.ofNat 48 (leAt b (o + 16) 8)⟩) ∧
  [WakeInterval.half, .one, .two].map wakeCode = [0, 1, 2] ∧
  (∀ (s : State) (o : Order), Oldest .setSettings o s →
    let mask := settingsMask o
    let ad := settingsPointer o
    let b := bytesIn s.mem ad 144
    (2 ^ 28 ≤ mask → Answers .setSettings s o .badOrder 0) ∧
    (mask = 0 → Answers .setSettings s o .done) ∧
    (mask ≠ 0 → mask < 2 ^ 28 →
      (ad = 0 → Answers .setSettings s o .badOrder 1) ∧
      (∀ x, ad ≠ 0 → firstFault s.mem.readFaults ad 144 = some x →
        Ends .setSettings s ((complete ⟨s, []⟩ o.sequence .memoryFault).post (faultPost .parameterRead x))) ∧
      (ad ≠ 0 → Readable s.mem ad 144 →
        (∀ g, firstBadGroup mask b = some g → Answers .setSettings s o .badOrder 2 (leBytes 1 g)) ∧
        (firstBadGroup mask b = none →
          (mask.testBit 0 = true ∧ imageFrame b ≠ s.own.val ∧
              (s.roster.standing = .member ∨ s.roster.standing = .leaving) → Answers .setSettings s o .inUse) ∧
          (¬ (mask.testBit 0 = true ∧ imageFrame b ≠ s.own.val ∧
              (s.roster.standing = .member ∨ s.roster.standing = .leaving)) →
            Ends .setSettings s (complete (takeChanges s.store.working (storeAct (fun a => a.on (fun s =>
              { s with store := setWorking (applyImage mask b s.store.working) s.store })) ⟨s, []⟩)) o.sequence
              .done)))))) ∧
  (∀ (mask : Nat) (b : List Byte),
    let bad (g : Nat) : Prop := mask.testBit g = true ∧
      (g = 0 ∧ 31 < leAt b 0x00 1 ∨ g = 1 ∧ 15 < leAt b 0x01 1 ∨ g = 2 ∧ 15 < leAt b 0x02 1 ∨ g = 7 ∧ 2 < leAt b 0x04 1 ∨
        g = 8 ∧ (leAt b 0x05 1 < 1 ∨ 127 < leAt b 0x05 1) ∨ g = 9 ∧ (leAt b 0x08 2 < 1 ∨ 60 < leAt b 0x08 2) ∨
        g = 10 ∧ (leAt b 0x0A 2 < 1 ∨ 600 < leAt b 0x0A 2) ∨ g = 11 ∧ (leAt b 0x06 2 < 1 ∨ 1000 < leAt b 0x06 2) ∨
        ∃ k : LaneIx, g = 12 + k.val ∧ (leAt b (0x12 + 8 * k.val) 2 < 1 ∨ leAt b (0x14 + 8 * k.val) 2 < 1 ∨
          1000 < leAt b (0x14 + 8 * k.val) 2))
    (firstBadGroup mask b = none ↔ ∀ g, ¬ bad g) ∧
    ∀ g, firstBadGroup mask b = some g ↔ bad g ∧ ∀ h, h < g → ¬ bad h) ∧
  (∀ (mask : Nat) (b : List Byte) (w : Settings), firstBadGroup mask b = none →
    let t := applyImage mask b w
    t.filter = w.filter ∧
    t.frame.val = (if mask.testBit 0 then imageFrame b else w.frame.val) ∧
    t.anchorRank.val = (if mask.testBit 1 then imageAnchorRank b else w.anchorRank.val) ∧
    t.timeRank.val = (if mask.testBit 2 then imageTimeRank b else w.timeRank.val) ∧
    (∀ p : PortIx, t.enable.get p = if mask.testBit (3 + p.val) then imageEnable b p else w.enable.get p) ∧
    wakeCode t.wake = (if mask.testBit 7 then imageWake b else wakeCode w.wake) ∧
    t.threshold = (if mask.testBit 8 then imageThreshold b else w.threshold) ∧
    t.window = (if mask.testBit 9 then imageWindow b else w.window) ∧
    t.holdover = (if mask.testBit 10 then imageHoldover b else w.holdover) ∧
    t.holdLimit = (if mask.testBit 11 then imageHoldLimit b else w.holdLimit) ∧
    (∀ k : LaneIx, t.lanes.get k = if mask.testBit (12 + k.val) then imageLane b k else w.lanes.get k)) ∧
  (∀ (s : State) (o : Order), Oldest .setFilter o s →
    let ad := filterPointer o
    let b := bytesIn s.mem ad 104
    let w : Settings := { s.store.working with filter := imageFilter b }
    (ad = 0 → Answers .setFilter s o .badOrder 0) ∧
    (∀ x, ad ≠ 0 → firstFault s.mem.readFaults ad 104 = some x →
      Ends .setFilter s ((complete ⟨s, []⟩ o.sequence .memoryFault).post (faultPost .parameterRead x))) ∧
    (ad ≠ 0 → Readable s.mem ad 104 →
      if imageArmed b ≤ 1 ∧ ∀ k : Fin 4, imagePatternEnable b k ≤ 1 then
        Ends .setFilter s (complete (storeAct (fun a => a.on (fun s => { s with store := setWorking w s.store })) ⟨s, []⟩)
          o.sequence .done)
      else Answers .setFilter s o .badOrder 0)) ∧
  (∀ (old : Settings) (s : State) (ps : List Post),
    let w := s.store.working
    let a : Act := ⟨s, ps⟩
    let a := if w.frame ≠ old.frame then frameChanged old.frame a else a
    let a := if w.anchorRank ≠ old.anchorRank then rosterPlain (fun v => selfAnchor (retestAnchor v)) a else a
    let a := if w.timeRank ≠ old.timeRank then tbPlain retestMaster a else a
    let a := (allPorts.filter (fun p => w.enable.get p != old.enable.get p)).foldl
      (fun a p => enableChanged p (w.enable.get p) a) a
    let a := if w.wake ≠ old.wake then ⟨eachPort (fun r =>
        if r.state = .dark ∧ r.lastBurst + wakeTime w.wake ≤ a.s.now then
          { r with bursts := r.bursts + 1, lastBurst := a.s.now } else r) a.s, a.posts⟩ else a
    let a := if w.threshold ≠ old.threshold then ⟨eachPort (fun r =>
        if r.state = .up then { r with health := min r.health w.threshold } else r) a.s, a.posts⟩ else a
    let a := if w.holdover ≠ old.holdover then holdoverChanged a else a
    takeChanges old ⟨s, ps⟩ =
      if w.lanes ≠ old.lanes ∨ w.holdLimit ≠ old.holdLimit then trigSettingsChanged old a else a) ∧
  (∀ (old : FrameNo) (s : State) (ps : List Post),
    let lost := allFrames.filter (fun f => (s.route f).isSome)
    let u := allFrames.foldl (fun v f => { v with flood := upd v.flood f (fun _ => ⟨none, none, none⟩) })
      (lost.foldl markUnknown s)
    let cleared (v : State) : State := { v with roster := { v.roster with
      anchor := 0, entries := Vector.replicate 32 ⟨.vacant, 0, none, none⟩, generation := 0, issuer := 0
      refusedLatch := false, heldLatch := false, silenceSince := if v.own ≠ 0 then some v.now else none
      lastHello := none, lastRoll := none } }
    let ceded (v : State) : State := if v.tb.state = .master ∧ v.tb.master = old then
        { v with tb := { v.tb with state := .holdover, master := 0, holdoverSince := some v.now } } else v
    frameChanged old ⟨s, ps⟩ = lost.foldl (fun a f => a.race3 (rosterReachLost f) (timeReachLost f) (streamReachLost f))
      (tbPlain (fun v => retestMaster (ceded v)) (rosterPlain cleared ⟨u, ps⟩))) ∧
  (∀ (s : State) (f : Port → Port), { eachPort f s with ports := s.ports } = s ∧ ∀ p, (eachPort f s).port p = f (s.port p)) ∧
  (∀ (p : PortIx) (s : State) (ps : List Post),
    let idle (r : Port) : Port := { r with
      state := .held, cause := .hold, noiseSince := none, quietSince := none, trainingSince := none, lastProbe := none }
    enableChanged p true ⟨s, ps⟩ = (if (s.port p).state = .held then
        ⟨s.modPort p (darkRecord s.now .release), ps ++ portReport p .dark .release⟩ else ⟨s, ps⟩) ∧
    enableChanged p false ⟨s, ps⟩ = match (s.port p).state with
      | .held | .faulted => ⟨s, ps⟩
      | .dark | .lockout => ⟨s.modPort p idle, ps ++ portReport p .held .hold⟩
      | .training => ⟨(s.modPort p idle).modLink p (fun l => { l with line := none }), ps ++ portReport p .held .hold⟩
      | .up => portLossEvent p ⟨s.modPort p (fun r => idle (leftUp r)), ps ++ portReport p .held .hold⟩) ∧
  (∀ a : Act, holdoverChanged a = tbPlain (fun v =>
    if v.tb.state = .holdover ∧ v.tb.holdoverSince.any (fun t => t + v.store.working.holdover * 1000000000 ≤ v.now) then
      { v with tb := { v.tb with state := .free, holdoverSince := none, correction := 0, slewResidue := 0 } }
    else v) a) ∧
  (∀ (old : Settings) (s : State) (ps : List Post),
    let limit := s.store.working.holdLimit
    let u := allLanes.foldl (fun v k => laneChanged (old.lanes.get k) k v) s
    let v := if old.holdLimit ≠ limit then allLanes.foldl (fun v k =>
        if (v.trig.lanes.get k).stage = .asserted ∧
            (v.trig.lanes.get k).holdSince.any (fun t => t + v.store.working.holdLimit * 1000000 ≤ v.now) then
          v.modLane k (fun x => { x with stage := .muted, holdSince := none, unmuteSince := none })
        else v) u else u
    trigSettingsChanged old ⟨s, ps⟩ = ⟨v, if mutedLanes v = mutedLanes s then ps
      else ps ++ [.notice (.triggers 0 (mutedLanes v) 0 0 0 0 0)]⟩) ∧
  (∀ (old : LaneSettings) (k : LaneIx) (s : State),
    let l := s.store.working.lanes.get k
    let x := s.trig.lanes.get k
    let idle : Lane := { x with stage := .idle, holdSince := none, unmuteSince := none }
    let y : Lane := if l.inputEnable = false then (if old.inputEnable = true then idle else x)
      else if old.inputEnable = true ∧ old.fallingEdge = l.fallingEdge then x
      else if x.inputHigh = !l.fallingEdge then { idle with stage := .asserted, holdSince := some s.now } else idle
    let u := s.modLane k (fun _ => y)
    let n := BitVec.ofNat 32 (s.trig.schedule.filter (fun t => t.lane == k)).length
    (¬ (old.outputEnable = true ∧ l.outputEnable = false) → laneChanged old k s = u) ∧
    (old.outputEnable = true → l.outputEnable = false → laneChanged old k s = { u with trig := { u.trig with
      schedule := s.trig.schedule.filter (fun t => t.lane != k)
      counters := { s.trig.counters with outputOff := s.trig.counters.outputOff + n } } })) ∧
  (∀ (w : Settings) (x : SettingsStore), setWorking w x =
    if w = x.working then x
    else { x with working := w, modified := true, storing := x.storing.map (fun t => { t with changed := true }) }) ∧
  (∀ (f : State → State) (s : State), storeAct (fun a => a.on f) ⟨s, []⟩ =
    ⟨f s, if (f s).store.origin = s.store.origin ∧ (f s).store.modified = s.store.modified ∧
        (f s).store.storedValid = s.store.storedValid ∧ (f s).store.storing.isSome = s.store.storing.isSome
      then [] else [.mirror .origin]⟩)

/-- STORE_SETTINGS (R189): BUSY while a store is in progress; else the working settings are taken as the snapshot,
stored valid is cleared and the order is held. STORE_END: verified, the stored copy is the snapshot, valid, the origin
STORED, the modified flag cleared unless a setting changed since, the order DONE; else invalid and STORE_FAILED. How
long the store takes is left to STORE_END (the model's choice, log entry 28). -/
def Obligations.StoreSettings : Prop :=
  (∀ (s : State) (o : Order), Oldest .storeSettings o s →
    (s.store.storing.isSome = true → Answers .storeSettings s o .busy) ∧
    (s.store.storing = none →
      Acts .storeSettings s
        { held s o with store := { s.store with
          storedValid := false, storing := some ⟨some o.sequence, s.store.working, false⟩ } } [.mirror .origin])) ∧
  (∀ (s : State) (t : Storing) (verified : Bool), s.inReset = false → s.store.storing = some t →
    let x : SettingsStore := if verified then
        { s.store with
          stored := t.snapshot, storedIntact := true, storedValid := true, origin := .stored
          modified := t.changed && s.store.modified, storing := none }
      else { s.store with storedIntact := false, storedValid := false, storing := none }
    let a : Act := ⟨{ s with store := x }, [.mirror .origin]⟩
    Ends (.storeEnd verified) s (match t.order with
      | none => a
      | some q => complete a q (if verified then .done else .storeFailed)))

/-! ## Triggers -/

/-- SCHEDULE_TRIGGER (R114): the lane, the timebase and the lead are tested; then a trigger of the own origin, the
next sequence and the present quality is made, flooded where the part is numbered and else counted LOCAL_ONLY,
inserted here (R109), and the order completes DONE with sequence and insertion result. CANCEL_TRIGGER (R115): the
entry of the own origin and the sequence given is removed and counted, DONE; with none NOT_HELD. The result of an
insertion is the first case of R109 that applies, and an entry goes to its place by fire time, then by lane, which
leaves the Schedule in that order; the codes of the results. Of two entries of the own origin and one sequence the
first in Schedule order is removed (the model's choice, log entry 56). -/
def Obligations.TriggerOrdersAndInsertion : Prop :=
  ((∀ (s : State) (o : Order), Oldest .scheduleTrigger o s →
     (15 < scheduleLane o → Answers .scheduleTrigger s o .badOrder 0) ∧
     ∀ k : LaneIx, scheduleLane o = k.val →
       let fire : Time := BitVec.ofNat 64 (scheduleTime o)
       let lead := (s.store.working.lanes.get k).lead * 1000
       let free := s.tb.state = .free ∨ s.tb.state = .acquiring
       let t : Trigger :=
         { lane := k, fireTime := fire, origin := s.own, sequence := s.trig.sequence + 1, quality := BitVec.ofNat 8 (quality s) }
       (free → Answers .scheduleTrigger s o .noTime) ∧
       (¬ free → scheduleTime o < s.tb.rackTime.toNat + lead → Answers .scheduleTrigger s o .tooSoon 1) ∧
       (¬ free → s.tb.rackTime.toNat + lead ≤ scheduleTime o →
         let a := makeTrigger ⟨s, []⟩ k fire (s.own != 0)
         Ends .scheduleTrigger s (complete a o.sequence .done 0
           (leBytes 2 (s.trig.sequence + 1).toNat ++ leBytes 1 (insertionCode (judgeInsertion s t)))) ∧
         a.s.trig.sequence = s.trig.sequence + 1 ∧
         (judgeInsertion s t = .scheduled → a.s.trig.schedule = insertAt t s.trig.schedule) ∧
         (judgeInsertion s t ≠ .scheduled → a.s.trig.schedule = s.trig.schedule))) ∧
   (∀ (s : State) (o : Order), Oldest .cancelTrigger o s →
     let own (t : Trigger) := t.origin == s.own && t.sequence.toNat == cancelSequence o
     if s.trig.schedule.any own then
       Ends .cancelTrigger s (complete ⟨{ s with trig := { s.trig with
         schedule := s.trig.schedule.eraseP own
         counters := { s.trig.counters with cancelled := s.trig.counters.cancelled + 1 } } }, []⟩ o.sequence .done)
     else Answers .cancelTrigger s o .notHeld)) ∧
  ((∀ (s : State) (t : Trigger),
     let off := (s.store.working.lanes.get t.lane).outputEnable = false
     let twin := ∃ x ∈ s.trig.schedule, x.lane = t.lane ∧ x.fireTime = t.fireTime
     let past := t.fireTime.toNat ≤ s.tb.rackTime.toNat
     (off → judgeInsertion s t = .outputOff) ∧
     (¬ off → twin → judgeInsertion s t = .merged) ∧
     (¬ off → ¬ twin → past → judgeInsertion s t = .late) ∧
     (¬ off → ¬ twin → ¬ past →
       (32 ≤ s.trig.schedule.length → judgeInsertion s t = .dropped) ∧
       (s.trig.schedule.length < 32 → judgeInsertion s t = .scheduled))) ∧
   (∀ (t : Trigger) (xs : List Trigger), (∀ x, x ∈ insertAt t xs ↔ x = t ∨ x ∈ xs) ∧
     let before (x y : Trigger) : Prop := x.fireTime.toNat < y.fireTime.toNat ∨ x.fireTime = y.fireTime ∧ x.lane < y.lane
     (xs.Pairwise before → (∀ x ∈ xs, ¬ (x.lane = t.lane ∧ x.fireTime = t.fireTime)) → (insertAt t xs).Pairwise before)) ∧
   [Insertion.scheduled, .merged, .dropped, .outputOff].map insertionCode = [1, 2, 3, 4])

/-- TRIG (R108): tested for its origin, its form and the lane's output, each failure counted; else inserted with the
lane, time, sequence and quality it carries; its copies are offered before (the model's choice, log entry 46), and any
value of the quality is kept as it came (inferred, log entry 24). FIRING (R110): every entry whose time is reached is
removed and fires in Schedule order, with one notice of the lanes and the quality; a source ARMED on the lane has its
gate opened with the entry's fire time, and settles (R126), the slots in ascending order (the model's choice, log
entry 66), their notices posted before that of the firing (log entry 81). PULSE_END: the lane output becomes quiet.
The clock first comes to the limit where it stands before it (the model's choice, log entry 1). -/
def Obligations.TrigAndFiring : Prop :=
  (∀ (rx : Rx) (s : State), Arrives .trig rx .up s → rx.dest.toNat = 63 → rx.origin ≠ s.own →
    isNew (floodRecord (s.flood.get rx.origin) .trig) rx.incarnation rx.floodSeq = true →
    let u := floodCopies (recordFlood (heard s rx) .trig rx) .trig rx
    let b := rx.payload
    let count (g : TriggerCounters → TriggerCounters) : State :=
      { u with trig := { u.trig with counters := g u.trig.counters } }
    let fits (k : LaneIx) := b.length = 12 ∧ beAt b 0 1 = k.val ∧ beAt b 2 2 = rx.floodSeq.toNat
    ((s.entry rx.origin).state ≠ .member →
      Acts (.trig rx) s (count (fun c => { c with trigIgnored := c.trigIgnored + 1 })) []) ∧
    ((s.entry rx.origin).state = .member → (∀ k, ¬ fits k) →
      Acts (.trig rx) s (count (fun c => { c with trigMalformed := c.trigMalformed + 1 })) []) ∧
    (∀ k, (s.entry rx.origin).state = .member → fits k → (s.store.working.lanes.get k).outputEnable = false →
      Acts (.trig rx) s (count (fun c => { c with outputOff := c.outputOff + 1 })) []) ∧
    (∀ k, (s.entry rx.origin).state = .member → fits k → (s.store.working.lanes.get k).outputEnable = true →
      let t : Trigger :=
        { lane := k, fireTime := BitVec.ofNat 64 (beAt b 4 8), origin := rx.origin, sequence := rx.floodSeq
          quality := BitVec.ofNat 8 (beAt b 1 1) }
      let notice (late dropped merged : Count) : Post :=
        .notice (.triggers 0 (mutedLanes s) 0 late dropped 0 merged)
      match judgeInsertion s t with
      | .scheduled => Acts (.trig rx) s { u with trig := { u.trig with schedule := insertAt t u.trig.schedule } } []
      | .merged => Acts (.trig rx) s (count (fun c => { c with merged := c.merged + 1 })) [notice 0 0 1]
      | .late => Acts (.trig rx) s (count (fun c => { c with late := c.late + 1 })) [notice 1 0 0]
      | .dropped => Acts (.trig rx) s (count (fun c => { c with dropped := c.dropped + 1 })) [notice 0 1 0]
      | .outputOff => False)) ∧
  (∀ (s : State) (t : Trigger) (rest : List Trigger), s.inReset = false → s.trig.schedule = t :: rest →
    let u := advanceToRack s t.fireTime
    let due := s.trig.schedule.filter (fun x => decide (x.fireTime.toNat ≤ u.tb.rackTime.toNat))
    let v : State := { u with trig := { u.trig with
      schedule := s.trig.schedule.filter (fun x => !decide (x.fireTime.toNat ≤ u.tb.rackTime.toNat)) } }
    let a := due.foldl fireOne ⟨v, []⟩
    (t.fireTime.toNat ≤ u.tb.rackTime.toNat →
      Ends .firing s (a.post (.notice (.triggers (due.foldl (fun b x => b ||| bit 16 x.lane.val) 0)
        (mutedLanes a.s) (BitVec.ofNat 8 (quality a.s)) 0 0 0 0)))) ∧
    (s.tb.correction = 0 → t.fireTime.toNat ≤ u.tb.rackTime.toNat)) ∧
  (∀ (s : State) (ps : List Post) (t : Trigger),
    let e := s.now + (s.store.working.lanes.get t.lane).width * 1000
    let v := s.modLane t.lane (fun x => { x with pulseEnd := some (match x.pulseEnd with | some y => max y e | none => e) })
    fireOne ⟨s, ps⟩ t = streamFiring t.lane t.fireTime
      ⟨{ v with trig := { v.trig with counters := { v.trig.counters with fired := v.trig.counters.fired + 1 } } }, ps⟩) ∧
  (∀ (k : LaneIx) (t : Time) (a : Act), streamFiring k t a = allSlots.foldl (fun a n =>
    let x := a.s.slot n
    if x.state = .armed ∧ x.gate = .onLane k ∧ x.gateOpen = false then
      settle ⟨setSlot a.s n { x with gateOpen := true, startTime := t, nextPace := 0 }, a.posts⟩ n .gate
    else a) a) ∧
  (∀ (s : State) (k : LaneIx) (e : Nat), s.inReset = false → (s.trig.lanes.get k).pulseEnd = some e →
    Acts (.pulseEnd k) s ((advanceTo s e).modLane k (fun x => { x with pulseEnd := none })) [])

/-- The lane inputs (R104 to R106). ENABLED_EDGE: an idle stage is asserted and makes a trigger one lead later,
flooded where the part is numbered with rack time; a muted stage counts the edge and stops its unmute timer; a stage
whose input is off judges nothing. INPUT_DEASSERTED: an asserted stage becomes idle, a muted one starts its unmute
timer. A trigger that is made goes where R109 puts it, its MERGED, LATE, DROPPED and LOCAL_ONLY counts in one notice
(R112). HOLD_LIMIT mutes an asserted stage, UNMUTE_TIMER makes a muted one idle, each with a notice of the lanes muted
after it. The clock first comes to the limit where it stands before it (the model's choice, log entry
1). An edge to the level the line already has changes nothing (the model's choice, log entries 5 and 9). -/
def Obligations.LaneInputs : Prop :=
  (∀ (s : State) (k : LaneIx), s.inReset = false →
    let l := s.store.working.lanes.get k
    let x := s.trig.lanes.get k
    let high (v : State) := v.modLane k (fun x => { x with inputHigh := !l.fallingEdge })
    (x.inputHigh = !l.fallingEdge → Acts (.enabledEdge k) s s []) ∧
    (x.inputHigh = l.fallingEdge →
      (l.inputEnable = false ∨ x.stage = .asserted → Acts (.enabledEdge k) s (high s) []) ∧
      (l.inputEnable = true → x.stage = .muted →
        let u := (high s).modLane k (fun x => { x with unmuteSince := none })
        Acts (.enabledEdge k) s
          { u with trig := { u.trig with counters := { u.trig.counters with mutedEdge := u.trig.counters.mutedEdge + 1 } } }
          []) ∧
      (l.inputEnable = true → x.stage = .idle →
        let u := (high s).modLane k (fun x => { x with stage := .asserted, holdSince := some s.now })
        Ends (.enabledEdge k) s (makeTrigger ⟨u, []⟩ k (s.tb.rackTime + BitVec.ofNat 64 (l.lead * 1000))
          (s.own != 0 && !(s.tb.state == .free || s.tb.state == .acquiring)))))) ∧
  (∀ (s : State) (ps : List Post) (k : LaneIx) (fire : Time),
    let t : Trigger :=
      { lane := k, fireTime := fire, origin := s.own, sequence := s.trig.sequence + 1, quality := BitVec.ofNat 8 (quality s) }
    let u : State := { s with trig := { s.trig with sequence := s.trig.sequence + 1 } }
    let sent := s.upPorts.foldl (fun v p => offer v p ⟨ownCell s .trig 63
      (trigPayload k t.quality.toNat t.sequence fire) t.sequence, none⟩) u
    let alone : State := { u with trig := { u.trig with
      counters := { u.trig.counters with localOnly := u.trig.counters.localOnly + 1 } } }
    let put (v : State) : State := { v with trig := { v.trig with schedule := insertAt t s.trig.schedule } }
    let count (g : TriggerCounters → TriggerCounters) (v : State) : State :=
      { v with trig := { v.trig with counters := g v.trig.counters } }
    let told (late dropped only merged : Count) : List Post :=
      ps ++ [.notice (.triggers 0 (mutedLanes s) 0 late dropped only merged)]
    (makeTrigger ⟨s, ps⟩ k fire true = match judgeInsertion s t with
      | .scheduled => ⟨put sent, ps⟩
      | .merged => ⟨count (fun c => { c with merged := c.merged + 1 }) sent, told 0 0 0 1⟩
      | .late => ⟨count (fun c => { c with late := c.late + 1 }) sent, told 1 0 0 0⟩
      | .dropped => ⟨count (fun c => { c with dropped := c.dropped + 1 }) sent, told 0 1 0 0⟩
      | .outputOff => ⟨count (fun c => { c with outputOff := c.outputOff + 1 }) sent, ps⟩) ∧
    makeTrigger ⟨s, ps⟩ k fire false = match judgeInsertion s t with
      | .scheduled => ⟨put alone, told 0 0 1 0⟩
      | .merged => ⟨count (fun c => { c with merged := c.merged + 1 }) alone, told 0 0 1 1⟩
      | .late => ⟨count (fun c => { c with late := c.late + 1 }) alone, told 1 0 1 0⟩
      | .dropped => ⟨count (fun c => { c with dropped := c.dropped + 1 }) alone, told 0 1 1 0⟩
      | .outputOff => ⟨count (fun c => { c with outputOff := c.outputOff + 1 }) alone, told 0 0 1 0⟩) ∧
  (∀ (s : State) (k : LaneIx), s.inReset = false →
    let l := s.store.working.lanes.get k
    let x := s.trig.lanes.get k
    let low (f : Lane → Lane) := s.modLane k (fun x => f { x with inputHigh := l.fallingEdge })
    (x.inputHigh = l.fallingEdge → Acts (.inputDeasserted k) s s []) ∧
    (x.inputHigh = !l.fallingEdge →
      (l.inputEnable = false ∨ x.stage = .idle → Acts (.inputDeasserted k) s (low id) []) ∧
      (l.inputEnable = true → x.stage = .asserted →
        Acts (.inputDeasserted k) s (low (fun x => { x with stage := .idle, holdSince := none })) []) ∧
      (l.inputEnable = true → x.stage = .muted →
        Acts (.inputDeasserted k) s (low (fun x => { x with unmuteSince := some s.now })) []))) ∧
  (∀ (s : State) (k : LaneIx) (t : Nat), s.inReset = false → (s.trig.lanes.get k).stage = .asserted →
    (s.trig.lanes.get k).holdSince = some t →
    let u := (advanceTo s (t + s.store.working.holdLimit * 1000000)).modLane k
      (fun x => { x with stage := .muted, holdSince := none, unmuteSince := none })
    Acts (.holdLimit k) s u [.notice (.triggers 0 (mutedLanes u) 0 0 0 0 0)]) ∧
  (∀ (s : State) (k : LaneIx) (t : Nat), s.inReset = false → (s.trig.lanes.get k).stage = .muted →
    (s.trig.lanes.get k).unmuteSince = some t →
    let u := (advanceTo s (t + unmuteTime)).modLane k
      (fun x => { x with stage := .idle, holdSince := none, unmuteSince := none })
    Acts (.unmuteTimer k) s u [.notice (.triggers 0 (mutedLanes u) 0 0 0 0 0)])

/-! ## Rack time -/

/-- TIME (R94): the tests in their order, each failure counted; an accepted TIME sets distance and last offset (R95),
a good one restarts the watch, and is then used by the state (R96, R97, R99): a small offset is slewed off, an
excursion is counted, the eighth TIME within 40 ns locks. A stamp's quality follows the timebase state (R86). The
residue of the slew set to 0 with a correction is the model's choice (log entry 10). The offset is the difference of two
rack times read as signed (its reading, log entry 27), the stamp corrected by the steps that the command carries (log
entry 12). -/
def Obligations.TimeCell : Prop :=
  ∀ (rx : Rx) (s : State), Arrives .time rx .up s → rx.dest = 0 →
    let b := rx.payload
    let q := beAt b 2 1
    let form := b.length = 12 ∧ (q = 1 ∨ q = 2)
    let path := s.tb.state ≠ .master ∧ s.tb.master ≠ 0 ∧ s.tb.master ≠ s.own ∧
      (∃ r, s.route s.tb.master = some r ∧ r.port = rx.port) ∧ beAt b 0 1 = s.tb.master.val
    let hop := beAt b 1 1 < 7
    let measured := (s.port rx.port).samples ≠ []
    let usable := q = 1 ∨ s.tb.state = .holdover
    let delay := (s.port rx.port).samples.sum / (s.port rx.port).samples.length
    let offset : Int := (BitVec.ofNat 64 (beAt b 4 8) + BitVec.ofNat 64 delay
      - (rx.stamp + BitVec.ofInt 64 rx.steps)).toInt
    let u := heard s rx
    let count (g : TimeCounters → TimeCounters) : State := { u with tb := { u.tb with counters := g u.tb.counters } }
    let t : Timebase := { s.tb with
      distance := some (beAt b 1 1 + 1), lastOffset := some offset
      watchSince := if q = 1 then some s.now else s.tb.watchSince
      counters := { s.tb.counters with accepted := s.tb.counters.accepted + 1 } }
    let slewed : Timebase := { t with correction := offset, slewResidue := 0 }
    let excursion : TimeCounters := { t.counters with excursion := t.counters.excursion + 1 }
    let takes (t : Timebase) : Prop := Acts (.time rx) s { u with tb := t } []
    (¬ (form ∧ path) → Acts (.time rx) s (count (fun c => { c with ignored := c.ignored + 1 })) []) ∧
    (form → path → ¬ hop → Acts (.time rx) s (count (fun c => { c with far := c.far + 1 })) []) ∧
    (form → path → hop → ¬ measured → Acts (.time rx) s (count (fun c => { c with nodelay := c.nodelay + 1 })) []) ∧
    (form → path → hop → measured → ¬ usable → Acts (.time rx) s (count (fun c => { c with held := c.held + 1 })) []) ∧
    (form → path → hop → measured → usable →
      Ends (.time rx) s (tbAct (fun a => useTime rx offset { a with s := { a.s with tb := t } }) ⟨u, []⟩) ∧
      (s.tb.state = .locked → offset.natAbs ≤ 1000 → takes { slewed with excursions := 0 }) ∧
      (s.tb.state = .locked → 1000 < offset.natAbs → s.tb.excursions + 1 ≠ 3 →
        takes { t with counters := excursion, excursions := s.tb.excursions + 1 }) ∧
      (s.tb.state = .acquiring → s.tb.stepPending = false → offset.natAbs ≤ 40 → s.tb.lockCount + 1 ≠ 8 →
        takes { slewed with lockCount := s.tb.lockCount + 1 }) ∧
      (s.tb.state = .acquiring → s.tb.stepPending = false → 40 < offset.natAbs → offset.natAbs ≤ 1000 →
        takes { slewed with lockCount := 0 }) ∧
      (s.tb.state = .holdover → q = 2 → offset.natAbs ≤ 1000 → takes slewed) ∧
      (s.tb.state = .holdover → q = 2 → 1000 < offset.natAbs → takes { t with counters := excursion }))

/-- What an accepted TIME does where it changes the state (R96, R97, R99), or steps: the eighth locks, the third
excursion acquires anew, a good TIME relocks a part in holdover or has it acquire with a step, and a FREE part
acquires with a step. A step of size 0 is no STEP event; any other moves rack time by its size, and ports, triggers
and streams take it: an outstanding probe's sum of steps and the stamps queued ECHOs answer move with it (R26, R28),
the probe's departure time does not, a forward step removes the Schedule entries it has passed as LATE, with a notice
(R111), a paced source past its gate goes on from the first pace point at or after the new rack time, and an ARMED
source judges its gate (R128). That the three take it in this order is the model's choice (log entry 48), and so are
the ascending order of the slots (log entry 66) and the residue of the slew set to 0 with a correction (log entry 10).
So is that a source whose gate the STEP opens starts at index 0 and is not moved on by that STEP (log entry 77). -/
def Obligations.TimeStates : Prop :=
  (∀ (rx : Rx) (offset : Int) (s : State) (ps : List Post),
    let t := s.tb
    let good := beAt rx.payload 2 1 = 1
    let start : Timebase := { t with state := .acquiring, stepPending := true, lockCount := 0, holdoverSince := none }
    let becomes (t : Timebase) : Prop := useTime rx offset ⟨s, ps⟩ = (⟨{ s with tb := t }, ps⟩, none)
    (t.state = .acquiring → t.stepPending = false → offset.natAbs ≤ 40 → t.lockCount + 1 = 8 →
      becomes { t with correction := offset, slewResidue := 0, state := .locked, lockCount := 0, excursions := 0 }) ∧
    (t.state = .locked → 1000 < offset.natAbs → t.excursions + 1 = 3 →
      becomes { t with
        counters := { t.counters with excursion := t.counters.excursion + 1 }, state := .acquiring, excursions := 0
        lockCount := 0, stepPending := true, correction := 0, slewResidue := 0, watchSince := some s.now }) ∧
    (t.state = .holdover → good → offset.natAbs ≤ 1000 →
      becomes { t with
        correction := offset, slewResidue := 0, state := .locked, excursions := 0, lockCount := 0
        holdoverSince := none }) ∧
    ((t.state = .free ∨ t.state = .holdover ∧ good ∧ 1000 < offset.natAbs) →
      useTime rx offset ⟨s, ps⟩ = doStep offset ⟨{ s with tb := start }, ps⟩) ∧
    (t.state = .acquiring → t.stepPending = true ∨ 1000 < offset.natAbs →
      useTime rx offset ⟨s, ps⟩ = doStep offset ⟨s, ps⟩)) ∧
  (∀ (offset : Int) (s : State) (ps : List Post),
    let t : Timebase := { s.tb with
      rackTime := s.tb.rackTime + BitVec.ofInt 64 offset, correction := 0, slewResidue := 0, stepPending := false
      lockCount := 0 }
    (offset = 0 → doStep offset ⟨s, ps⟩ = (⟨{ s with tb := t }, ps⟩, none)) ∧
    (offset ≠ 0 → doStep offset ⟨s, ps⟩ = (streamStep (trigStep offset ⟨portsStep offset
      { s with tb := { t with counters := { t.counters with steps := t.counters.steps + 1 } } }, ps⟩), some offset))) ∧
  (∀ (s : State) (size : Int),
    let d := BitVec.ofInt 64 size
    { portsStep size s with ports := s.ports, links := s.links } = s ∧ ∀ p,
      (portsStep size s).port p = { s.port p with
        outstanding := (s.port p).outstanding.map (fun o => { o with steps := o.steps + d }) } ∧
      (portsStep size s).link p = { s.link p with
        tQueue := (s.link p).tQueue.map (fun q => { q with answers := q.answers.map (· + d) }) }) ∧
  (∀ (s : State) (ps : List Post) (size : Int),
    let past := s.trig.schedule.filter (fun t => decide (t.fireTime.toNat ≤ s.tb.rackTime.toNat))
    let n := BitVec.ofNat 32 past.length
    (size ≤ 0 ∨ past = [] → trigStep size ⟨s, ps⟩ = ⟨s, ps⟩) ∧
    (0 < size → past ≠ [] → trigStep size ⟨s, ps⟩ = ⟨{ s with trig := { s.trig with
      schedule := s.trig.schedule.filter (fun t => !decide (t.fireTime.toNat ≤ s.tb.rackTime.toNat))
      counters := { s.trig.counters with late := s.trig.counters.late + n } } },
      ps ++ [.notice (.triggers 0 (mutedLanes s) 0 n 0 0 0)]⟩)) ∧
  (∀ a : Act, streamStep a = allSlots.foldl stepSlot a) ∧
  (∀ a : Act, streamTimeChanged a = allSlots.foldl (fun a n => settle a n .timebase) a) ∧
  (∀ (s : State) (ps : List Post) (n : SlotIx),
    let x := s.slot n
    let rack := s.tb.rackTime.toNat
    let start := x.startTime.toNat
    let paced := x.role = .source ∧ x.state ≠ .closed ∧ x.gateOpen = true ∧ x.pace ≠ 0
    (paced → stepSlot ⟨s, ps⟩ n = ⟨setSlot s n { x with
      nextPace := if rack < start then 0 else (rack - start + x.pace - 1) / x.pace }, ps⟩) ∧
    (¬ paced → x.state = .armed → stepSlot ⟨s, ps⟩ n = settle ⟨s, ps⟩ n .gate) ∧
    (¬ paced → x.state ≠ .armed → stepSlot ⟨s, ps⟩ n = ⟨s, ps⟩)) ∧
  (∀ s : State, (s.tb.master = 0 ∨ s.tb.master = s.own ∨ s.route s.tb.master = none → upstreamPort s = none) ∧
    ∀ r, s.tb.master ≠ 0 → s.tb.master ≠ s.own → s.route s.tb.master = some r → upstreamPort s = some r.port) ∧
  (∀ s : State, quality s = match s.tb.state with
    | .master | .locked => 1
    | .holdover => 2
    | .acquiring | .free => 0)

namespace Sys2Proof.Statements

/-- A frame is REACHABLE with contents that show a time rank above 0 and the leaving flag clear. -/
def TimeReady (s : State) (f : FrameNo) (n : Nat) : Prop :=
  ∃ r, s.route f = some r ∧ r.contents.leaving = 0 ∧ r.contents.timeRank.toNat = n ∧ n ≠ 0

/-- A frame advertises as master. -/
def AdvertisesMaster (s : State) (f : FrameNo) (n : Nat) : Prop :=
  TimeReady s f n ∧ ∃ r, s.route f = some r ∧ r.contents.followedMaster.toNat = f.val

/-- Some REACHABLE entry, of 1 hop unless any will do, names a frame as followed master. -/
def NamedMaster (s : State) (any : Prop) (f : FrameNo) : Prop :=
  ∃ g r, g ≠ 0 ∧ s.route g = some r ∧ (any ∨ r.hops = 1) ∧ r.contents.followedMaster.toNat = f.val

end Sys2Proof.Statements

/-- EMISSION_TIMER sends TIME each 1 ms on every UP port but the upstream port where the part is MASTER or LOCKED, or
in HOLDOVER with a master (R93). TIME_WATCH: 5 ms without a good TIME are counted and lose the upstream (R98).
HOLDOVER_LIMIT makes the part FREE (R99). A change of state or master, or a step, mirrors the summary and posts one
TIME notice, and a change of state has every slot settle, in ascending order (R100, R125; the order is the model's
choice, log entry 66, as is that the TIME notice is posted behind those of the slots, log entry 81). A followed master
that is 0 or not fit has the part choose the best candidate, a MEMBER among its roster copy, another among those its
neighbours follow (R87 to R89); a better master that is named is switched to (R90); the part is MASTER exactly when
the value taken is its own number, and on leaving that is in holdover, on any other change loses its upstream (R91).
The upstream is lost with its port or its frame (R98). That the distance is kept when the part ceases to be MASTER or
loses its upstream, and is the one that a TIME sent in HOLDOVER carries, is inferred (log entry 32). The clock first
comes to the limit where it stands before it (the model's choice, log entry 1). So is the residue set to 0 (log entry
10). That an advert of the followed master has it tested before the merge is the model's choice (log entry 65). -/
def Obligations.TimeTimers : Prop :=
  (∀ s : State, s.inReset = false →
    let due := s.tb.lastEmission + emissionPeriod
    let a := advanceTo s due
    let u : State := { a with tb := { a.tb with lastEmission := due } }
    let emits := s.tb.state = .master ∨ s.tb.state = .locked ∨ s.tb.state = .holdover ∧ s.tb.master ≠ 0
    (¬ emits → Acts .emissionTimer s u []) ∧
    (emits → Acts .emissionTimer s
      ((s.upPorts.filter (fun p => upstreamPort s != some p)).foldl (fun v p => offer v p ⟨ownCell s .time 0
        (timePayload s.tb.master (if s.tb.state = .master then 0 else s.tb.distance.getD 0) (quality s) 0), none⟩) u)
      [])) ∧
  (∀ (s : State) (t : Nat), s.inReset = false → s.tb.watchSince = some t →
    Ends .timeWatch s (tbPlain (fun v => { v with tb := loseUpstream v.now { v.tb with
      counters := { v.tb.counters with gaps := v.tb.counters.gaps + 1 } } }) ⟨advanceTo s (t + timeWatchLimit), []⟩)) ∧
  (∀ (now : Nat) (t : Timebase),
    let c : TimeCounters := { t.counters with losses := t.counters.losses + 1 }
    loseUpstream now t = match t.state with
      | .locked => { t with state := .holdover, holdoverSince := some now, watchSince := none, counters := c }
      | .acquiring => { t with
          state := .free, correction := 0, slewResidue := 0, stepPending := false, lockCount := 0, watchSince := none
          counters := c }
      | .holdover | .free | .master => t) ∧
  (∀ (s : State) (t : Nat), s.inReset = false → s.tb.state = .holdover → s.tb.holdoverSince = some t →
    Ends .holdoverLimit s (tbPlain (fun v => { v with tb := { v.tb with
      state := .free, holdoverSince := none, correction := 0, slewResidue := 0 } })
      ⟨advanceTo s (t + s.store.working.holdover * 1000000000), []⟩)) ∧
  (∀ (f : State → State) (s : State) (ps : List Post),
    let v := f s
    let a := if v.tb.state = s.tb.state then (⟨v, ps⟩ : Act) else streamTimeChanged ⟨v, ps⟩
    tbPlain f ⟨s, ps⟩ =
      if v.tb.state = s.tb.state ∧ a.s.tb.master = s.tb.master then a
      else ⟨a.s, a.posts ++ [.mirror .timebase, .notice (.time a.s.tb.state a.s.tb.master 0 0)]⟩) ∧
  (∀ (f : Act → Act × Option Int) (a : Act),
    let b := (f a).1
    let c := if b.s.tb.state = a.s.tb.state then b else allSlots.foldl (fun c n => settle c n .timebase) b
    (∀ size, (f a).2 = some size → tbAct f a =
      ⟨c.s, c.posts ++ [.mirror .timebase, .notice (.time c.s.tb.state c.s.tb.master 1 size)]⟩) ∧
    ((f a).2 = none → b.s.tb.state ≠ a.s.tb.state ∨ c.s.tb.master ≠ a.s.tb.master → tbAct f a =
      ⟨c.s, c.posts ++ [.mirror .timebase, .notice (.time c.s.tb.state c.s.tb.master 0 0)]⟩) ∧
    ((f a).2 = none → b.s.tb.state = a.s.tb.state → b.s.tb.master = a.s.tb.master → tbAct f a = b)) ∧
  (∀ s : State,
    let rank := actingRank s s.store.working.timeRank
    let member := s.roster.standing = .member
    let m := s.tb.master
    let fit := (m = s.own ∧ s.tb.state = .master ∧ (member ∨ s.roster.standing = .alone) ∧ rank ≠ 0) ∨
      m ≠ s.own ∧ (member ∧ (s.entry m).state = .member ∧ (∃ n, TimeReady s m n) ∨ ¬ member ∧ ∃ n, AdvertisesMaster s m n)
    let chooses (f : FrameNo) (n : Nat) := f ≠ 0 ∧
      (f = s.own ∧ (member ∨ s.roster.standing = .alone) ∧ n = rank ∧ n ≠ 0 ∨ f ≠ s.own ∧
        (member ∧ (s.entry f).state = .member ∧ TimeReady s f n ∨
          ¬ member ∧ AdvertisesMaster s f n ∧ NamedMaster s False f))
    let collects (f : FrameNo) (n : Nat) := f ≠ 0 ∧ f ≠ s.own ∧ AdvertisesMaster s f n ∧ NamedMaster s member f ∧
      (member → (s.entry f).state = .member)
    let followed := if m = s.own then rank else (s.route m).elim 0 (fun r => r.contents.timeRank.toNat)
    (m ≠ 0 → fit → retestMaster s = s) ∧
    (m = 0 ∨ ¬ fit → (∀ f n, ¬ chooses f n) → retestMaster s = setMaster s 0) ∧
    (m = 0 ∨ ¬ fit → ∀ f n, Best chooses f n → retestMaster s = setMaster s f) ∧
    ((m = 0 ∨ ∀ f n, ¬ collects f n) → mergeMaster s = s) ∧
    (∀ f n, m ≠ 0 → Best collects f n →
      ((followed < n ∨ n = followed ∧ f.val < m.val) → mergeMaster s = setMaster s f) ∧
      ((n < followed ∨ n = followed ∧ m.val ≤ f.val) → mergeMaster s = s))) ∧
  (∀ (s : State) (m : FrameNo),
    let t := s.tb
    let self := m ≠ 0 ∧ m = s.own
    (self → t.state = .master → t.master = m → setMaster s m = s) ∧
    (self → ¬ (t.state = .master ∧ t.master = m) → setMaster s m = { s with tb := { t with
      state := .master, master := m, correction := 0, slewResidue := 0, stepPending := false, lockCount := 0
      excursions := 0, watchSince := none, holdoverSince := none, lastOffset := none, distance := some 0 } }) ∧
    (¬ self → m = t.master → setMaster s m = s) ∧
    (¬ self → m ≠ t.master → t.state = .master → setMaster s m = { s with tb := { t with
      state := .holdover, master := m, holdoverSince := some s.now } }) ∧
    (¬ self → m ≠ t.master → t.state ≠ .master → setMaster s m = { s with tb := loseUpstream s.now { t with
      master := m } })) ∧
  (∀ (f : FrameNo) (p : PortIx) (a : Act),
    let lose (v : State) : State := { v with tb := loseUpstream v.now v.tb }
    timePortLost p a = tbPlain (fun v => if upstreamPort v = some p then lose v else v) a ∧
    timeReachLost f a = tbPlain (fun v => if v.tb.master = f ∧ f ≠ 0 then retestMaster (lose v)
      else if v.tb.master = 0 then retestMaster v else v) a ∧
    timeReachGained f a = tbPlain (fun v => if v.tb.master = 0 then retestMaster v else v) a ∧
    timeEntryChanged f a = tbPlain (fun v => if v.tb.master = f ∨ v.tb.master = 0 then retestMaster v else v) a ∧
    timeRetest a = tbPlain retestMaster a ∧
    timeAdvert f a = tbPlain (fun v =>
      mergeMaster (if v.tb.master = f ∨ v.tb.master = 0 then retestMaster v else v)) a)

/-! ## Reach -/

/-- BEACON: a partner beacon, one of no hops, has the neighbour record take its origin as partner frame and the
silence watch start again (R12, R36), then own, new or not (R10); a new one is copied and tested in the order of R47
(STALE is an incarnation that is older than the entry's: not newer and not equal), and learned into its entry with the
events its prior entry calls for (R48); one that is not new is a route offer (R49). An advert goes to the roster and
timebase units, a reach-gained event to them and the stream engine, in an order that is a free choice (log entry 6); a
route change has the switch take the frame's relayed DATA from the old port's queue as REROUTE drops (R18) and cuts
off the blocks in progress toward the frame (R54). That the copies are offered before the reach unit takes the cell is
the model's choice (log entry 46). So is that the first of the two events of one learn goes to all its receivers
before the advert (log entry 68). Any value of the contents' other fields is kept as it came (inferred, log entry 24). -/
def Obligations.BeaconCell : Prop :=
  (∀ (rx : Rx) (s : State), Arrives .beacon rx .up s → rx.dest.toNat = 63 →
    let u := if rx.hops = 0 then (heard s rx).modPort rx.port (fun r =>
        { r with partnerFrame := rx.origin, silenceSince := some s.now }) else heard s rx
    let v := floodCopies (recordFlood u .beacon rx) .beacon rx
    let c := parseContents rx.payload
    let fresh := isNew (floodRecord (s.flood.get rx.origin) .beacon) rx.incarnation rx.floodSeq = true
    let known := s.own ≠ 0 ∧ s.reach.portSet.get rx.port = true
    let fits := rx.payload.length = 20 ∧ c.frame.toNat = rx.origin.val ∧ c.incarnation = rx.incarnation
    let stale := ∃ r, s.route rx.origin = some r ∧ rx.incarnation ≠ r.incarnation ∧ newer rx.incarnation r.incarnation = false
    let count (g : ReachCounters → ReachCounters) (v : State) : State :=
      { v with reach := { v.reach with counters := g v.reach.counters } }
    (rx.origin = s.own → Acts (.beacon rx) s (u.modCounters rx.port (fun c => { c with own := c.own + 1 })) []) ∧
    (rx.origin ≠ s.own → ¬ fresh → Ends (.beacon rx) s (takeOffer rx ⟨u, []⟩)) ∧
    (rx.origin ≠ s.own → fresh →
      (¬ known → Acts (.beacon rx) s v []) ∧
      (known → ¬ fits → Acts (.beacon rx) s (count (fun c => { c with malformed := c.malformed + 1 }) v) []) ∧
      (known → fits → stale → Acts (.beacon rx) s (count (fun c => { c with stale := c.stale + 1 }) v) []) ∧
      (known → fits → ¬ stale → rx.hops.val = 7 →
        Acts (.beacon rx) s (count (fun c => { c with far := c.far + 1 }) v) []) ∧
      (known → fits → ¬ stale → rx.hops.val < 7 →
        let route : Route :=
          { hops := rx.hops.val + 1, port := rx.port, incarnation := rx.incarnation, sequence := rx.floodSeq, age := 0
            refreshed := true, contents := c }
        let w (conflict : Bool) : State := count (fun c =>
            { c with learned := c.learned + 1, conflict := if conflict then c.conflict + 1 else c.conflict })
          { v with reach := { v.reach with table := upd v.reach.table rx.origin (fun _ => some route) } }
        match s.route rx.origin with
        | none => Ends (.beacon rx) s (advertEvent rx.origin (reachGainedEvent rx.origin ⟨w false, []⟩))
        | some r =>
          let w := w (r.contents.serial != c.serial)
          if r.port = rx.port then Ends (.beacon rx) s (advertEvent rx.origin ⟨w, []⟩)
          else Ends (.beacon rx) s (advertEvent rx.origin (routeChangedEvent rx.origin r.port ⟨w, []⟩))))) ∧
  (∀ (rx : Rx) (s : State) (ps : List Post),
    (s.own = 0 ∨ s.reach.portSet.get rx.port = false ∨ rx.hops.val = 7 ∨ s.route rx.origin = none →
      takeOffer rx ⟨s, ps⟩ = ⟨s, ps⟩) ∧
    ∀ r, s.own ≠ 0 → s.reach.portSet.get rx.port = true → rx.hops.val < 7 → s.route rx.origin = some r →
      let h := rx.hops.val + 1
      let better := rx.floodSeq = r.sequence ∧ (h < r.hops ∨ h = r.hops ∧ rx.port.val < r.port.val)
      let late := rx.floodSeq ≠ r.sequence ∧ newer rx.floodSeq r.sequence = true
      let moved (n : Route) (g : ReachCounters → ReachCounters) : Act :=
        let w : Act := ⟨{ s with reach := { s.reach with
          table := upd s.reach.table rx.origin (fun _ => some n), counters := g s.reach.counters } }, ps⟩
        if rx.port = r.port then w else routeChangedEvent rx.origin r.port w
      (r.incarnation ≠ rx.incarnation ∨ ¬ better ∧ ¬ late → takeOffer rx ⟨s, ps⟩ = ⟨s, ps⟩) ∧
      (r.incarnation = rx.incarnation → better → takeOffer rx ⟨s, ps⟩ =
        moved { r with hops := h, port := rx.port } (fun c => { c with improved := c.improved + 1 })) ∧
      (r.incarnation = rx.incarnation → late → takeOffer rx ⟨s, ps⟩ =
        moved { r with hops := h, port := rx.port, sequence := rx.floodSeq, age := 0, refreshed := true }
          (fun c => { c with late := c.late + 1 }))) ∧
  (∀ (f : FrameNo) (a : Act), advertEvent f a = a.race2 (rosterAdvert f) (timeAdvert f) ∧
    reachGainedEvent f a = a.race3 (rosterReachGained f) (timeReachGained f) (streamReachGained f)) ∧
  (∀ (f : FrameNo) (p : PortIx) (s : State) (ps : List Post),
    let t := routeChangedEvent f p ⟨s, ps⟩
    let gone := BitVec.ofNat 32 ((s.link p).dQueue.filter (fun q => q.cell.dest.toNat == f.val)).length
    t.posts = ps ∧ t.s.stream.unmatched = s.stream.unmatched ∧
    { t.s with stream := s.stream } = s.modLink p (fun l => { l with
      dQueue := l.dQueue.filter (fun q => q.cell.dest.toNat != f.val)
      counters := { l.counters with reroute := l.counters.reroute + gone } }) ∧
    ∀ n, t.s.slot n = if (s.slot n).peer = f then cutBlock s.now (s.slot n) else s.slot n)

/-- PERIOD_TIMER: every 20 ms a numbered part floods a BEACON of its contents under the next sequence (R45, R46), and
every REACHABLE entry is judged: a refreshed one is kept at age 0, another ages, and at age 3 goes UNKNOWN with its
events (R50, R52); the two in either order. The clock first comes to the limit where it stands before it (the model's
choice, log entry 1). So is the order's source (log entry 6); that all entries are UNKNOWN before the first event is its
reading (log entry 20). -/
def Obligations.PeriodTimer : Prop :=
  (∀ s : State, s.inReset = false →
    let due := s.reach.lastPeriod + reachPeriod
    let a := advanceTo s due
    Ends .periodTimer s ((⟨{ a with reach := { a.reach with lastPeriod := due } }, []⟩ : Act).race2
      (fun a => ⟨originateBeacon a.s, a.posts⟩) ageTable)) ∧
  (∀ s : State,
    let leaving := s.roster.standing = .leaving
    let q := s.reach.ownSequence + 1
    let c : Contents :=
      { frame := BitVec.ofNat 8 s.own.val
        anchorRank := BitVec.ofNat 8 (if leaving then 0 else s.store.working.anchorRank.val)
        timeRank := BitVec.ofNat 8 (if leaving then 0 else s.store.working.timeRank.val)
        timeState := BitVec.ofNat 8 (timeStateCode s.tb.state), serial := s.serial, incarnation := s.store.incarnation
        generation := s.roster.generation, followedAnchor := BitVec.ofNat 8 s.roster.anchor.val
        followedMaster := BitVec.ofNat 8 s.tb.master.val, standing := BitVec.ofNat 8 (standingCode s.roster.standing)
        leaving := if leaving then 1 else 0 }
    (s.own = 0 → originateBeacon s = s) ∧
    (s.own ≠ 0 → originateBeacon s = s.upPorts.foldl (fun v p => offer v p
      ⟨ownCell s .beacon 63 (contentsPayload c) q, none⟩) { s with reach := { s.reach with ownSequence := q } })) ∧
  (∀ (s : State) (ps : List Post),
    let lost := allFrames.filter (fun f => (s.route f).any (fun r => !r.refreshed && r.age + 1 == 3))
    ∃ v, ageTable ⟨s, ps⟩ = lost.foldl (fun a f => a.race3 (rosterReachLost f) (timeReachLost f) (streamReachLost f))
        ⟨lost.foldl markUnknown v, ps⟩ ∧ { v with reach := s.reach } = s ∧
      { v.reach with table := s.reach.table } = s.reach ∧
      ∀ f, f ≠ 0 → v.route f = (s.route f).map (fun r =>
        if r.refreshed then { r with refreshed := false, age := 0 }
        else if r.age + 1 = 3 then r else { r with age := r.age + 1 })) ∧
  (∀ (s : State) (f : FrameNo), markUnknown s f = { s with
    flood := upd s.flood f (fun _ => .empty)
    reach := { s.reach with
      table := upd s.reach.table f (fun _ => none), counters := { s.reach.counters with lost := s.reach.counters.lost + 1 } } })

/-! ## Notes -/

/-- SEND_NOTE (R161, R162): its parameters are tested; it waits where the note window is full or another waits; else,
and when WAITING_NOTE_TAKEN takes the oldest waiting, it is refused where the part or the destination does not allow
it, and otherwise sends a NOTE under the next number, held in the window with its timer. That resolutions leave the
waiting note to WAITING_NOTE_TAKEN is the model's choice (log entry 41), as is that of several invalid parameters the
lowest index is given (log entry 61). A WAITING_NOTE_TAKEN that is not enabled, with the
window full or none waiting, has no effect (log entry 9). -/
def Obligations.SendNote : Prop :=
  (∀ (s : State) (o : Order), Oldest .sendNote o s →
    let bad (i : Nat) := Answers .sendNote s o .badOrder i
    let named := 1 ≤ noteDest o ∧ noteDest o ≤ 31 ∧ noteDest o ≠ s.own.val
    (¬ named → bad 0) ∧
    (named → notePointer o = 0 → bad 1) ∧
    (named → notePointer o ≠ 0 → ¬ (1 ≤ noteLength o ∧ noteLength o ≤ 192) → bad 2) ∧
    (named → notePointer o ≠ 0 → 1 ≤ noteLength o → noteLength o ≤ 192 →
      (s.notes.window.length < 4 → s.notes.waiting = [] → Ends .sendNote s (takeNoteOrder ⟨s, []⟩ o)) ∧
      (4 ≤ s.notes.window.length ∨ s.notes.waiting ≠ [] →
        Acts .sendNote s { held s o with notes := { s.notes with waiting := s.notes.waiting ++ [o.sequence] } } []))) ∧
  (∀ (s : State) (ps : List Post) (o : Order) (dest : FrameNo), noteDest o = dest.val →
    let member := s.roster.standing = .member
    let there := (s.entry dest).state = .member ∧ (s.route dest).isSome = true
    let body := bytesIn s.mem (notePointer o) (noteLength o)
    (¬ member → takeNoteOrder ⟨s, ps⟩ o = complete ⟨s, ps⟩ o.sequence .notMember) ∧
    (member → ¬ there → takeNoteOrder ⟨s, ps⟩ o = complete ⟨s, ps⟩ o.sequence .unreachable) ∧
    (∀ x, member → there → firstFault s.mem.readFaults (notePointer o) (noteLength o) = some x →
      takeNoteOrder ⟨s, ps⟩ o = (complete ⟨s, ps⟩ o.sequence .memoryFault).post (faultPost .noteBodyRead x)) ∧
    (∀ r, member → (s.entry dest).state = .member → s.route dest = some r →
      Readable s.mem (notePointer o) (noteLength o) →
      let u := offer (held s o) r.port ⟨ownCell s .note dest.val (notePayload s.notes.number s.serial body), none⟩
      takeNoteOrder ⟨s, ps⟩ o = ⟨{ u with notes := { s.notes with
        window := s.notes.window ++ [⟨o.sequence, dest, s.notes.number, noteLength o, s.now⟩]
        number := s.notes.number + 1
        counters := { s.notes.counters with sent := s.notes.counters.sent + 1 } } }, ps⟩)) ∧
  (∀ s : State, s.inReset = false → (4 ≤ s.notes.window.length ∨ s.notes.waiting = []) →
    Acts .waitingNoteTaken s s []) ∧
  (∀ (s : State) (q : BitVec 32) (rest : List (BitVec 32)) (o : Order), s.inReset = false → s.notes.window.length < 4 →
    s.notes.waiting = q :: rest → windowOrder s q = some o →
    Ends .waitingNoteTaken s (takeNoteOrder ⟨{ s with notes := { s.notes with waiting := rest } }, []⟩ o))

/-- NOTE by the first case of R163: counted, answered, or written into the first inbox slot held EMPTY, its flag last,
with a NOTES notice. NOTE_ANSWER and ANSWER_TIMER (R164): the entry leaves the window and its order completes with the
answer, or UNCONFIRMED; an answer that matches none is counted, and so is one of another length than 4 (the model's
choice, log entry 80). That the waiting SEND_NOTE, which R164 has taken then, is left to the row WAITING_NOTE_TAKEN is
the model's choice (log entry 41). An answer that cannot be routed is not sent and not counted (R166; inferred, log
entry 30). A fault leaves memory as it was but for a run that was written before it (log entry 4). The clock first
comes to the limit where it stands before it (the model's choice, log entry 1). -/
def Obligations.NoteCells : Prop :=
  (∀ (rx : Rx) (s : State), Arrives .note rx .up s → rx.dest.toNat = s.own.val →
    let b := rx.payload
    let number := BitVec.ofNat 16 (beAt b 0 2)
    let u := heard s rx
    let fits := 1 ≤ beAt b 2 2 ∧ beAt b 2 2 ≤ 192 ∧ b.length = 16 + beAt b 2 2
    let known := s.roster.standing = .member ∧ (s.entry rx.origin).state = .member
    let count (g : NoteCounters → NoteCounters) : State :=
      { u with notes := { u.notes with counters := g u.notes.counters } }
    let sent (v : State) (g : NoteCounters → NoteCounters) : State :=
      if (s.route rx.origin).isSome then { v with notes := { v.notes with counters := g v.notes.counters } } else v
    let answer (v : State) (x : NoteAnswer) (slot : Nat) : State :=
      sendRouted v rx.origin (ownCell v .noteAnswer rx.origin.val (noteAnswerPayload number x slot))
    (¬ fits → Acts (.note rx) s (count (fun c => { c with malformed := c.malformed + 1 })) []) ∧
    (fits → ¬ known → Acts (.note rx) s (count (fun c => { c with refused := c.refused + 1 })) []) ∧
    (fits → known → s.ex.state ≠ .attached →
      Acts (.note rx) s (answer (sent u (fun c => { c with notAttached := c.notAttached + 1 })) .notAttached 0) []) ∧
    (fits → known → s.ex.state = .attached → (∀ k, s.notes.inbox.get k = true) →
      Acts (.note rx) s (answer (sent u (fun c => { c with busy := c.busy + 1 })) .busy 0) []) ∧
    (∀ k : InboxIx, fits → known → s.ex.state = .attached → s.notes.inbox.get k = false →
      (∀ j, j < k → s.notes.inbox.get j = true) →
      let base := areaBase s + 0x800 + 0x100 * k.val
      let bytes := leBytes 1 rx.origin.val ++ leBytes 2 (beAt b 0 2) ++ leBytes 2 (beAt b 2 2) ++ zeros 2
        ++ leBytes 8 (beAt b 4 6) ++ leBytes 8 rx.stamp.toNat ++ zeros 0x28 ++ b.drop 16
      (Writable s.mem base (64 + beAt b 2 2) → ∃ m, Stored s.mem m base (leBytes 1 1 ++ bytes) ∧
        Acts (.note rx) s
          (answer { u with
            mem := m
            notes := { u.notes with
              inbox := upd u.notes.inbox k (fun _ => true)
              counters := { u.notes.counters with accepted := u.notes.counters.accepted + 1 } } } .accepted k.val)
          [.notice (.notes (bit 8 k.val))]) ∧
      (∀ x, firstFault s.mem.writeFaults (base + 1) (63 + beAt b 2 2) = some x →
        Acts (.note rx) s (answer (sent u (fun c => { c with busy := c.busy + 1 })) .busy 0)
          [faultPost .inboxWrite x]) ∧
      (∀ x, Writable s.mem (base + 1) (63 + beAt b 2 2) → firstFault s.mem.writeFaults base 1 = some x →
        ∃ m, Stored s.mem m (base + 1) bytes ∧
        Acts (.note rx) s (answer (sent { u with mem := m } (fun c => { c with busy := c.busy + 1 })) .busy 0)
          [faultPost .inboxWrite x]))) ∧
  (∀ (rx : Rx) (s : State), Arrives .noteAnswer rx .up s → rx.dest.toNat = s.own.val →
    let b := rx.payload
    let number := BitVec.ofNat 16 (beAt b 0 2)
    let found := s.notes.window.find? (fun e => e.dest == rx.origin && e.number == number)
    let fits := b.length = 4 ∧ beAt b 3 1 ≤ 7
    let u := heard s rx
    ((¬ fits ∨ noteAnswerOfCode (beAt b 2 1) = none ∨ found = none) → Acts (.noteAnswer rx) s
      { u with notes := { u.notes with counters := { u.notes.counters with ignored := u.notes.counters.ignored + 1 } } }
      []) ∧
    (∀ e x, fits → noteAnswerOfCode (beAt b 2 1) = some x → found = some e →
      let v : State := { u with notes := { u.notes with window := s.notes.window.filter (fun y => y != e) } }
      Ends (.noteAnswer rx) s (match x with
        | .accepted => complete ⟨v, []⟩ e.order .done 0 (leBytes 1 (beAt b 3 1) ++ zeros 1 ++ leBytes 2 number.toNat)
        | .busy => complete ⟨v, []⟩ e.order .busy 0 (leBytes 2 number.toNat)
        | .notAttached => complete ⟨v, []⟩ e.order .notAttached 0 (leBytes 2 number.toNat)))) ∧
  (∀ (s : State) (number : BitVec 16) (e : NoteEntry), s.inReset = false →
    s.notes.window.find? (fun e => e.number == number) = some e →
    let u := advanceTo s (e.since + answerTime)
    Ends (.answerTimer number) s (complete ⟨{ u with notes := { s.notes with
      window := s.notes.window.filter (fun y => y != e)
      counters := { s.notes.counters with unconfirmed := s.notes.counters.unconfirmed + 1 } } }, []⟩ e.order .unconfirmed 0
      (leBytes 2 number.toNat)))

/-! ## Streams -/

namespace Sys2Proof.Statements

/-- A stream cell's payload has a length, a direction, a tag and an open number. -/
structure StreamPayload (rx : Rx) (length direction : Nat) (tag number : BitVec 16) : Prop where
  length : rx.payload.length = length
  tag : beAt rx.payload 0 2 = tag.toNat
  number : beAt rx.payload 2 2 = number.toNat
  direction : beAt rx.payload 4 1 = direction

/-- A cell matches a source slot (R118). -/
def SourceMatch (s : State) (rx : Rx) (tag number : BitVec 16) (m : SlotIx) : Prop :=
  (s.slot m).role = .source ∧ (s.slot m).state ≠ .closed ∧ (s.slot m).tag = tag ∧ (s.slot m).openNumber = number ∧
  (s.slot m).peer = rx.origin

/-- A cell matches a sink slot (R118). -/
def SinkMatch (s : State) (rx : Rx) (tag number : BitVec 16) (m : SlotIx) : Prop :=
  (s.slot m).role = .sink ∧ (s.slot m).state ≠ .closed ∧ (s.slot m).state ≠ .offered ∧ (s.slot m).peer = rx.origin ∧
  (s.slot m).tag = tag ∧ (s.slot m).openNumber = number ∧ (s.slot m).peerIncarnation = some rx.incarnation

/-- A cell matches one slot and no other. -/
def Source (s : State) (rx : Rx) (tag number : BitVec 16) (n : SlotIx) : Prop :=
  ∀ m, m = n ↔ SourceMatch s rx tag number m

/-- A cell matches one slot and no other. -/
def Sink (s : State) (rx : Rx) (tag number : BitVec 16) (n : SlotIx) : Prop :=
  ∀ m, m = n ↔ SinkMatch s rx tag number m

/-- The state once a cell that matches no slot is counted. -/
def unmatchedCounted (s : State) : State := { s with stream := { s.stream with unmatched := s.stream.unmatched + 1 } }

/-- The slot of an opening as its order gives it (R120). -/
def opened (o : Order) (x : Slot) (source : Bool) : Slot :=
  { Slot.reset with
    role := if source then .source else .sink, tag := BitVec.ofNat 16 (openTag o), peer := frameOf (openPeer o)
    openNumber := x.openNumber, blockSize := openBlockSize o, interval := openInterval o
    chainHead := BitVec.ofNat 64 (openChain o), nextRecord := some (BitVec.ofNat 64 (openChain o))
    releaseMark := BitVec.allOnes 32, counters := x.counters }

end Sys2Proof.Statements

/-- OPEN_STREAM (R120 to R122): the first invalid parameter gives BAD_ORDER with its index, the first check that fails
its outcome, the slot as it was; a sink is OFFERED and the order DONE; a source advances its open number, is OPENING
with the order held, and sends an OPEN. The places of the parameters and the number of an offer are the model's
choices (log entries 7 and 19). A start gate is taken by its kind and value. -/
def Obligations.OpenStream : Prop :=
  (∀ n : Nat, n < 32 → (frameOf n).val = n) ∧
  (∀ o : Order, (openGateKind o = 0 → gateOf o = .now) ∧
    (openGateKind o = 1 → gateOf o = .atTime (BitVec.ofNat 64 (openGateValue o))) ∧
    ∀ k : LaneIx, openGateKind o = 2 → openGateValue o = k.val → gateOf o = .onLane k) ∧
  ∀ (s : State) (o : Order), Oldest .openStream o s →
    let source := openRole o = 0
    let sizes := 256 ≤ openBlockSize o ∧ openBlockSize o ≤ 65536 ∧ openBlockSize o % 256 = 0
    let tests : List (Bool × Nat) :=
      [(decide (openSlot o ≤ 63), 0), (decide (openRole o ≤ 1), 1),
       (decide (1 ≤ openPeer o ∧ openPeer o ≤ 31 ∧ openPeer o ≠ s.own.val), 2), (decide sizes, 4),
       (decide (source → openPace o = 0 ∨ 10000 ≤ openPace o ∧ openPace o ≤ 1000000000), 5),
       (decide (source → openGateKind o ≤ 2), 6), (decide (source → openGateKind o = 2 → openGateValue o ≤ 15), 7),
       (decide (1 ≤ openInterval o ∧ openInterval o ≤ 64), 8), (decide (openChain o ≠ 0), 10)]
    let bad := (tests.find? (fun t => !t.1)).map (·.2)
    let peer := frameOf (openPeer o)
    let inUse (n : SlotIx) := ∃ m, m ≠ n ∧ (s.slot m).state ≠ .closed ∧ (s.slot m).tag.toNat = openTag o ∧
      (if source then (s.slot m).role = .source else (s.slot m).role = .sink ∧ (s.slot m).peer.val = openPeer o)
    (∀ i, bad = some i → Answers .openStream s o .badOrder i) ∧
    (∀ n : SlotIx, bad = none → openSlot o = n.val →
      ((s.slot n).state ≠ .closed → Answers .openStream s o .slotBusy) ∧
      ((s.slot n).state = .closed → inUse n → Answers .openStream s o .inUse) ∧
      ((s.slot n).state = .closed → ¬ inUse n →
        (s.roster.standing ≠ .member → Answers .openStream s o .notMember) ∧
        (s.roster.standing = .member →
          (source → ¬ ((s.entry peer).state = .member ∧ (s.route peer).isSome = true) →
            Answers .openStream s o .unreachable) ∧
          (¬ source → Ends .openStream s (complete ⟨setSlot s n { opened o (s.slot n) false with
            state := .offered, cause := .offered, lateness := openLateness o, openAbsent := true }, slotReport n⟩
            o.sequence .done)) ∧
          (source → (s.entry peer).state = .member → (s.route peer).isSome = true →
            Acts .openStream s (sendOpen (setSlot (held s o) n { opened o (s.slot n) true with
              state := .opening, cause := .opening, openNumber := (s.slot n).openNumber + 1, pace := openPace o
              gate := gateOf o, openOrder := some o.sequence, openSince := s.now, lastOpen := s.now }) n)
              (slotReport n)))))

/-- CLOSE_STREAM (R138, R139), HALT_STREAM and RESUME_STREAM (R131) by slot state, their parameters tested first. A
slot that closes is CLOSED with its cause, its block in progress cut off; its records complete, DISCARDED where no
outcome is held; it keeps nothing fetched, on offer or in progress and no deadline, sends its CLOSE where it is to,
and its open or finish order completes (R141). A change of an input has an opened slot take the state its flags, gate,
drain and the timebase call for, a gate that is due opening first (R125, R126); under FINISH it drains (R138), and at
a LEAVE every open slot does, in ascending order (R137; the order is the model's choice, log entry 66). Where a NOW
gate is judged is the model's reading (log entry 17); the cause of a change in which the gate opens with another input
is its choice (log entry 82). Inferred is the cause DRAIN of a sink that was HALTED already (log entry 16). At a
RESUME_STREAM the FAULTED blocks become DAMAGED without a GAP (log entry 58), then the held outcomes are completed,
once, a faulted completion among them, and a faulted read is made again (R157), an order that is the model's choice
(log entry 60); each such block's BLOCKACK is offered before its record's completion (log entry 67), and a draining
sink closes after them where its conditions then hold (inferred, log entry 39). A close completes also a record whose
write faulted in the same act (inferred, log entry 78). That the read is made in the order's own step, and a tail's
link though fetching has ended, is inferred (log entries 34 and 38). Choices of the model are also that a sink
draining for a leaving peer stays as it is at a LEAVE (log entry 57), that LATE is not judged for a record DISCARDED
at a close (log entry 59), and the lower index of two invalid parameters (log entry 61). So are the results 0 of a
CANCELLED finish order (log entry 72), and that the slot's own orders complete before the CLOSE_STREAM that ends them
(log entry 69). -/
def Obligations.CloseHaltResume : Prop :=
  (∀ (s : State) (o : Order), Oldest .closeStream o s →
    let opening (n : SlotIx) : Act := complete (closeSlot ⟨s, []⟩ n .cancelled true .cancelled) o.sequence .done
    (63 < streamSlotParameter o → Answers .closeStream s o .badOrder 0) ∧
    ∀ n : SlotIx, streamSlotParameter o = n.val →
      let x := s.slot n
      (1 < closeMode o → Answers .closeStream s o .badOrder 1) ∧
      (closeMode o = 0 →
        (x.state = .closed ∨ x.role = .sink ∨ x.state = .draining ∨ x.state = .offered →
          Answers .closeStream s o .wrongState) ∧
        (x.role = .source → x.state = .opening → Ends .closeStream s (opening n)) ∧
        (x.role = .source → (isSettling x.state = true ∨ x.state = .stranded) →
          Ends .closeStream s (drainFinish ⟨setSlot (held s o) n { x with finishOrder := some o.sequence }, []⟩ n))) ∧
      (closeMode o = 1 →
        (x.state = .closed → Answers .closeStream s o .wrongState) ∧
        (x.state = .opening → Ends .closeStream s (opening n)) ∧
        (x.state ≠ .closed → x.state ≠ .opening →
          Ends .closeStream s (complete (closeSlot ⟨s, []⟩ n .closed true) o.sequence .done)))) ∧
  (∀ (s : State) (o : Order), Oldest .haltStream o s →
    (63 < streamSlotParameter o → Answers .haltStream s o .badOrder 0) ∧
    ∀ n : SlotIx, streamSlotParameter o = n.val →
      let x := s.slot n
      let open' := x.state ≠ .closed ∧ x.state ≠ .offered ∧ x.state ≠ .opening
      (¬ open' → Answers .haltStream s o .wrongState) ∧
      (open' → x.selfHalt = true → Answers .haltStream s o .done) ∧
      (open' → x.selfHalt = false → Ends .haltStream s (complete
        (settle ⟨sendHalt (setSlot s n { x with selfHalt := true, lastHalt := s.now }) n true, []⟩ n .halt) o.sequence
        .done))) ∧
  (∀ (s : State) (o : Order), Oldest .resumeStream o s →
    (63 < streamSlotParameter o → Answers .resumeStream s o .badOrder 0) ∧
    ∀ n : SlotIx, streamSlotParameter o = n.val →
      let x := s.slot n
      let open' := x.state ≠ .closed ∧ x.state ≠ .offered ∧ x.state ≠ .opening
      (¬ open' ∨ x.selfHalt = false → Answers .resumeStream s o .wrongState) ∧
      (open' → x.selfHalt = true → Ends .resumeStream s (complete
        (resumeAccess (settle ⟨sendHalt (setSlot s n { x with selfHalt := false }) n false, []⟩ n .resumed) n) o.sequence
        .done))) ∧
  (∀ (a : Act) (n : SlotIx) (cause : StreamCause) (sends : Bool) (outcome : Outcome),
    let x := (closeSlot a n cause sends outcome).s.slot n
    x.state = .closed ∧ x.cause = cause ∧ x.fetched = [] ∧ x.endBlock = none ∧ x.sending = none ∧ x.offer = none ∧
    x.strandDeadline = none ∧ x.closeDeadline = none ∧ x.openOrder = none ∧ x.finishOrder = none ∧
    ∀ m, m ≠ n → (closeSlot a n cause sends outcome).s.slot m = a.s.slot m) ∧
  (∀ (s : State) (ps : List Post) (n : SlotIx) (cause : StreamCause) (sends : Bool) (outcome : Outcome),
    let x := s.slot n
    let a := completeAll n x.fetched.length (movedSlot s ps n (cutBlock s.now x) .closed cause)
    let v := setSlot a.s n { a.s.slot n with
      strandDeadline := none, closeDeadline := none, drainMode := none, fetched := [], endBlock := none
      nextRecord := none, stop := none, fetchEnded := true, writeStop := false, sending := none, offer := none
      sinceNotice := 0 }
    closeSlot ⟨s, ps⟩ n cause sends outcome = completeSlotOrders
      ⟨if sends = true ∧ x.state ≠ .offered then sendClose v n .abort else v, a.posts⟩ n outcome cause) ∧
  (∀ (s : State) (n : SlotIx) (reason : CloseReason),
    let x := s.slot n
    (s.route x.peer = none → sendClose s n reason =
      setSlot s n { x with counters := { x.counters with unsent := x.counters.unsent + 1 } }) ∧
    ∀ r, s.route x.peer = some r → sendClose s n reason = offer s r.port ⟨ownCell s .close x.peer.val
      (closePayload x.tag x.openNumber (if x.role = .source then 0 else 1) reason), none⟩) ∧
  (∀ (s : State) (ps : List Post) (n : SlotIx) (outcome : Outcome) (cause : StreamCause),
    let x := s.slot n
    let a : Act := ⟨setSlot s n { x with openOrder := none, finishOrder := none }, ps⟩
    let b := match x.openOrder with | some q => complete a q outcome | none => a
    completeSlotOrders ⟨s, ps⟩ n outcome cause = match x.finishOrder with
      | some q => complete b q outcome 0 (if outcome = .done ∨ outcome = .unconfirmed then leBytes 1 (streamCauseCode cause)
          else [])
      | none => b) ∧
  (∀ (s : State) (ps : List Post) (n : SlotIx) (cause : StreamCause),
    let x := s.slot n
    let judged := x.role = .source ∧ x.gateOpen = false ∧ x.selfHalt = false ∧ x.peerHalt = false
    let opened (t : Time) : Slot := { x with gateOpen := true, startTime := t, nextPace := 0 }
    let takes (y : Slot) : Prop :=
      takeSettled ⟨s, ps⟩ n cause = movedSlot s ps n y (settledState s y) cause ∧
      (isSettling x.state = false → settle ⟨s, ps⟩ n cause = ⟨s, ps⟩) ∧
      (isSettling x.state = true → settledState s y = x.state → settle ⟨s, ps⟩ n cause = ⟨setSlot s n y, ps⟩) ∧
      (isSettling x.state = true → settledState s y ≠ x.state →
        settle ⟨s, ps⟩ n cause = movedSlot s ps n y (settledState s y) cause)
    (¬ judged → takes x) ∧
    (judged → x.gate = .now → takes (opened s.tb.rackTime)) ∧
    (∀ t, judged → x.gate = .atTime t →
      (t.toNat ≤ s.tb.rackTime.toNat → takes (opened t)) ∧ (s.tb.rackTime.toNat < t.toNat → takes x)) ∧
    (∀ k, judged → x.gate = .onLane k → takes x)) ∧
  (∀ (s : State) (ps : List Post) (n : SlotIx),
    let x := s.slot n
    let y : Slot := if x.state = .armed then { x with gateOpen := true, startTime := s.tb.rackTime, nextPace := 0 } else x
    let a := movedSlot s ps n { y with
      strandDeadline := none, closeDeadline := some (s.now + 1000000000), drainMode := some .finish } .draining .finish
    drainFinish ⟨s, ps⟩ n = if x.stop = some .notPosted ∨ x.stop = some .tail then retryStop a n else a) ∧
  (∀ (s : State) (ps : List Post) (n : SlotIx) (cause : StreamCause),
    let x := s.slot n
    let y : Slot := { x with
      drain := true, drainCause := cause, strandDeadline := none, closeDeadline := some (s.now + 1000000000) }
    drainSink ⟨s, ps⟩ n cause =
      if x.expCell = 0 then closeSlot ⟨setSlot s n y, ps⟩ n cause true
      else if x.state = .halted ∧ x.cause = .drain then ⟨setSlot s n y, ps⟩ else movedSlot s ps n y .halted .drain) ∧
  (∀ (a : Act) (n : SlotIx),
    let blocks := (a.s.slot n).fetched.filterMap (fun r => if r.stage = .faulted then r.number else none)
    let damaged := blocks.foldl (fun a b => ⟨sendAck (a.s.modSlot n (finishRec b .damaged)) n b .damaged, a.posts⟩) a
    let written (a : Act) : Act := if (a.s.slot n).writeStop = true then
      completeAndEnd ⟨a.s.modSlot n (fun x => { x with writeStop := false }), a.posts⟩ n else a
    let read (a : Act) : Act := if (a.s.slot n).stop = some .memoryFault then retryStop a n else a
    (blocks = [] → resumeAccess a n = read (written a)) ∧
    (blocks ≠ [] → (a.s.slot n).writeStop = true →
      resumeAccess a n = closeIfDrained (read (written damaged)) n) ∧
    (blocks ≠ [] → (a.s.slot n).writeStop = false →
      resumeAccess a n = closeIfDrained (read (completeHeld damaged n).1) n)) ∧
  (∀ a : Act, streamsLeave a = allSlots.foldl (fun a n =>
    let x := a.s.slot n
    if x.role = .source then
      if isSettling x.state = true ∨ x.state = .stranded then drainFinish a n else a
    else if x.state = .offered then closeSlot a n .leaving false
    else if (x.state = .flowing ∨ x.state = .halted ∨ x.state = .stranded) ∧ x.drain = false then drainSink a n .leaving
    else a) a) ∧
  (∀ (s : State) (x : Slot),
    let halts := x.selfHalt = true ∨ x.peerHalt = true
    let sync := s.tb.state ≠ .free ∧ s.tb.state ≠ .acquiring
    (x.role = .source →
      (halts → settledState s x = .halted) ∧
      (¬ halts → x.gateOpen = false → settledState s x = .armed) ∧
      (¬ halts → x.gateOpen = true → x.pace ≠ 0 → ¬ sync → settledState s x = .timeheld) ∧
      (¬ halts → x.gateOpen = true → x.pace = 0 ∨ sync → settledState s x = .flowing)) ∧
    (x.role = .sink →
      (halts ∨ x.drain = true → settledState s x = .halted) ∧
      (¬ halts → x.drain = false → settledState s x = .flowing)))

/-- OPEN at a sink part (R123): the answer of the first case that applies, sent to the origin; an OFFERED slot that
accepts is FLOWING with the opening's number, incarnation and pace. OPEN_ANSWER and CREDIT at a source (R124, R130):
an ACCEPT or a CREDIT opens an OPENING source with its limit, MISMATCH and FULL close it, NO_OFFER changes nothing; a
later CREDIT's limit is taken if newer, its flag as the peer halt. That a source takes the cause ACCEPTED on leaving
OPENING, and RESUMED where the peer halt is cleared, is inferred (log entry 16). An answer that cannot be routed is counted UNSENT
in the slot it concerns and nowhere where it concerns none (log entry 30); an OPEN whose sizes do not fit, and an
OPEN, OPEN_ANSWER or CREDIT of another unfit form, is discarded (inferred, log entry 24). The codes of the answers. -/
def Obligations.StreamHandshake : Prop :=
  [OpenAnswer.accept, .noOffer, .mismatch, .full].map openAnswerCode = [1, 2, 3, 4] ∧
  (∀ (rx : Rx) (s : State), rx.dest.toNat = s.own.val →
    let b := rx.payload
    let toward (d : Nat) := b.length = 16 ∧ beAt b 4 1 = d
    (Arrives .openCell rx .up s → ¬ toward 0 → Acts (.openCell rx) s (heard s rx) []) ∧
    (Arrives .openAnswer rx .up s → ¬ (toward 1 ∧ 1 ≤ beAt b 8 1 ∧ beAt b 8 1 ≤ 4) →
      Acts (.openAnswer rx) s (heard s rx) []) ∧
    (Arrives .credit rx .up s → ¬ (toward 1 ∧ beAt b 12 1 ≤ 1) → Acts (.credit rx) s (heard s rx) [])) ∧
  (∀ (rx : Rx) (s : State) (tag number : BitVec 16), Arrives .openCell rx .up s → rx.dest.toNat = s.own.val →
    StreamPayload rx 16 0 tag number →
    let size := beAt rx.payload 8 4
    let pace := beAt rx.payload 12 4
    let fits := 256 ≤ size ∧ size ≤ 65536 ∧ size % 256 = 0 ∧ (pace = 0 ∨ 10000 ≤ pace ∧ pace ≤ 1000000000)
    let u := heard s rx
    (¬ fits → Acts (.openCell rx) s u []) ∧
    (fits →
    let answer (v : State) (x : OpenAnswer) (limit : BitVec 32) (r : Route) : State :=
      offer v r.port ⟨ownCell s .openAnswer rx.origin.val (openAnswerPayload tag number x limit), none⟩
    let offers (m : SlotIx) := (s.slot m).role = .sink ∧ (s.slot m).state ≠ .closed ∧ (s.slot m).peer = rx.origin ∧
      (s.slot m).tag = tag
    (s.route rx.origin = none → (∀ m, ¬ offers m) → Acts (.openCell rx) s u []) ∧
    (∀ n, s.route rx.origin = none → (∀ m, m = n ↔ offers m) → Acts (.openCell rx) s (setSlot u n { s.slot n with
      counters := { (s.slot n).counters with unsent := (s.slot n).counters.unsent + 1 } }) []) ∧
    ∀ r, s.route rx.origin = some r →
    ((∀ m, ¬ offers m) → Acts (.openCell rx) s (answer u .noOffer 0 r) []) ∧
    (∀ n, (∀ m, m = n ↔ offers m) →
      let x := s.slot n
      let ready := (s.entry rx.origin).state = .member ∧ s.roster.standing = .member
      (x.state = .offered →
        (¬ ready → Acts (.openCell rx) s (answer u .noOffer 0 r) []) ∧
        (ready → size ≠ x.blockSize → Acts (.openCell rx) s (answer u .mismatch 0 r) []) ∧
        (ready → size = x.blockSize → Acts (.openCell rx) s (answer (setSlot u n { x with
          state := .flowing, cause := .accepted, sinceNotice := 0, openNumber := number, openAbsent := false
          peerIncarnation := some rx.incarnation, pace := pace, lastCredit := s.now, expBlock := 0, expCell := 0
          asmLength := 0 }) .accept x.creditLimit r) (slotReport n))) ∧
      (x.state ≠ .offered →
        (if x.openNumber = number ∧ x.peerIncarnation = some rx.incarnation then
          Acts (.openCell rx) s (answer u .accept x.creditLimit r) []
        else Acts (.openCell rx) s (answer u .full 0 r) []))))) ∧
  (∀ (rx : Rx) (s : State) (tag number : BitVec 16) (x : OpenAnswer), Arrives .openAnswer rx .up s →
    rx.dest.toNat = s.own.val → StreamPayload rx 16 1 tag number → beAt rx.payload 8 1 = openAnswerCode x →
    let a : Act := ⟨heard s rx, []⟩
    ((∀ m, ¬ SourceMatch s rx tag number m) → Acts (.openAnswer rx) s (unmatchedCounted a.s) []) ∧
    ∀ n, Source s rx tag number n →
      ((s.slot n).state ≠ .opening → Acts (.openAnswer rx) s a.s []) ∧
      ((s.slot n).state = .opening → match x with
        | .accept => Ends (.openAnswer rx) s (acceptSource a n (BitVec.ofNat 32 (beAt rx.payload 12 4)))
        | .noOffer => Acts (.openAnswer rx) s a.s []
        | .mismatch => Ends (.openAnswer rx) s (closeSlot a n .mismatch true .mismatch)
        | .full => Ends (.openAnswer rx) s (closeSlot a n .full true .full))) ∧
  (∀ (s : State) (ps : List Post) (n : SlotIx) (limit : BitVec 32) (q : BitVec 32), (s.slot n).openOrder = some q →
    acceptSource ⟨s, ps⟩ n limit = complete
      (takeSettled ⟨setSlot s n { s.slot n with creditLimit := limit, openOrder := none }, ps⟩ n .accepted) q .done 0
      (leBytes 4 limit.toNat)) ∧
  (∀ (rx : Rx) (s : State) (tag number : BitVec 16) (n : SlotIx) (halted : Bool), Arrives .credit rx .up s →
    rx.dest.toNat = s.own.val → StreamPayload rx 16 1 tag number → beAt rx.payload 12 1 = flagCode halted →
    Source s rx tag number n →
    let limit := BitVec.ofNat 32 (beAt rx.payload 8 4)
    let x := s.slot n
    let y : Slot := { x with creditLimit := if newer limit x.creditLimit then limit else x.creditLimit }
    let u := heard s rx
    (x.state = .opening → Ends (.credit rx) s (acceptSource ⟨setSlot u n { x with peerHalt := halted }, []⟩ n limit)) ∧
    (x.state ≠ .opening → x.peerHalt = halted → Acts (.credit rx) s (setSlot u n y) []) ∧
    (x.state ≠ .opening → x.peerHalt = !halted → Ends (.credit rx) s
      (settle ⟨setSlot u n { y with peerHalt := halted }, []⟩ n (if halted then .peerHalt else .resumed))))

/-- HALT and CLOSE (R132, R140) at the slot they match: a HALT sets or clears the peer halt flag and the slot settles;
a CLOSE closes the slot with the cause its reason gives, and no CLOSE goes back. BLOCKACK resolves the block it names
where its record awaits it, else it is counted (R155). An unmatched one is counted, and a HALT, a CREDIT or a BLOCKACK
is answered with a CLOSE (R118). A block resolves, a SENDING one cut off first, its record RESOLVED with the outcome,
and what is held completes; an END block closes the slot as its result and its kind say. An answer that cannot be
routed is not counted (inferred, log entry 30); a BLOCKACK of result DELIVERED for an END block leaves the slot open
with that outcome held (the model's choice, log entry 50), and END closes a source ENDED that drains for a leaving
peer too (log entry 37). A HALT, CLOSE or BLOCKACK of unfit form is discarded (inferred, log entry 24), and the cause
of a peer halt that is cleared is RESUMED (inferred, log entry 16). The codes of the reasons and of the results. A
close also completes a record whose write faulted in the same act (inferred, log entry 78). -/
def Obligations.HaltCloseAndAck : Prop :=
  [CloseReason.abort, .unmatched, .exchangeReset, .exchangeBroken].map closeReasonCode = [1, 2, 3, 4] ∧
  (∀ n : Nat, ackResultOfCode n =
    if n = 1 then some .delivered else if n = 2 then some .damaged else if n = 6 then some .ended else none) ∧
  (∀ (rx : Rx) (s : State), rx.dest.toNat = s.own.val →
    let b := rx.payload
    let toward (d : Nat) := b.length = 12 ∧ beAt b 4 1 = d
    (Arrives .halt rx .up s → ¬ ((toward 0 ∨ toward 1) ∧ beAt b 8 1 ≤ 1) → Acts (.halt rx) s (heard s rx) []) ∧
    (Arrives .close rx .up s → ¬ ((toward 0 ∨ toward 1) ∧ 1 ≤ beAt b 8 1 ∧ beAt b 8 1 ≤ 4) →
      Acts (.close rx) s (heard s rx) []) ∧
    (Arrives .blockack rx .up s → ¬ (toward 1 ∧ (beAt b 8 1 = 1 ∨ beAt b 8 1 = 2 ∨ beAt b 8 1 = 6)) →
      Acts (.blockack rx) s (heard s rx) [])) ∧
  (∀ (rx : Rx) (s : State) (tag number : BitVec 16) (n : SlotIx) (d : Nat) (on : Bool), Arrives .halt rx .up s →
    rx.dest.toNat = s.own.val → StreamPayload rx 12 d tag number → beAt rx.payload 8 1 = flagCode on →
    (d = 1 ∧ Source s rx tag number n ∨ d = 0 ∧ Sink s rx tag number n) →
    let x := s.slot n
    (x.peerHalt = on → Acts (.halt rx) s (heard s rx) []) ∧
    (x.peerHalt = !on → Ends (.halt rx) s
      (settle ⟨setSlot (heard s rx) n { x with peerHalt := on }, []⟩ n (if on then .peerHalt else .resumed)))) ∧
  (∀ (rx : Rx) (s : State) (tag number : BitVec 16) (n : SlotIx) (d : Nat) (reason : CloseReason),
    Arrives .close rx .up s → rx.dest.toNat = s.own.val → StreamPayload rx 12 d tag number →
    beAt rx.payload 8 1 = closeReasonCode reason →
    (d = 1 ∧ Source s rx tag number n ∨ d = 0 ∧ Sink s rx tag number n) →
    Ends (.close rx) s (closeSlot ⟨heard s rx, []⟩ n (match reason with
      | .abort | .unmatched => .peerClosed
      | .exchangeReset => .exchangeReset
      | .exchangeBroken => .exchangeBroken) false)) ∧
  (∀ (rx : Rx) (s : State) (tag number : BitVec 16) (n : SlotIx) (o : BlockOutcome), Arrives .blockack rx .up s →
    rx.dest.toNat = s.own.val → StreamPayload rx 12 1 tag number → ackResultOfCode (beAt rx.payload 8 1) = some o →
    Source s rx tag number n →
    let x := s.slot n
    (∀ r, findRec x rx.word = some r → (r.stage = .sending ∨ r.stage = .sent) →
      Ends (.blockack rx) s (resolveBlock ⟨heard s rx, []⟩ n r rx.word o)) ∧
    ((∀ r, findRec x rx.word = some r → r.stage ≠ .sending ∧ r.stage ≠ .sent) →
      Acts (.blockack rx) s (setSlot (heard s rx) n { x with
        counters := { x.counters with ackIgnored := x.counters.ackIgnored + 1 } }) [])) ∧
  (∀ (s : State) (ps : List Post) (n : SlotIx) (r r' : Rec) (b : BitVec 32) (o : BlockOutcome), r.stage = .sent →
    r.length ≠ 0 → (s.slot n).state ≠ .draining → (s.slot n).fetched.head? = some r' → r'.outcome = none →
    r'.number ≠ some b →
    resolveBlock ⟨s, ps⟩ n r b o = ⟨setSlot s n { s.slot n with
      unresolved := (s.slot n).unresolved - 1
      fetched := (s.slot n).fetched.map (fun y => if y.number = some b then
        { y with stage := .resolved, outcome := some o, ackSince := none } else y)
      endBlock := (s.slot n).endBlock.map (fun y => if y.number = some b then
        { y with stage := .resolved, outcome := some o, ackSince := none } else y) }, ps⟩) ∧
  (∀ (s : State) (ps : List Post) (n : SlotIx) (r : Rec) (b : BitVec 32) (o : BlockOutcome),
    let x := if r.stage = .sending then cutBlock s.now (s.slot n) else s.slot n
    let y := modRec b (fun y => { y with stage := .resolved, outcome := some o, ackSince := none }) x
    let a : Act := ⟨setSlot s n { y with unresolved := x.unresolved - 1 }, ps⟩
    let goesOn := closeIfResolved (completeAndEnd a n) n
    (r.length ≠ 0 → resolveBlock ⟨s, ps⟩ n r b o = goesOn) ∧
    (r.length = 0 → r.address = none → o = .ended → resolveBlock ⟨s, ps⟩ n r b o = closeSlot a n .ended false .done) ∧
    (r.length = 0 → r.address ≠ none → (o = .unconfirmed ∨ o = .damaged) → x.state ≠ .draining →
      resolveBlock ⟨s, ps⟩ n r b o = closeSlot a n .peerLost true) ∧
    (r.length = 0 → ¬ (r.address = none ∧ o = .ended) →
      ¬ (r.address ≠ none ∧ (o = .unconfirmed ∨ o = .damaged) ∧ x.state ≠ .draining) →
      resolveBlock ⟨s, ps⟩ n r b o = goesOn)) ∧
  (∀ (a : Act) (n : SlotIx),
    let x := a.s.slot n
    closeIfResolved a n = if x.role = .source ∧ x.state = .draining ∧ x.unresolved = 0 ∧
        (x.drainMode = some .peerLeaving ∨ x.drainMode = some .finishPeerLeaving) then
      closeSlot a n .peerLeaving true else a) ∧
  (∀ (k : Kind) (rx : Rx) (s : State) (tag number : BitVec 16) (d : Nat), Arrives k rx .up s →
    rx.dest.toNat = s.own.val →
    (k = .halt ∧ StreamPayload rx 12 d tag number ∧ d ≤ 1 ∧ beAt rx.payload 8 1 ≤ 1 ∨
      k = .credit ∧ StreamPayload rx 16 d tag number ∧ d = 1 ∧ beAt rx.payload 12 1 ≤ 1 ∨
      k = .blockack ∧ StreamPayload rx 12 d tag number ∧ d = 1 ∧ (ackResultOfCode (beAt rx.payload 8 1)).isSome) →
    (d = 1 → ∀ m, ¬ SourceMatch s rx tag number m) → (d = 0 → ∀ m, ¬ SinkMatch s rx tag number m) →
    Acts (cellCommand k rx) s (sendRouted (unmatchedCounted (heard s rx)) rx.origin
      (ownCell s .close rx.origin.val (closePayload tag number (1 - d) .unmatched))) []) ∧
  (∀ (rx : Rx) (s : State) (tag number : BitVec 16) (d : Nat), Arrives .close rx .up s → rx.dest.toNat = s.own.val →
    StreamPayload rx 12 d tag number → d ≤ 1 → (closeReasonOfCode (beAt rx.payload 8 1)).isSome →
    (d = 1 → ∀ m, ¬ SourceMatch s rx tag number m) → (d = 0 → ∀ m, ¬ SinkMatch s rx tag number m) →
    Acts (.close rx) s (unmatchedCounted (heard s rx)) [])

/-- DATA at the sink it matches (R152, R153): a block already passed is counted STALE, one beyond the credit BEYOND,
one that a halted or stranded sink does not assemble HELD OFF; the next cell of the block in assembly is written into
its buffer at its offset and taken, and nothing else in memory changes, its last cell completing the block DELIVERED
or the stream with END (R154); one that does not fit completes the block DAMAGED, as do the blocks passed over; a
fault leaves memory as it was (log entry 4) and the record FAULTED and halts the slot (R158, log entries 39, 49). A
completed block's BLOCKACK is offered before its record is written (the model's choice, log entry 67). The form of
DATA is spelled; one of unfit form is discarded (inferred, log entry 24). A first cell clears the peer halt flag, and
the slot settles, with cause RESUMED (inferred, log entry 16), before it is judged further (R132); which blocks a
first cell does so for is the model's reading (log entry 18). The CLOSE for an unmatched first cell is not sent where
its destination is UNKNOWN (inferred, log entry 30). An END that a draining sink takes closes it ENDED (log entry 37).
A block is older when it is neither newer nor equal (Conventions). A block that completes is LATE where a limit is set
and its arrival less its timestamp, as a signed count of 64 bits (log entry 27), is above limit × 1000 ns; without its
cell 0 both are 0 (R154). The arrival stamp and the steps since come with the cell (log entry 12). A close also
completes a record whose write faulted in the same act (inferred, log entry 78). -/
def Obligations.DataCell : Prop :=
  (∀ (b : List Byte) (d : DataFields),
    let first := d.index = 0
    let head := if first then 24 else 8
    parseData b = some d ↔ head ≤ b.length ∧ b.length ≤ 256 ∧ beAt b 0 2 = d.tag.toNat ∧ beAt b 2 2 = d.openNumber.toNat ∧
      beAt b 4 1 = 0 ∧ beAt b 5 2 = d.index ∧ d.index ≤ 264 ∧ beAt b 7 1 = flagCode d.last ∧
      d.length = (if first then beAt b 8 4 else 0) ∧ d.timestamp.toNat = (if first then beAt b 12 8 else 0) ∧
      d.quality.toNat = (if first then beAt b 20 1 else 0) ∧ d.quality.toNat ≤ 2 ∧ d.samples = b.drop head) ∧
  (∀ (rx : Rx) (s : State), Arrives .data rx .up s → rx.dest.toNat = s.own.val → parseData rx.payload = none →
    Acts (.data rx) s (heard s rx) []) ∧
  (∀ (rx : Rx) (s : State) (d : DataFields), Arrives .data rx .up s → rx.dest.toNat = s.own.val →
    parseData rx.payload = some d →
    let u := heard s rx
    let b := rx.word
    ((∀ m, ¬ SinkMatch s rx d.tag d.openNumber m) → Acts (.data rx) s
      (if d.index = 0 then sendRouted (unmatchedCounted u) rx.origin
        (ownCell s .close rx.origin.val (closePayload d.tag d.openNumber 1 .unmatched)) else unmatchedCounted u) []) ∧
    (∀ n, Sink s rx d.tag d.openNumber n →
      let x := s.slot n
      let count (g : SlotCounters → SlotCounters) : State := setSlot u n { x with counters := g x.counters }
      let isOlder := b ≠ x.expBlock ∧ newer b x.expBlock = false
      (isOlder → Acts (.data rx) s (count (fun c => { c with stale := c.stale + 1 })) []) ∧
      (¬ isOlder → newer x.creditLimit b = false →
        Acts (.data rx) s (count (fun c => { c with beyond := c.beyond + 1 })) []) ∧
      (¬ isOlder → newer x.creditLimit b = true →
        (d.index ≠ 0 ∨ x.peerHalt = false → Ends (.data rx) s (assembleData ⟨u, []⟩ n b d rx.stamp)) ∧
        (d.index = 0 → x.peerHalt = true → Ends (.data rx) s
          (assembleData (settle ⟨setSlot u n { x with peerHalt := false }, []⟩ n .resumed) n b d rx.stamp))))) ∧
  (∀ (v : State) (ps : List Post) (n : SlotIx) (b : BitVec 32) (d : DataFields) (stamp : Time),
    let x := v.slot n
    let off := (x.state = .halted ∨ x.state = .stranded) ∧ ¬ (0 < x.expCell ∧ b = x.expBlock)
    (off → assembleData ⟨v, ps⟩ n b d stamp =
      ⟨setSlot v n { x with counters := { x.counters with heldOff := x.counters.heldOff + 1 } }, ps⟩) ∧
    (¬ off → b = x.expBlock → assembleData ⟨v, ps⟩ n b d stamp = expectedCell ⟨v, ps⟩ n d stamp) ∧
    (¬ off → b ≠ x.expBlock → assembleData ⟨v, ps⟩ n b d stamp =
      if d.index = 0 then expectedCell (sinkGap n (b - x.expBlock).toNat ⟨v, ps⟩) n d stamp
      else sinkGap n ((b - x.expBlock).toNat + 1) ⟨v, ps⟩)) ∧
  (∀ (v : State) (ps : List Post) (n : SlotIx) (d : DataFields) (stamp : Time),
    let x := v.slot n
    let b := x.expBlock
    let length := if d.index = 0 then d.length else x.asmLength
    let offset := if d.index = 0 then 0 else 232 + 248 * (d.index - 1)
    let carried := if d.index = 0 then min length 232 else min 248 (length - offset)
    let fits := d.index = x.expCell ∧ length ≤ x.blockSize ∧ d.samples.length = carried ∧
      d.last = decide (offset + carried = length)
    let t := expectedCell ⟨v, ps⟩ n d stamp
    (¬ fits → t = closeIfDrained (sinkDamaged ⟨v, ps⟩ n b) n) ∧
    (∀ r, fits → findRec x b = some r → Writable v.mem (r.buffer.toNat + offset) d.samples.length →
      ∃ m, Stored v.mem m (r.buffer.toNat + offset) d.samples ∧
        let w : State := { setSlot v n { modRec b (fun y => { y with
            lengthDone := y.lengthDone + d.samples.length, arrival := stamp
            stage := if d.index = 0 then .assembling else y.stage
            timestamp := if d.index = 0 then d.timestamp else y.timestamp
            quality := if d.index = 0 then d.quality else y.quality }) x with
          expCell := x.expCell + 1, asmLength := length } with mem := m }
        (d.last = false → t = ⟨w, ps⟩) ∧
        (d.last = true → length ≠ 0 → t = closeIfDrained (sinkComplete ⟨w, ps⟩ n b .delivered) n) ∧
        (d.last = true → length = 0 → t = closeSlot (sinkComplete ⟨w, ps⟩ n b .ended) n .ended false)) ∧
    (∀ r e, fits → findRec x b = some r →
      firstFault v.mem.writeFaults (r.buffer.toNat + offset) d.samples.length = some e →
      t = faultHalt ⟨setSlot v n { modRec b (fun y => { y with stage := .faulted }) x with
        expBlock := b + 1, expCell := 0, asmLength := 0
        counters := { x.counters with faults := x.counters.faults + 1 } }, ps ++ [faultPost .bufferWrite e]⟩ n)) ∧
  (∀ (a : Act) (m : SlotIx), sinkGap m 0 a = a ∧
    ∀ k, sinkGap m (k + 1) a = sinkGap m k (sinkDamaged a m (a.s.slot m).expBlock)) ∧
  (∀ (v : State) (ps : List Post) (m : SlotIx) (c : BitVec 32),
    let y := v.slot m
    sinkDamaged ⟨v, ps⟩ m c = sinkComplete (if c = y.expBlock ∧ y.expCell ≠ 0 then ⟨v, ps⟩ else ⟨setSlot v m { y with
      counters := { y.counters with gap := y.counters.gap + 1 } }, ps⟩) m c .damaged) ∧
  (∀ (v : State) (ps : List Post) (m : SlotIx) (c : BitVec 32) (o : BlockOutcome),
    let y := v.slot m
    sinkComplete ⟨v, ps⟩ m c o = (completeHeld ⟨sendAck (setSlot v m { finishRec c o y with
      expBlock := c + 1, expCell := 0, asmLength := 0 }) m c o, ps⟩ m).1) ∧
  (∀ (y : Slot) (c : BitVec 32) (o : BlockOutcome),
    let late (r : Rec) : Bool := decide (y.lateness ≠ 0 ∧ (y.lateness : Int) * 1000 < (r.arrival - r.timestamp).toInt)
    finishRec c o y = { modRec c (fun r => { r with stage := .resolved, outcome := some o, late := late r }) y with
      counters := { y.counters with
        late := if (findRec y c).any late then y.counters.late + 1 else y.counters.late } }) ∧
  (∀ (a : Act) (m : SlotIx),
    let y := a.s.slot m
    closeIfDrained a m = if y.role = .sink ∧ y.state ≠ .closed ∧ y.drain = true ∧ y.expCell = 0 then
      closeSlot a m y.drainCause true else a)

/-- ARBITER_DECISION (R15, R16): the T queue before the C queue before the D participants in turn; the cell taken
leaves its queue and is on the line until its symbols are sent, eight IDLE symbols after it, a TIME with the rack time
at its start, a PROBE held outstanding from it with no steps taken, one still outstanding counted missed (R26), an
ECHO with the time since its PROBE arrived. DATA_CELL_SENT (R151): the line is free, and the block goes on with its
next cell or has been sent; a cell of an opening that its slot no longer has as a source concerns nothing, one of a
block that is not being sent any more adds to its record alone, and with no cell of a slot on the line nothing happens
(log entry 9). The D participants are the relay queue and the source slots with a cell on offer at the port, served in
turn from the one after the last served. The line's timing is the model's choice (log entry 11). Of the first cell of
an unpaced block only the timestamp is written at its start, the quality being that of its offer (inferred, log entry
25). -/
def Obligations.Transmission : Prop :=
  (∀ (s : State) (p : PortIx), s.inReset = false →
    let l := s.link p
    let a := advanceTo s l.gapEnds
    let sends := ((s.port p).state = .up ∨ (s.port p).state = .training ∧ (s.port p).lock = true) ∧
      (l.line.bind (·.src)).isNone = true
    let put (v : State) (turn : Fin 65) (c : Cell) (src : Option LocalCell) : State :=
      let e := a.now + (20 + c.payload.length + 2)
      v.modLink p (fun l => { l with turn := turn, line := some ⟨c, src, e⟩, gapEnds := e + 8 })
    (¬ sends → Acts (.arbiterDecision p) s s []) ∧
    (∀ q rest, sends → l.tQueue = q :: rest → q.cell.kind = .time →
      Acts (.arbiterDecision p) s (put (a.modLink p (fun l => { l with tQueue := rest })) l.turn
        { q.cell with payload := patchBytes q.cell.payload 4 (beBytes 8 a.tb.rackTime.toNat) } none) []) ∧
    (∀ q rest, sends → l.tQueue = q :: rest → q.cell.kind = .probe →
      Acts (.arbiterDecision p) s ((put (a.modLink p (fun l => { l with tQueue := rest })) l.turn q.cell none).modPort p
        (probeDeparts (BitVec.ofNat 8 (beAt q.cell.payload 7 1)) a.tb.rackTime)) []) ∧
    (∀ q rest v, sends → l.tQueue = q :: rest → q.cell.kind = .echo → q.answers = some v →
      Acts (.arbiterDecision p) s (put (a.modLink p (fun l => { l with tQueue := rest })) l.turn
        { q.cell with payload := patchBytes q.cell.payload 4 (beBytes 8 (a.tb.rackTime - v).toNat) } none) []) ∧
    (∀ q rest, sends → l.tQueue = q :: rest → q.cell.kind = .trig →
      Acts (.arbiterDecision p) s (put (a.modLink p (fun l => { l with tQueue := rest })) l.turn q.cell none) []) ∧
    (∀ q rest, sends → l.tQueue = [] → l.cQueue = q :: rest → kindClass q.cell.kind = .cq →
      Acts (.arbiterDecision p) s (put (a.modLink p (fun l => { l with cQueue := rest })) l.turn q.cell none) []) ∧
    (sends → l.tQueue = [] → l.cQueue = [] → match nextParticipant s p with
      | none => Acts (.arbiterDecision p) s s []
      | some (turn, .queue _ q) => ∀ rest, l.dQueue = q :: rest → kindClass q.cell.kind = .dq →
        Acts (.arbiterDecision p) s (put (a.modLink p (fun l => { l with dQueue := rest })) turn q.cell none) []
      | some (turn, .slot n o) =>
        let unpaced := (s.slot n).pace = 0 ∧ beAt o.cell.payload 5 2 = 0
        o.cell.kind = .data →
        Acts (.arbiterDecision p) s (put (setSlot a n { s.slot n with offer := none }) turn
          (if unpaced then { o.cell with payload := patchBytes o.cell.payload 12 (beBytes 8 a.tb.rackTime.toNat) }
            else o.cell) (some o.src)) [])) ∧
  (∀ (number : BitVec 8) (time : Time) (r : Port), probeDeparts number time r = { r with
    outstanding := some ⟨number, time, 0⟩
    missedEchoes := if r.outstanding.isSome then r.missedEchoes + 1 else r.missedEchoes }) ∧
  (∀ (s : State) (p : PortIx), s.inReset = false → (s.link p).line.bind (·.src) = none →
    Acts (.dataCellSent p) s s []) ∧
  (∀ (s : State) (p : PortIx) (c : Cell) (lc : LocalCell) (e : Nat), s.inReset = false →
    (s.link p).line = some ⟨c, some lc, e⟩ →
    let u := (advanceTo s e).modLink p (fun l => { l with line := none })
    let x := s.slot lc.slot
    let sent (y : Rec) : Rec := { y with
      lengthDone := y.lengthDone + lc.bytes
      timestamp := if lc.index = 0 then BitVec.ofNat 64 (beAt c.payload 12 8) else y.timestamp
      quality := if lc.index = 0 then BitVec.ofNat 8 (beAt c.payload 20 1) else y.quality }
    (x.role = .sink ∨ x.state = .closed ∨ x.openNumber ≠ lc.openNumber → Acts (.dataCellSent p) s u []) ∧
    (∀ d, x.role = .source → x.state ≠ .closed → x.openNumber = lc.openNumber → x.sending = some d → d.block = lc.block →
      d.index = lc.index →
      let y := modRec lc.block sent x
      (lc.last = true → Acts (.dataCellSent p) s (setSlot u lc.slot { modRec d.block (fun r => { r with
        stage := .sent, ackSince := some u.now }) y with sending := none, offer := none }) []) ∧
      (lc.last = false → Ends (.dataCellSent p) s
        (offerCell ⟨setSlot u lc.slot y, []⟩ lc.slot { d with index := d.index + 1 } 0))) ∧
    (x.role = .source → x.state ≠ .closed → x.openNumber = lc.openNumber →
      (∀ d, x.sending = some d → d.block ≠ lc.block ∨ d.index ≠ lc.index) →
      Acts (.dataCellSent p) s (setSlot u lc.slot (modRec lc.block sent x)) [])) ∧
  (∀ (s : State) (p : PortIx),
    let l := s.link p
    let has (k : Nat) (g : Grant) : Prop := (k = 0 ∧ ∃ q rest, l.dQueue = q :: rest ∧ g = .queue .dq q) ∨
      (∃ (n : SlotIx) (o : Offer), k = n.val + 1 ∧ (s.slot n).offer = some o ∧ o.port = p ∧ g = .slot n o)
    ((∀ k g, ¬ has k g) → nextParticipant s p = none) ∧
    (∀ (i : Nat) (g : Grant), i < 65 → has ((l.turn.val + 1 + i) % 65) g →
      (∀ j g', j < i → ¬ has ((l.turn.val + 1 + j) % 65) g') →
      ∃ t : Fin 65, t.val = (l.turn.val + 1 + i) % 65 ∧ nextParticipant s p = some (t, g)))

/-- The timers of a stream slot, each at its limit: OPEN every 50 ms and the open limit (R122, R124), the start gate
at its time (R126), CREDIT and HALT every 10 ms (R130, R131), the strand deadline (R134) and the close deadline, by
role and way of draining (R136, R138). What the other units' events do to a slot: it strands when its peer or the own
part is no longer there, its block cut off (R133), returns when all is there again (R134), and closes when its peer is
gone (R135); a leaving peer has it drain (R136), a sink that drains already anew (the model's choice, log entry 79).
An OPEN, CREDIT, HALT, CLOSE or BLOCKACK whose peer is not REACHABLE is counted UNSENT and not sent (R119). The clock
first comes to the limit where it stands before it (the model's choice, log entry 1). That the slots take an event in
ascending order is the model's choice (log entry 66). -/
def Obligations.StreamTimers : Prop :=
  (∀ (s : State) (n : SlotIx), s.inReset = false →
    let x := s.slot n
    let till (t : Nat) : State := advanceTo s t
    (x.state = .opening →
      Acts (.openRepeat n) s (sendOpen (setSlot (till (x.lastOpen + openPeriod)) n
        { x with lastOpen := x.lastOpen + openPeriod }) n) [] ∧
      Ends (.openLimit n) s (closeSlot ⟨till (x.openSince + openLimitTime), []⟩ n .noOffer true .noOffer)) ∧
    (∀ t, x.gate = .atTime t → x.state = .armed → x.gateOpen = false →
      Ends (.startGate n) s (settle ⟨advanceToRack s t, []⟩ n .gate)) ∧
    (x.role = .sink → (x.state = .flowing ∨ x.state = .halted ∨ x.state = .stranded) →
      Acts (.creditPeriod n) s (sendCredit (setSlot (till (x.lastCredit + creditPeriodTime)) n
        { x with lastCredit := x.lastCredit + creditPeriodTime }) n) []) ∧
    (x.role = .source → x.selfHalt = true → x.state ≠ .closed → x.state ≠ .opening →
      Acts (.haltRepeat n) s (sendHalt (setSlot (till (x.lastHalt + haltPeriod)) n
        { x with lastHalt := x.lastHalt + haltPeriod }) n true) []) ∧
    (∀ t, x.state = .stranded → x.strandDeadline = some t →
      Ends (.strandDeadline n) s (closeSlot ⟨till t, []⟩ n .peerLost true)) ∧
    (∀ t, x.closeDeadline = some t →
      (x.role = .source → x.state = .draining → x.drainMode = some .peerLeaving →
        Ends (.closeDeadline n) s (closeSlot ⟨till t, []⟩ n .peerLeaving true)) ∧
      (x.role = .source → x.state = .draining → x.drainMode ≠ some .peerLeaving →
        Ends (.closeDeadline n) s (closeSlot ⟨till t, []⟩ n .peerLost true .unconfirmed)) ∧
      (x.role = .sink → x.drain = true → x.state ≠ .closed →
        Ends (.closeDeadline n) s (closeSlot ⟨till t, []⟩ n x.drainCause true))) ∧
    (∀ (v : State) (r : Route), v.route (v.slot n).peer = some r →
      let y := v.slot n
      sendOpen v n = (let w := offer v r.port ⟨ownCell v .openCell y.peer.val
          (openPayload y.tag y.openNumber y.blockSize y.pace), none⟩
        setSlot w n { y with counters := { y.counters with openSent := y.counters.openSent + 1 } }) ∧
      sendCredit v n = (let w := offer v r.port ⟨ownCell v .credit y.peer.val
          (creditPayload y.tag y.openNumber y.creditLimit y.selfHalt), none⟩
        setSlot w n { y with counters := { y.counters with creditSent := y.counters.creditSent + 1 } }) ∧
      (∀ on, sendHalt v n on = offer v r.port ⟨ownCell v .halt y.peer.val
        (haltPayload y.tag y.openNumber (if y.role = .source then 0 else 1) on), none⟩) ∧
      ∀ b o, sendAck v n b o = offer v r.port ⟨ownCell v .blockack y.peer.val (blockackPayload y.tag y.openNumber o) 0 b,
        none⟩) ∧
    (∀ v : State, v.route (v.slot n).peer = none →
      let y := v.slot n
      let unsent := setSlot v n { y with counters := { y.counters with unsent := y.counters.unsent + 1 } }
      sendOpen v n = unsent ∧ sendCredit v n = unsent ∧ (∀ on, sendHalt v n on = unsent) ∧
      (∀ w, sendClose v n w = unsent) ∧ ∀ b o, sendAck v n b o = unsent)) ∧
  (∀ (s : State) (ps : List Post) (n : SlotIx) (cause : StreamCause),
    let x := s.slot n
    let strands := (x.role = .source ∧ isSettling x.state = true) ∨
      (x.role = .sink ∧ (x.state = .flowing ∨ x.state = .halted) ∧ x.drain = false)
    let runs := (s.entry x.peer).state = .member ∧ (s.route x.peer).isSome = true ∧ s.roster.standing = .member
    (strands → strand ⟨s, ps⟩ n cause = movedSlot s ps n { cutBlock s.now x with
      strandDeadline := some (s.now + 2000000000) } .stranded cause) ∧
    (¬ strands → strand ⟨s, ps⟩ n cause = ⟨s, ps⟩) ∧
    (¬ (x.state = .stranded ∧ runs) → judgeReturn ⟨s, ps⟩ n = ⟨s, ps⟩) ∧
    (x.state = .stranded → runs →
      let a := takeSettled ⟨setSlot s n { x with strandDeadline := none }, ps⟩ n .returned
      judgeReturn ⟨s, ps⟩ n = if x.role = .sink then ⟨sendCredit a.s n, a.posts⟩ else a) ∧
    (x.role = .source → (isSettling x.state = true ∨ x.state = .stranded) → slotPeerLeaving ⟨s, ps⟩ n =
      closeIfResolved (movedSlot s ps n { x with
        strandDeadline := none, closeDeadline := some (s.now + 1000000000), drainMode := some .peerLeaving
        fetchEnded := true } .draining .peerLeaving) n) ∧
    (x.role = .source → x.state = .draining → x.drainMode = some .finish → slotPeerLeaving ⟨s, ps⟩ n =
      closeIfResolved ⟨setSlot s n { x with drainMode := some .finishPeerLeaving }, ps⟩ n) ∧
    (x.role = .source → isSettling x.state = false → x.state ≠ .stranded →
      ¬ (x.state = .draining ∧ x.drainMode = some .finish) → slotPeerLeaving ⟨s, ps⟩ n = ⟨s, ps⟩) ∧
    (x.role = .sink → slotPeerLeaving ⟨s, ps⟩ n =
      if x.state = .flowing ∨ x.state = .halted ∨ x.state = .stranded then drainSink ⟨s, ps⟩ n .peerLeaving
      else ⟨s, ps⟩)) ∧
  (∀ (f : FrameNo) (a : Act),
    let own := allSlots.filter (fun n => (a.s.slot n).peer == f)
    let entry := (a.s.entry f).state
    let standing := a.s.roster.standing
    streamReachLost f a = own.foldl (fun a n => if (a.s.slot n).state = .opening then
      closeSlot a n .unreachable true .unreachable else strand a n .peerUnreachable) a ∧
    streamReachGained f a = allSlots.foldl judgeReturn a ∧
    streamEntryChanged f a = allSlots.foldl judgeReturn (own.foldl (fun a n =>
      let x := a.s.slot n
      if x.state = .opening then
        if entry = .member then a else closeSlot a n .unreachable true .unreachable
      else match entry with
        | .vacant | .refused =>
          if x.state = .closed ∨ x.state = .offered then a else closeSlot a n .peerLost true
        | .leaving => slotPeerLeaving a n
        | .stray | .quarantined => strand a n .peerStray
        | .member => a) a) ∧
    streamStandingChanged a = allSlots.foldl judgeReturn (allSlots.foldl (fun a n =>
      if standing = .member then a
      else if (a.s.slot n).state = .opening then closeSlot a n .notMember true .notMember
      else if standing = .leaving then a
      else strand a n .notMember) a))

/-- The blocks of a slot. BLOCK_RECORD_FETCH (R146, R147): the next record is read whole; one not POSTED stops the
fetch, a fault stops it and halts the slot, any other joins the list, bad ones REJECTED. BLOCK_START (R129): the ready
block of an unpaced source starts: the oldest WAITING record's, or under FINISH the END block once fetching has ended
(R138), in a source that may send, below the credit limit. PACE_POINT (R127): at the point a ready block starts, or a
flowing source counts a miss, and the next point is the first later one. ACKNOWLEDGEMENT_TIMER (R155): a SENT block
resolves UNCONFIRMED. A block is cut into cells, each read from the buffer and offered to the arbiter of its port
(R150, R151); a fault there cuts it off and halts the slot (R158). Held outcomes are written in chain order, the state
DONE last, and each record is counted, released and noticed (R148, R149, R156); a faulted write stops there (R157); a
closing slot's records complete DISCARDED where no outcome is held (R141). A tail's link is read again for its release
(R149), although fetching has ended (inferred, log entry 38), and what is read again is read in the same step (inferred,
log entry 34). A faulting completion write leaves its own run unwritten and the run before it written (the model's
choice, log entry 4). The quality in a first cell is that of its offer (inferred, log entry 25). The clock first comes to
the limit where it stands before it (the model's choice, log entry 1). A command that is not enabled has no effect (log
entry 9). A fault that does not change the slot's state leaves its cause (log entry
49), and an END for a block that is none is completed as given (log entry 50). That a sink's record DISCARDED at a
close has the fields its block had reached is the model's choice (log entry 73). -/
def Obligations.BlockCommands : Prop :=
  (∀ (s : State) (n : SlotIx), s.inReset = false →
    let x := s.slot n
    let fetches := x.state ≠ .closed ∧ x.fetched.length < 16 ∧ x.stop = none ∧ x.fetchEnded = false ∧ s.memOpen = true
    (¬ fetches ∨ x.nextRecord = none → Acts (.blockRecordFetch n) s s []) ∧
    (∀ v, fetches → x.nextRecord = some v →
      let b := bytesIn s.mem v.toNat 48
      (∀ e, firstFault s.mem.readFaults v.toNat 48 = some e → Ends (.blockRecordFetch n) s
        (faultHalt ⟨setSlot s n { x with
          stop := some .memoryFault, counters := { x.counters with faults := x.counters.faults + 1 } },
          [faultPost .blockRecordRead e]⟩ n)) ∧
      (Readable s.mem v.toNat 48 → leAt b 0x14 1 ≠ 1 → Acts (.blockRecordFetch n) s
        (setSlot s n { x with
          stop := some .notPosted
          fetchEnded := decide (x.state = .draining ∧
            (x.drainMode = some .finish ∨ x.drainMode = some .finishPeerLeaving)) }) []) ∧
      (Readable s.mem v.toNat 48 → leAt b 0x14 1 = 1 →
        let y := appendRec v b x
        Ends (.blockRecordFetch n) s (completeAndEnd
          (if y.creditLimit ≠ x.creditLimit ∧
              x.role = .sink ∧ (x.state = .flowing ∨ x.state = .halted ∨ x.state = .stranded)
            then ⟨sendCredit (setSlot s n y) n, []⟩ else ⟨setSlot s n y, []⟩) n) ∧
        (let bad := leAt b 8 8 % 64 ≠ 0 ∨ x.role = .source ∧ x.blockSize < leAt b 0x10 4 ∨
            x.role = .sink ∧ leAt b 0x10 4 < x.blockSize
        (bad → y.nextBlock = x.nextBlock ∧ y.creditLimit = x.creditLimit ∧
          (y.fetched.getLast?.map (fun r => (r.stage, r.outcome, r.number))) = some (.resolved, some .rejected, none)) ∧
        (¬ bad → y.nextBlock = x.nextBlock + 1 ∧
          y.creditLimit = (if x.role = .sink then x.nextBlock + 1 else x.creditLimit) ∧
          (y.fetched.getLast?.map (fun r => (r.stage, r.outcome, r.number))) =
            some (if x.role = .source then .waiting else .credited, none, some x.nextBlock))))) ∧
    (x.pace ≠ 0 ∨ readyBlock s n = none → Acts (.blockStart n) s s []) ∧
    (∀ b, x.pace = 0 → readyBlock s n = some b → Ends (.blockStart n) s (startBlock ⟨s, []⟩ n b 0)) ∧
    (let sync := s.tb.state ≠ .free ∧ s.tb.state ≠ .acquiring
     let finishes := x.state = .draining ∧ x.drainMode = some .finish
     let may := x.role = .source ∧ (x.state = .flowing ∨ finishes ∧ (x.pace = 0 ∨ sync)) ∧ x.selfHalt = false ∧
       x.peerHalt = false ∧ x.sending = none ∧ x.unresolved < 16 ∧ (s.route x.peer).isSome = true
     let next (b : BitVec 32) := x.endStarted = false ∧
       ((∃ r, x.fetched.find? (fun e => decide (e.stage = .waiting)) = some r ∧ r.number = some b) ∨
         (∀ e ∈ x.fetched, e.stage ≠ .waiting) ∧ finishes ∧ x.fetchEnded = true ∧ b = x.nextBlock)
     ∀ b, readyBlock s n = some b ↔ may ∧ next b ∧ newer x.creditLimit b = true) ∧
    (x.role = .source → x.state ≠ .closed → x.gateOpen = true → x.pace ≠ 0 →
      let point : Time := x.startTime + BitVec.ofNat 64 (x.nextPace * x.pace)
      let a := advanceToRack s point
      let next (v : Act) : Act :=
        ⟨v.s.modSlot n (fun y => { y with nextPace := indexAfter y v.s.tb.rackTime }), v.posts⟩
      (∀ b, readyBlock a n = some b → Ends (.pacePoint n) s (next (startBlock ⟨a, []⟩ n b point))) ∧
      (readyBlock a n = none → Ends (.pacePoint n) s (next ⟨if x.state = .flowing then setSlot a n { x with
        counters := { x.counters with missedPace := x.counters.missedPace + 1 } } else a, []⟩))) ∧
    (∀ (b : BitVec 32) (r : Rec) (t : Nat), findRec x b = some r → r.stage = .sent → r.ackSince = some t →
      Ends (.acknowledgementTimer n b) s (resolveBlock ⟨advanceTo s (t + ackTime), []⟩ n r b .unconfirmed))) ∧
  (∀ (x : Slot) (t : Time), x.pace ≠ 0 →
    let k := indexAfter x t
    t.toNat < x.startTime.toNat + k * x.pace ∧ ∀ j, j < k → x.startTime.toNat + j * x.pace ≤ t.toNat) ∧
  (∀ c : SlotCounters,
    countOutcome c .delivered = { c with delivered := c.delivered + 1 } ∧
    countOutcome c .damaged = { c with damaged := c.damaged + 1 } ∧
    countOutcome c .unconfirmed = { c with unconfirmed := c.unconfirmed + 1 } ∧
    countOutcome c .discarded = { c with discarded := c.discarded + 1 } ∧
    countOutcome c .rejected = { c with rejected := c.rejected + 1 } ∧
    countOutcome c .ended = { c with ended := c.ended + 1 }) ∧
  (∀ (v : BitVec 64) (b : List Byte) (x : Slot), x.fetched.length < 16 →
    let y := appendRec v b x
    let link := leAt b 0 8
    let finishing := x.state = .draining ∧ (x.drainMode = some .finish ∨ x.drainMode = some .finishPeerLeaving)
    (∃ e, y.fetched = x.fetched ++ [e] ∧ e.address = some v ∧ e.linked = decide (link ≠ 0) ∧
      e.buffer = BitVec.ofNat 64 (leAt b 8 8) ∧ e.length = leAt b 0x10 4 ∧ e.lengthDone = 0 ∧ e.timestamp = 0 ∧
      e.quality = 0 ∧ e.arrival = 0 ∧ e.late = false ∧ e.cutOff = false ∧ e.ackSince = none ∧
      y.lastRecord = some ⟨v, decide (link = 0), false, e.number⟩) ∧
    (link ≠ 0 → y.nextRecord = some (BitVec.ofNat 64 link) ∧ y.stop = x.stop ∧ y.fetchEnded = x.fetchEnded) ∧
    (link = 0 → y.nextRecord = none ∧ y.stop = some .tail ∧
      (y.fetchEnded = true ↔ x.fetchEnded = true ∨ finishing))) ∧
  (∀ (s : State) (ps : List Post) (n : SlotIx) (b : BitVec 32) (time : Time) (r : Route),
    s.route (s.slot n).peer = some r →
    let x := s.slot n
    let host := x.fetched.any (fun e => e.number == some b)
    let made : Rec := { address := none, linked := false, number := some b, stage := .waiting, outcome := none
                        buffer := 0, length := 0, lengthDone := 0, timestamp := 0, quality := 0, arrival := 0
                        late := false, cutOff := false, ackSince := none }
    let y : Slot := modRec b (fun e => { e with stage := .sending })
      (if host then x else { x with endBlock := some made, nextBlock := x.nextBlock + 1 })
    startBlock ⟨s, ps⟩ n b time = offerCell ⟨setSlot s n { y with
      unresolved := x.unresolved + 1, sending := some ⟨b, 0, r.port⟩
      endStarted := x.endStarted || ((findRec y b).map (·.length) == some 0)
      counters := { x.counters with blocksStarted := x.counters.blocksStarted + 1 } }, ps⟩ n ⟨b, 0, r.port⟩ time) ∧
  (∀ (s : State) (ps : List Post) (n : SlotIx) (d : Sending) (time : Time) (r : Rec),
    findRec (s.slot n) d.block = some r →
    let x := s.slot n
    let offset := if d.index = 0 then 0 else 232 + 248 * (d.index - 1)
    let count := if d.index = 0 then min r.length 232 else min 248 (r.length - offset)
    let last := decide (offset + count = r.length)
    let head := dataHead x.tag x.openNumber d.index last ++
      (if d.index = 0 then dataBlockHead r.length time (quality s) else [])
    let at' := r.buffer.toNat + offset
    (Readable s.mem at' count → offerCell ⟨s, ps⟩ n d time = ⟨setSlot s n { x with
      sending := some d
      offer := some ⟨ownCell s .data x.peer.val (head ++ bytesIn s.mem at' count) 0 d.block, d.port,
        ⟨n, x.openNumber, d.block, d.index, count, last⟩⟩ }, ps⟩) ∧
    (∀ e, firstFault s.mem.readFaults at' count = some e →
      let y := cutBlock s.now x
      offerCell ⟨s, ps⟩ n d time = faultHalt ⟨setSlot s n { y with
        counters := { y.counters with faults := y.counters.faults + 1 } }, ps ++ [faultPost .bufferRead e]⟩ n)) ∧
  (∀ (s : State) (ps : List Post) (n : SlotIx),
    let x := s.slot n
    let stays := x.state = .offered ∨ x.state = .opening ∨ x.state = .closed ∨ x.selfHalt = true
    (stays → faultHalt ⟨s, ps⟩ n = ⟨s, ps⟩) ∧
    (¬ stays → faultHalt ⟨s, ps⟩ n = settle ⟨sendHalt (setSlot s n { x with selfHalt := true, lastHalt := s.now }) n true,
      ps⟩ n .memoryFault)) ∧
  (∀ (s : State) (ps : List Post) (n : SlotIx) (r : Rec) (rest : List Rec) (ad : BitVec 64),
    (s.slot n).fetched = r :: rest → r.address = some ad →
    let x := s.slot n
    let fields := leBytes 1 (flagCode r.late + 2 * flagCode r.cutOff) ++ leBytes 1 r.quality.toNat ++
      leBytes 4 r.lengthDone ++ leBytes 4 (r.number.elim 0 (·.toNat)) ++ leBytes 8 r.timestamp.toNat ++
      (if x.role = .source then [] else leBytes 8 r.arrival.toNat)
    let size := 2 + fields.length
    let doneOf (m : Memory) (o : BlockOutcome) : State := { setSlot s n { x with
      fetched := rest, doneCount := x.doneCount + 1, sinceNotice := x.sinceNotice + 1
      counters := countOutcome x.counters o
      lastRecord := x.lastRecord.map (fun l => if l.address = ad then { l with done := true } else l)
      released := if r.linked then x.released + 1 else x.released
      releaseMark := if r.linked then r.number.getD x.releaseMark else x.releaseMark } with mem := m }
    let exceptional (o : BlockOutcome) : Bool := o = .damaged ∨ o = .unconfirmed ∨ o = .discarded ∨ o = .rejected
    (∀ k run, r.outcome = none → completeRun n (k + 1) ⟨s, ps⟩ run = (⟨s, ps⟩, run)) ∧
    (∀ o, Writable s.mem (ad.toNat + 0x14) size →
      ∃ m, Stored s.mem m (ad.toNat + 0x14) (leBytes 1 2 ++ leBytes 1 (blockOutcomeCode o) ++ fields) ∧
        (∀ k run, r.outcome = some o → completeRun n (k + 1) ⟨s, ps⟩ run = completeRun n k ⟨doneOf m o, ps⟩
          ⟨run.exceptional || exceptional o, run.ended || (decide (o = .ended) && decide (r.length = 0)), true⟩) ∧
        (∀ k, r.outcome.getD .discarded = o → completeAll n (k + 1) ⟨s, ps⟩ = completeAll n k ⟨doneOf m o, ps⟩)) ∧
    let stops (m : Memory) (e : Nat) : Prop :=
      let faulted := { x.counters with faults := x.counters.faults + 1 }
      let ps' := ps ++ [faultPost .blockRecordWrite e]
      (∀ k run, r.outcome.isSome = true → completeRun n (k + 1) ⟨s, ps⟩ run =
        (faultHalt ⟨{ setSlot s n { x with writeStop := true, counters := faulted } with mem := m }, ps'⟩ n, run)) ∧
      ∀ k, completeAll n (k + 1) ⟨s, ps⟩ = ⟨{ setSlot s n { x with counters := faulted } with mem := m }, ps'⟩
    (∀ e, firstFault s.mem.writeFaults (ad.toNat + 0x15) (size - 1) = some e → stops s.mem e) ∧
    (∀ e, Writable s.mem (ad.toNat + 0x15) (size - 1) → firstFault s.mem.writeFaults (ad.toNat + 0x14) 1 = some e →
      ∃ m, Stored s.mem m (ad.toNat + 0x15) (leBytes 1 (blockOutcomeCode (r.outcome.getD .discarded)) ++ fields) ∧
        stops m e)) ∧
  (∀ (a : Act) (n : SlotIx),
    let x := a.s.slot n
    let q := completeRun n x.fetched.length a ⟨false, false, false⟩
    let y := q.1.s.slot n
    let noticed := q.2.exceptional = true ∨ q.2.any = true ∧
      (q.1.posts.contains (.notice (.streams (bit 64 n.val))) = true ∨ y.interval ≤ y.sinceNotice)
    (∀ run k, x.fetched = [] → completeRun n k a run = (a, run) ∧ completeAll n k a = a) ∧
    (x.writeStop = true → completeHeld a n = (a, false)) ∧
    (x.writeStop = false → noticed →
      completeHeld a n = (⟨setSlot q.1.s n { y with sinceNotice := 0 }, slotPosts q.1.posts n⟩, q.2.ended)) ∧
    (x.writeStop = false → ¬ noticed → completeHeld a n = (q.1, q.2.ended)) ∧
    let h := completeHeld a n
    completeAndEnd a n = if h.2 = true ∧ (h.1.s.slot n).role = .source then closeSlot h.1 n .ended false .done else h.1) ∧
  (∀ (s : State) (ps : List Post) (n : SlotIx),
    let x := s.slot n
    (x.stop = none → retryStop ⟨s, ps⟩ n = ⟨s, ps⟩) ∧
    (x.stop = some .tail → retryStop ⟨s, ps⟩ n = rereadLink ⟨s, ps⟩ n) ∧
    (∀ f, x.stop = some f → f ≠ .tail →
      (∀ v, x.nextRecord = some v → retryStop ⟨s, ps⟩ n =
        if x.fetchEnded then ⟨s, ps⟩ else fetchRecord ⟨setSlot s n { x with stop := none }, ps⟩ n v) ∧
      (x.nextRecord = none → retryStop ⟨s, ps⟩ n = rereadLink ⟨s, ps⟩ n)) ∧
    (x.lastRecord = none → rereadLink ⟨s, ps⟩ n = ⟨s, ps⟩) ∧
    (∀ l, x.lastRecord = some l →
      let link := leNat (bytesIn s.mem l.address.toNat 8)
      (Readable s.mem l.address.toNat 8 → link = 0 →
        rereadLink ⟨s, ps⟩ n = ⟨setSlot s n { x with
          stop := some .tail
          fetchEnded := x.fetchEnded || decide (x.state = .draining ∧
            (x.drainMode = some .finish ∨ x.drainMode = some .finishPeerLeaving)) }, ps⟩) ∧
      (Readable s.mem l.address.toNat 8 → link ≠ 0 →
        rereadLink ⟨s, ps⟩ n = ⟨setSlot s n { x with
          stop := none, nextRecord := some (BitVec.ofNat 64 link), lastRecord := some { l with linkZero := false }
          fetched := x.fetched.map (fun r => if r.address = some l.address then { r with linked := true } else r)
          released := if l.done then x.released + 1 else x.released
          releaseMark := if l.done then l.number.getD x.releaseMark else x.releaseMark },
          if l.done then ps ++ [.status n] else ps⟩) ∧
      (∀ e, firstFault s.mem.readFaults l.address.toNat 8 = some e →
        rereadLink ⟨s, ps⟩ n = faultHalt ⟨setSlot s n { x with
          stop := some .memoryFault, counters := { x.counters with faults := x.counters.faults + 1 } },
          ps ++ [faultPost .blockRecordRead e]⟩ n)))
end

