-- ==== Sys2Proof/Laws/State.lean ====
section
/-! SUPPORT. One lemma for each field and each update of State: the field an update changes has the value given, every
other field keeps its own. The same for an act in progress, and the read of an updated table. -/

namespace Sys2Proof.Machine

/-! ## Tables -/

theorem get_upd_same {α : Type} {n : Nat} (v : Vector α n) (i : Fin n) (f : α → α) : (upd v i f).get i = f (v.get i) := by
  simp only [upd, Vector.get]
  exact Vector.getElem_set_self i.isLt

theorem get_upd_other {α : Type} {n : Nat} (v : Vector α n) (i j : Fin n) (f : α → α) (h : j ≠ i) :
    (upd v i f).get j = v.get j := by
  have h' : i.val ≠ j.val := fun e => h (Fin.ext e.symm)
  simp only [upd, Vector.get]
  exact Vector.getElem_set_ne i.isLt j.isLt h'

theorem get_upd {α : Type} {n : Nat} (v : Vector α n) (i j : Fin n) (f : α → α) :
    (upd v i f).get j = if j = i then f (v.get i) else v.get j := by
  by_cases h : j = i
  · subst h; simp [get_upd_same]
  · simp [h, get_upd_other]

/-! ## Updates of State -/

@[simp] theorem modPort_inReset (s : State) (p : PortIx) (f : Port → Port) : (s.modPort p f).inReset = s.inReset := rfl

@[simp] theorem modPort_now (s : State) (p : PortIx) (f : Port → Port) : (s.modPort p f).now = s.now := rfl

@[simp] theorem modPort_choices (s : State) (p : PortIx) (f : Port → Port) : (s.modPort p f).choices = s.choices := rfl

@[simp] theorem modPort_store (s : State) (p : PortIx) (f : Port → Port) : (s.modPort p f).store = s.store := rfl

@[simp] theorem modPort_ports (s : State) (p : PortIx) (f : Port → Port) : (s.modPort p f).ports = upd s.ports p f := rfl

@[simp] theorem modPort_links (s : State) (p : PortIx) (f : Port → Port) : (s.modPort p f).links = s.links := rfl

@[simp] theorem modPort_flood (s : State) (p : PortIx) (f : Port → Port) : (s.modPort p f).flood = s.flood := rfl

@[simp] theorem modPort_reach (s : State) (p : PortIx) (f : Port → Port) : (s.modPort p f).reach = s.reach := rfl

@[simp] theorem modPort_roster (s : State) (p : PortIx) (f : Port → Port) : (s.modPort p f).roster = s.roster := rfl

@[simp] theorem modPort_tb (s : State) (p : PortIx) (f : Port → Port) : (s.modPort p f).tb = s.tb := rfl

@[simp] theorem modPort_trig (s : State) (p : PortIx) (f : Port → Port) : (s.modPort p f).trig = s.trig := rfl

@[simp] theorem modPort_stream (s : State) (p : PortIx) (f : Port → Port) : (s.modPort p f).stream = s.stream := rfl

@[simp] theorem modPort_ex (s : State) (p : PortIx) (f : Port → Port) : (s.modPort p f).ex = s.ex := rfl

@[simp] theorem modPort_notes (s : State) (p : PortIx) (f : Port → Port) : (s.modPort p f).notes = s.notes := rfl

@[simp] theorem modPort_mem (s : State) (p : PortIx) (f : Port → Port) : (s.modPort p f).mem = s.mem := rfl

@[simp] theorem modPort_pending (s : State) (p : PortIx) (f : Port → Port) : (s.modPort p f).pending = s.pending := rfl

@[simp] theorem modLink_inReset (s : State) (p : PortIx) (f : Link → Link) : (s.modLink p f).inReset = s.inReset := rfl

@[simp] theorem modLink_now (s : State) (p : PortIx) (f : Link → Link) : (s.modLink p f).now = s.now := rfl

@[simp] theorem modLink_choices (s : State) (p : PortIx) (f : Link → Link) : (s.modLink p f).choices = s.choices := rfl

@[simp] theorem modLink_store (s : State) (p : PortIx) (f : Link → Link) : (s.modLink p f).store = s.store := rfl

@[simp] theorem modLink_ports (s : State) (p : PortIx) (f : Link → Link) : (s.modLink p f).ports = s.ports := rfl

@[simp] theorem modLink_links (s : State) (p : PortIx) (f : Link → Link) : (s.modLink p f).links = upd s.links p f := rfl

@[simp] theorem modLink_flood (s : State) (p : PortIx) (f : Link → Link) : (s.modLink p f).flood = s.flood := rfl

@[simp] theorem modLink_reach (s : State) (p : PortIx) (f : Link → Link) : (s.modLink p f).reach = s.reach := rfl

@[simp] theorem modLink_roster (s : State) (p : PortIx) (f : Link → Link) : (s.modLink p f).roster = s.roster := rfl

@[simp] theorem modLink_tb (s : State) (p : PortIx) (f : Link → Link) : (s.modLink p f).tb = s.tb := rfl

@[simp] theorem modLink_trig (s : State) (p : PortIx) (f : Link → Link) : (s.modLink p f).trig = s.trig := rfl

@[simp] theorem modLink_stream (s : State) (p : PortIx) (f : Link → Link) : (s.modLink p f).stream = s.stream := rfl

@[simp] theorem modLink_ex (s : State) (p : PortIx) (f : Link → Link) : (s.modLink p f).ex = s.ex := rfl

@[simp] theorem modLink_notes (s : State) (p : PortIx) (f : Link → Link) : (s.modLink p f).notes = s.notes := rfl

@[simp] theorem modLink_mem (s : State) (p : PortIx) (f : Link → Link) : (s.modLink p f).mem = s.mem := rfl

@[simp] theorem modLink_pending (s : State) (p : PortIx) (f : Link → Link) : (s.modLink p f).pending = s.pending := rfl

@[simp] theorem modSlot_inReset (s : State) (n : SlotIx) (f : Slot → Slot) : (s.modSlot n f).inReset = s.inReset := rfl

@[simp] theorem modSlot_now (s : State) (n : SlotIx) (f : Slot → Slot) : (s.modSlot n f).now = s.now := rfl

@[simp] theorem modSlot_choices (s : State) (n : SlotIx) (f : Slot → Slot) : (s.modSlot n f).choices = s.choices := rfl

@[simp] theorem modSlot_store (s : State) (n : SlotIx) (f : Slot → Slot) : (s.modSlot n f).store = s.store := rfl

@[simp] theorem modSlot_ports (s : State) (n : SlotIx) (f : Slot → Slot) : (s.modSlot n f).ports = s.ports := rfl

@[simp] theorem modSlot_links (s : State) (n : SlotIx) (f : Slot → Slot) : (s.modSlot n f).links = s.links := rfl

@[simp] theorem modSlot_flood (s : State) (n : SlotIx) (f : Slot → Slot) : (s.modSlot n f).flood = s.flood := rfl

@[simp] theorem modSlot_reach (s : State) (n : SlotIx) (f : Slot → Slot) : (s.modSlot n f).reach = s.reach := rfl

@[simp] theorem modSlot_roster (s : State) (n : SlotIx) (f : Slot → Slot) : (s.modSlot n f).roster = s.roster := rfl

@[simp] theorem modSlot_tb (s : State) (n : SlotIx) (f : Slot → Slot) : (s.modSlot n f).tb = s.tb := rfl

@[simp] theorem modSlot_trig (s : State) (n : SlotIx) (f : Slot → Slot) : (s.modSlot n f).trig = s.trig := rfl

@[simp] theorem modSlot_ex (s : State) (n : SlotIx) (f : Slot → Slot) : (s.modSlot n f).ex = s.ex := rfl

@[simp] theorem modSlot_notes (s : State) (n : SlotIx) (f : Slot → Slot) : (s.modSlot n f).notes = s.notes := rfl

@[simp] theorem modSlot_mem (s : State) (n : SlotIx) (f : Slot → Slot) : (s.modSlot n f).mem = s.mem := rfl

@[simp] theorem modSlot_pending (s : State) (n : SlotIx) (f : Slot → Slot) : (s.modSlot n f).pending = s.pending := rfl

@[simp] theorem modEntry_inReset (s : State) (k : FrameNo) (f : RosterEntry → RosterEntry) : (s.modEntry k f).inReset = s.inReset := rfl

@[simp] theorem modEntry_now (s : State) (k : FrameNo) (f : RosterEntry → RosterEntry) : (s.modEntry k f).now = s.now := rfl

@[simp] theorem modEntry_choices (s : State) (k : FrameNo) (f : RosterEntry → RosterEntry) : (s.modEntry k f).choices = s.choices := rfl

@[simp] theorem modEntry_store (s : State) (k : FrameNo) (f : RosterEntry → RosterEntry) : (s.modEntry k f).store = s.store := rfl

@[simp] theorem modEntry_ports (s : State) (k : FrameNo) (f : RosterEntry → RosterEntry) : (s.modEntry k f).ports = s.ports := rfl

@[simp] theorem modEntry_links (s : State) (k : FrameNo) (f : RosterEntry → RosterEntry) : (s.modEntry k f).links = s.links := rfl

@[simp] theorem modEntry_flood (s : State) (k : FrameNo) (f : RosterEntry → RosterEntry) : (s.modEntry k f).flood = s.flood := rfl

@[simp] theorem modEntry_reach (s : State) (k : FrameNo) (f : RosterEntry → RosterEntry) : (s.modEntry k f).reach = s.reach := rfl

@[simp] theorem modEntry_tb (s : State) (k : FrameNo) (f : RosterEntry → RosterEntry) : (s.modEntry k f).tb = s.tb := rfl

@[simp] theorem modEntry_trig (s : State) (k : FrameNo) (f : RosterEntry → RosterEntry) : (s.modEntry k f).trig = s.trig := rfl

@[simp] theorem modEntry_stream (s : State) (k : FrameNo) (f : RosterEntry → RosterEntry) : (s.modEntry k f).stream = s.stream := rfl

@[simp] theorem modEntry_ex (s : State) (k : FrameNo) (f : RosterEntry → RosterEntry) : (s.modEntry k f).ex = s.ex := rfl

@[simp] theorem modEntry_notes (s : State) (k : FrameNo) (f : RosterEntry → RosterEntry) : (s.modEntry k f).notes = s.notes := rfl

@[simp] theorem modEntry_mem (s : State) (k : FrameNo) (f : RosterEntry → RosterEntry) : (s.modEntry k f).mem = s.mem := rfl

@[simp] theorem modEntry_pending (s : State) (k : FrameNo) (f : RosterEntry → RosterEntry) : (s.modEntry k f).pending = s.pending := rfl

@[simp] theorem modLane_inReset (s : State) (k : LaneIx) (f : Lane → Lane) : (s.modLane k f).inReset = s.inReset := rfl

@[simp] theorem modLane_now (s : State) (k : LaneIx) (f : Lane → Lane) : (s.modLane k f).now = s.now := rfl

@[simp] theorem modLane_choices (s : State) (k : LaneIx) (f : Lane → Lane) : (s.modLane k f).choices = s.choices := rfl

@[simp] theorem modLane_store (s : State) (k : LaneIx) (f : Lane → Lane) : (s.modLane k f).store = s.store := rfl

@[simp] theorem modLane_ports (s : State) (k : LaneIx) (f : Lane → Lane) : (s.modLane k f).ports = s.ports := rfl

@[simp] theorem modLane_links (s : State) (k : LaneIx) (f : Lane → Lane) : (s.modLane k f).links = s.links := rfl

@[simp] theorem modLane_flood (s : State) (k : LaneIx) (f : Lane → Lane) : (s.modLane k f).flood = s.flood := rfl

@[simp] theorem modLane_reach (s : State) (k : LaneIx) (f : Lane → Lane) : (s.modLane k f).reach = s.reach := rfl

@[simp] theorem modLane_roster (s : State) (k : LaneIx) (f : Lane → Lane) : (s.modLane k f).roster = s.roster := rfl

@[simp] theorem modLane_tb (s : State) (k : LaneIx) (f : Lane → Lane) : (s.modLane k f).tb = s.tb := rfl

@[simp] theorem modLane_stream (s : State) (k : LaneIx) (f : Lane → Lane) : (s.modLane k f).stream = s.stream := rfl

@[simp] theorem modLane_ex (s : State) (k : LaneIx) (f : Lane → Lane) : (s.modLane k f).ex = s.ex := rfl

@[simp] theorem modLane_notes (s : State) (k : LaneIx) (f : Lane → Lane) : (s.modLane k f).notes = s.notes := rfl

@[simp] theorem modLane_mem (s : State) (k : LaneIx) (f : Lane → Lane) : (s.modLane k f).mem = s.mem := rfl

@[simp] theorem modLane_pending (s : State) (k : LaneIx) (f : Lane → Lane) : (s.modLane k f).pending = s.pending := rfl

@[simp] theorem modRoster_inReset (s : State) (f : Roster → Roster) : (s.modRoster f).inReset = s.inReset := rfl

@[simp] theorem modRoster_now (s : State) (f : Roster → Roster) : (s.modRoster f).now = s.now := rfl

@[simp] theorem modRoster_choices (s : State) (f : Roster → Roster) : (s.modRoster f).choices = s.choices := rfl

@[simp] theorem modRoster_store (s : State) (f : Roster → Roster) : (s.modRoster f).store = s.store := rfl

@[simp] theorem modRoster_ports (s : State) (f : Roster → Roster) : (s.modRoster f).ports = s.ports := rfl

@[simp] theorem modRoster_links (s : State) (f : Roster → Roster) : (s.modRoster f).links = s.links := rfl

@[simp] theorem modRoster_flood (s : State) (f : Roster → Roster) : (s.modRoster f).flood = s.flood := rfl

@[simp] theorem modRoster_reach (s : State) (f : Roster → Roster) : (s.modRoster f).reach = s.reach := rfl

@[simp] theorem modRoster_roster (s : State) (f : Roster → Roster) : (s.modRoster f).roster = f s.roster := rfl

@[simp] theorem modRoster_tb (s : State) (f : Roster → Roster) : (s.modRoster f).tb = s.tb := rfl

@[simp] theorem modRoster_trig (s : State) (f : Roster → Roster) : (s.modRoster f).trig = s.trig := rfl

@[simp] theorem modRoster_stream (s : State) (f : Roster → Roster) : (s.modRoster f).stream = s.stream := rfl

@[simp] theorem modRoster_ex (s : State) (f : Roster → Roster) : (s.modRoster f).ex = s.ex := rfl

@[simp] theorem modRoster_notes (s : State) (f : Roster → Roster) : (s.modRoster f).notes = s.notes := rfl

@[simp] theorem modRoster_mem (s : State) (f : Roster → Roster) : (s.modRoster f).mem = s.mem := rfl

@[simp] theorem modRoster_pending (s : State) (f : Roster → Roster) : (s.modRoster f).pending = s.pending := rfl

@[simp] theorem modTb_inReset (s : State) (f : Timebase → Timebase) : (s.modTb f).inReset = s.inReset := rfl

@[simp] theorem modTb_now (s : State) (f : Timebase → Timebase) : (s.modTb f).now = s.now := rfl

@[simp] theorem modTb_choices (s : State) (f : Timebase → Timebase) : (s.modTb f).choices = s.choices := rfl

@[simp] theorem modTb_store (s : State) (f : Timebase → Timebase) : (s.modTb f).store = s.store := rfl

@[simp] theorem modTb_ports (s : State) (f : Timebase → Timebase) : (s.modTb f).ports = s.ports := rfl

@[simp] theorem modTb_links (s : State) (f : Timebase → Timebase) : (s.modTb f).links = s.links := rfl

@[simp] theorem modTb_flood (s : State) (f : Timebase → Timebase) : (s.modTb f).flood = s.flood := rfl

@[simp] theorem modTb_reach (s : State) (f : Timebase → Timebase) : (s.modTb f).reach = s.reach := rfl

@[simp] theorem modTb_roster (s : State) (f : Timebase → Timebase) : (s.modTb f).roster = s.roster := rfl

@[simp] theorem modTb_tb (s : State) (f : Timebase → Timebase) : (s.modTb f).tb = f s.tb := rfl

@[simp] theorem modTb_trig (s : State) (f : Timebase → Timebase) : (s.modTb f).trig = s.trig := rfl

@[simp] theorem modTb_stream (s : State) (f : Timebase → Timebase) : (s.modTb f).stream = s.stream := rfl

@[simp] theorem modTb_ex (s : State) (f : Timebase → Timebase) : (s.modTb f).ex = s.ex := rfl

@[simp] theorem modTb_notes (s : State) (f : Timebase → Timebase) : (s.modTb f).notes = s.notes := rfl

@[simp] theorem modTb_mem (s : State) (f : Timebase → Timebase) : (s.modTb f).mem = s.mem := rfl

@[simp] theorem modTb_pending (s : State) (f : Timebase → Timebase) : (s.modTb f).pending = s.pending := rfl

@[simp] theorem modReach_inReset (s : State) (f : Reach → Reach) : (s.modReach f).inReset = s.inReset := rfl

@[simp] theorem modReach_now (s : State) (f : Reach → Reach) : (s.modReach f).now = s.now := rfl

@[simp] theorem modReach_choices (s : State) (f : Reach → Reach) : (s.modReach f).choices = s.choices := rfl

@[simp] theorem modReach_store (s : State) (f : Reach → Reach) : (s.modReach f).store = s.store := rfl

@[simp] theorem modReach_ports (s : State) (f : Reach → Reach) : (s.modReach f).ports = s.ports := rfl

@[simp] theorem modReach_links (s : State) (f : Reach → Reach) : (s.modReach f).links = s.links := rfl

@[simp] theorem modReach_flood (s : State) (f : Reach → Reach) : (s.modReach f).flood = s.flood := rfl

@[simp] theorem modReach_reach (s : State) (f : Reach → Reach) : (s.modReach f).reach = f s.reach := rfl

@[simp] theorem modReach_roster (s : State) (f : Reach → Reach) : (s.modReach f).roster = s.roster := rfl

@[simp] theorem modReach_tb (s : State) (f : Reach → Reach) : (s.modReach f).tb = s.tb := rfl

@[simp] theorem modReach_trig (s : State) (f : Reach → Reach) : (s.modReach f).trig = s.trig := rfl

@[simp] theorem modReach_stream (s : State) (f : Reach → Reach) : (s.modReach f).stream = s.stream := rfl

@[simp] theorem modReach_ex (s : State) (f : Reach → Reach) : (s.modReach f).ex = s.ex := rfl

@[simp] theorem modReach_notes (s : State) (f : Reach → Reach) : (s.modReach f).notes = s.notes := rfl

@[simp] theorem modReach_mem (s : State) (f : Reach → Reach) : (s.modReach f).mem = s.mem := rfl

@[simp] theorem modReach_pending (s : State) (f : Reach → Reach) : (s.modReach f).pending = s.pending := rfl

@[simp] theorem modTrig_inReset (s : State) (f : TriggerUnit → TriggerUnit) : (s.modTrig f).inReset = s.inReset := rfl

@[simp] theorem modTrig_now (s : State) (f : TriggerUnit → TriggerUnit) : (s.modTrig f).now = s.now := rfl

@[simp] theorem modTrig_choices (s : State) (f : TriggerUnit → TriggerUnit) : (s.modTrig f).choices = s.choices := rfl

@[simp] theorem modTrig_store (s : State) (f : TriggerUnit → TriggerUnit) : (s.modTrig f).store = s.store := rfl

@[simp] theorem modTrig_ports (s : State) (f : TriggerUnit → TriggerUnit) : (s.modTrig f).ports = s.ports := rfl

@[simp] theorem modTrig_links (s : State) (f : TriggerUnit → TriggerUnit) : (s.modTrig f).links = s.links := rfl

@[simp] theorem modTrig_flood (s : State) (f : TriggerUnit → TriggerUnit) : (s.modTrig f).flood = s.flood := rfl

@[simp] theorem modTrig_reach (s : State) (f : TriggerUnit → TriggerUnit) : (s.modTrig f).reach = s.reach := rfl

@[simp] theorem modTrig_roster (s : State) (f : TriggerUnit → TriggerUnit) : (s.modTrig f).roster = s.roster := rfl

@[simp] theorem modTrig_tb (s : State) (f : TriggerUnit → TriggerUnit) : (s.modTrig f).tb = s.tb := rfl

@[simp] theorem modTrig_trig (s : State) (f : TriggerUnit → TriggerUnit) : (s.modTrig f).trig = f s.trig := rfl

@[simp] theorem modTrig_stream (s : State) (f : TriggerUnit → TriggerUnit) : (s.modTrig f).stream = s.stream := rfl

@[simp] theorem modTrig_ex (s : State) (f : TriggerUnit → TriggerUnit) : (s.modTrig f).ex = s.ex := rfl

@[simp] theorem modTrig_notes (s : State) (f : TriggerUnit → TriggerUnit) : (s.modTrig f).notes = s.notes := rfl

@[simp] theorem modTrig_mem (s : State) (f : TriggerUnit → TriggerUnit) : (s.modTrig f).mem = s.mem := rfl

@[simp] theorem modTrig_pending (s : State) (f : TriggerUnit → TriggerUnit) : (s.modTrig f).pending = s.pending := rfl

@[simp] theorem modEx_inReset (s : State) (f : Exchange → Exchange) : (s.modEx f).inReset = s.inReset := rfl

@[simp] theorem modEx_now (s : State) (f : Exchange → Exchange) : (s.modEx f).now = s.now := rfl

@[simp] theorem modEx_choices (s : State) (f : Exchange → Exchange) : (s.modEx f).choices = s.choices := rfl

@[simp] theorem modEx_store (s : State) (f : Exchange → Exchange) : (s.modEx f).store = s.store := rfl

@[simp] theorem modEx_ports (s : State) (f : Exchange → Exchange) : (s.modEx f).ports = s.ports := rfl

@[simp] theorem modEx_links (s : State) (f : Exchange → Exchange) : (s.modEx f).links = s.links := rfl

@[simp] theorem modEx_flood (s : State) (f : Exchange → Exchange) : (s.modEx f).flood = s.flood := rfl

@[simp] theorem modEx_reach (s : State) (f : Exchange → Exchange) : (s.modEx f).reach = s.reach := rfl

@[simp] theorem modEx_roster (s : State) (f : Exchange → Exchange) : (s.modEx f).roster = s.roster := rfl

@[simp] theorem modEx_tb (s : State) (f : Exchange → Exchange) : (s.modEx f).tb = s.tb := rfl

@[simp] theorem modEx_trig (s : State) (f : Exchange → Exchange) : (s.modEx f).trig = s.trig := rfl

@[simp] theorem modEx_stream (s : State) (f : Exchange → Exchange) : (s.modEx f).stream = s.stream := rfl

@[simp] theorem modEx_ex (s : State) (f : Exchange → Exchange) : (s.modEx f).ex = f s.ex := rfl

@[simp] theorem modEx_notes (s : State) (f : Exchange → Exchange) : (s.modEx f).notes = s.notes := rfl

@[simp] theorem modEx_mem (s : State) (f : Exchange → Exchange) : (s.modEx f).mem = s.mem := rfl

@[simp] theorem modEx_pending (s : State) (f : Exchange → Exchange) : (s.modEx f).pending = s.pending := rfl

@[simp] theorem modNotes_inReset (s : State) (f : NotePath → NotePath) : (s.modNotes f).inReset = s.inReset := rfl

@[simp] theorem modNotes_now (s : State) (f : NotePath → NotePath) : (s.modNotes f).now = s.now := rfl

@[simp] theorem modNotes_choices (s : State) (f : NotePath → NotePath) : (s.modNotes f).choices = s.choices := rfl

@[simp] theorem modNotes_store (s : State) (f : NotePath → NotePath) : (s.modNotes f).store = s.store := rfl

@[simp] theorem modNotes_ports (s : State) (f : NotePath → NotePath) : (s.modNotes f).ports = s.ports := rfl

@[simp] theorem modNotes_links (s : State) (f : NotePath → NotePath) : (s.modNotes f).links = s.links := rfl

@[simp] theorem modNotes_flood (s : State) (f : NotePath → NotePath) : (s.modNotes f).flood = s.flood := rfl

@[simp] theorem modNotes_reach (s : State) (f : NotePath → NotePath) : (s.modNotes f).reach = s.reach := rfl

@[simp] theorem modNotes_roster (s : State) (f : NotePath → NotePath) : (s.modNotes f).roster = s.roster := rfl

@[simp] theorem modNotes_tb (s : State) (f : NotePath → NotePath) : (s.modNotes f).tb = s.tb := rfl

@[simp] theorem modNotes_trig (s : State) (f : NotePath → NotePath) : (s.modNotes f).trig = s.trig := rfl

@[simp] theorem modNotes_stream (s : State) (f : NotePath → NotePath) : (s.modNotes f).stream = s.stream := rfl

@[simp] theorem modNotes_ex (s : State) (f : NotePath → NotePath) : (s.modNotes f).ex = s.ex := rfl

@[simp] theorem modNotes_notes (s : State) (f : NotePath → NotePath) : (s.modNotes f).notes = f s.notes := rfl

@[simp] theorem modNotes_mem (s : State) (f : NotePath → NotePath) : (s.modNotes f).mem = s.mem := rfl

@[simp] theorem modNotes_pending (s : State) (f : NotePath → NotePath) : (s.modNotes f).pending = s.pending := rfl

@[simp] theorem modStore_inReset (s : State) (f : SettingsStore → SettingsStore) : (s.modStore f).inReset = s.inReset := rfl

@[simp] theorem modStore_now (s : State) (f : SettingsStore → SettingsStore) : (s.modStore f).now = s.now := rfl

@[simp] theorem modStore_choices (s : State) (f : SettingsStore → SettingsStore) : (s.modStore f).choices = s.choices := rfl

@[simp] theorem modStore_store (s : State) (f : SettingsStore → SettingsStore) : (s.modStore f).store = f s.store := rfl

@[simp] theorem modStore_ports (s : State) (f : SettingsStore → SettingsStore) : (s.modStore f).ports = s.ports := rfl

@[simp] theorem modStore_links (s : State) (f : SettingsStore → SettingsStore) : (s.modStore f).links = s.links := rfl

@[simp] theorem modStore_flood (s : State) (f : SettingsStore → SettingsStore) : (s.modStore f).flood = s.flood := rfl

@[simp] theorem modStore_reach (s : State) (f : SettingsStore → SettingsStore) : (s.modStore f).reach = s.reach := rfl

@[simp] theorem modStore_roster (s : State) (f : SettingsStore → SettingsStore) : (s.modStore f).roster = s.roster := rfl

@[simp] theorem modStore_tb (s : State) (f : SettingsStore → SettingsStore) : (s.modStore f).tb = s.tb := rfl

@[simp] theorem modStore_trig (s : State) (f : SettingsStore → SettingsStore) : (s.modStore f).trig = s.trig := rfl

@[simp] theorem modStore_stream (s : State) (f : SettingsStore → SettingsStore) : (s.modStore f).stream = s.stream := rfl

@[simp] theorem modStore_ex (s : State) (f : SettingsStore → SettingsStore) : (s.modStore f).ex = s.ex := rfl

@[simp] theorem modStore_notes (s : State) (f : SettingsStore → SettingsStore) : (s.modStore f).notes = s.notes := rfl

@[simp] theorem modStore_mem (s : State) (f : SettingsStore → SettingsStore) : (s.modStore f).mem = s.mem := rfl

@[simp] theorem modStore_pending (s : State) (f : SettingsStore → SettingsStore) : (s.modStore f).pending = s.pending := rfl

@[simp] theorem modCounters_inReset (s : State) (p : PortIx) (f : PortCounters → PortCounters) : (s.modCounters p f).inReset = s.inReset := rfl

@[simp] theorem modCounters_now (s : State) (p : PortIx) (f : PortCounters → PortCounters) : (s.modCounters p f).now = s.now := rfl

@[simp] theorem modCounters_choices (s : State) (p : PortIx) (f : PortCounters → PortCounters) : (s.modCounters p f).choices = s.choices := rfl

@[simp] theorem modCounters_store (s : State) (p : PortIx) (f : PortCounters → PortCounters) : (s.modCounters p f).store = s.store := rfl

@[simp] theorem modCounters_ports (s : State) (p : PortIx) (f : PortCounters → PortCounters) : (s.modCounters p f).ports = s.ports := rfl

@[simp] theorem modCounters_flood (s : State) (p : PortIx) (f : PortCounters → PortCounters) : (s.modCounters p f).flood = s.flood := rfl

@[simp] theorem modCounters_reach (s : State) (p : PortIx) (f : PortCounters → PortCounters) : (s.modCounters p f).reach = s.reach := rfl

@[simp] theorem modCounters_roster (s : State) (p : PortIx) (f : PortCounters → PortCounters) : (s.modCounters p f).roster = s.roster := rfl

@[simp] theorem modCounters_tb (s : State) (p : PortIx) (f : PortCounters → PortCounters) : (s.modCounters p f).tb = s.tb := rfl

@[simp] theorem modCounters_trig (s : State) (p : PortIx) (f : PortCounters → PortCounters) : (s.modCounters p f).trig = s.trig := rfl

@[simp] theorem modCounters_stream (s : State) (p : PortIx) (f : PortCounters → PortCounters) : (s.modCounters p f).stream = s.stream := rfl

@[simp] theorem modCounters_ex (s : State) (p : PortIx) (f : PortCounters → PortCounters) : (s.modCounters p f).ex = s.ex := rfl

@[simp] theorem modCounters_notes (s : State) (p : PortIx) (f : PortCounters → PortCounters) : (s.modCounters p f).notes = s.notes := rfl

@[simp] theorem modCounters_mem (s : State) (p : PortIx) (f : PortCounters → PortCounters) : (s.modCounters p f).mem = s.mem := rfl

@[simp] theorem modCounters_pending (s : State) (p : PortIx) (f : PortCounters → PortCounters) : (s.modCounters p f).pending = s.pending := rfl

@[simp] theorem modSlot_slots (s : State) (n : SlotIx) (f : Slot → Slot) :
    (s.modSlot n f).stream.slots = upd s.stream.slots n f := rfl

@[simp] theorem modSlot_unmatched (s : State) (n : SlotIx) (f : Slot → Slot) :
    (s.modSlot n f).stream.unmatched = s.stream.unmatched := rfl

@[simp] theorem modEntry_entries (s : State) (k : FrameNo) (f : RosterEntry → RosterEntry) :
    (s.modEntry k f).roster.entries = upd s.roster.entries k f := rfl

@[simp] theorem modLane_lanes (s : State) (k : LaneIx) (f : Lane → Lane) :
    (s.modLane k f).trig.lanes = upd s.trig.lanes k f := rfl

/-! ## Reads after updates -/

theorem port_modPort (s : State) (p q : PortIx) (f : Port → Port) :
    (s.modPort p f).port q = if q = p then f (s.port p) else s.port q := get_upd s.ports p q f

@[simp] theorem port_modPort_same (s : State) (p : PortIx) (f : Port → Port) : (s.modPort p f).port p = f (s.port p) :=
  get_upd_same s.ports p f

theorem link_modLink (s : State) (p q : PortIx) (f : Link → Link) :
    (s.modLink p f).link q = if q = p then f (s.link p) else s.link q := get_upd s.links p q f

@[simp] theorem link_modLink_same (s : State) (p : PortIx) (f : Link → Link) : (s.modLink p f).link p = f (s.link p) :=
  get_upd_same s.links p f

theorem slot_modSlot (s : State) (n m : SlotIx) (f : Slot → Slot) :
    (s.modSlot n f).slot m = if m = n then f (s.slot n) else s.slot m := get_upd s.stream.slots n m f

@[simp] theorem slot_modSlot_same (s : State) (n : SlotIx) (f : Slot → Slot) : (s.modSlot n f).slot n = f (s.slot n) :=
  get_upd_same s.stream.slots n f

theorem entry_modEntry (s : State) (k j : FrameNo) (f : RosterEntry → RosterEntry) :
    (s.modEntry k f).entry j = if j = k then f (s.entry k) else s.entry j := get_upd s.roster.entries k j f

@[simp] theorem entry_modEntry_same (s : State) (k : FrameNo) (f : RosterEntry → RosterEntry) :
    (s.modEntry k f).entry k = f (s.entry k) := get_upd_same s.roster.entries k f

/-! ## Acts -/

@[simp] theorem on_s (a : Act) (f : State → State) : (a.on f).s = f a.s := rfl

@[simp] theorem on_posts (a : Act) (f : State → State) : (a.on f).posts = a.posts := rfl

@[simp] theorem post_s (a : Act) (p : Post) : (a.post p).s = a.s := rfl

@[simp] theorem post_posts (a : Act) (p : Post) : (a.post p).posts = a.posts ++ [p] := rfl

@[simp] theorem error_s (a : Act) (k : ErrorKind) (w : What) (x : Nat) : (a.error k w x).s = a.s := rfl

@[simp] theorem memFault_s (a : Act) (w : What) (x : Nat) : (a.memFault w x).s = a.s := rfl

@[simp] theorem streamNotice_s (a : Act) (n : SlotIx) : (a.streamNotice n).s = a.s := by
  unfold Act.streamNotice; dsimp only; split <;> rfl

end Sys2Proof.Machine
end

