-- ==== Sys2Proof/Laws/Reads.lean ====
section
/-! SUPPORT. What each read of one element finds after an update of another part of the state, and how updates of one
element join. -/

namespace Sys2Proof.Machine

@[simp] theorem advance_inReset (s : State) (d : Nat) : (advance s d).inReset = s.inReset := id rfl

@[simp] theorem advance_choices (s : State) (d : Nat) : (advance s d).choices = s.choices := id rfl

@[simp] theorem advance_store (s : State) (d : Nat) : (advance s d).store = s.store := id rfl

@[simp] theorem advance_ports (s : State) (d : Nat) : (advance s d).ports = s.ports := id rfl

@[simp] theorem advance_links (s : State) (d : Nat) : (advance s d).links = s.links := id rfl

@[simp] theorem advance_flood (s : State) (d : Nat) : (advance s d).flood = s.flood := id rfl

@[simp] theorem advance_reach (s : State) (d : Nat) : (advance s d).reach = s.reach := id rfl

@[simp] theorem advance_roster (s : State) (d : Nat) : (advance s d).roster = s.roster := id rfl

@[simp] theorem advance_trig (s : State) (d : Nat) : (advance s d).trig = s.trig := id rfl

@[simp] theorem advance_stream (s : State) (d : Nat) : (advance s d).stream = s.stream := id rfl

@[simp] theorem advance_ex (s : State) (d : Nat) : (advance s d).ex = s.ex := id rfl

@[simp] theorem advance_notes (s : State) (d : Nat) : (advance s d).notes = s.notes := id rfl

@[simp] theorem advance_mem (s : State) (d : Nat) : (advance s d).mem = s.mem := id rfl

@[simp] theorem advance_pending (s : State) (d : Nat) : (advance s d).pending = s.pending := id rfl

@[simp] theorem advanceTo_inReset (s : State) (d : Nat) : (advanceTo s d).inReset = s.inReset := id rfl

@[simp] theorem advanceTo_choices (s : State) (d : Nat) : (advanceTo s d).choices = s.choices := id rfl

@[simp] theorem advanceTo_store (s : State) (d : Nat) : (advanceTo s d).store = s.store := id rfl

@[simp] theorem advanceTo_ports (s : State) (d : Nat) : (advanceTo s d).ports = s.ports := id rfl

@[simp] theorem advanceTo_links (s : State) (d : Nat) : (advanceTo s d).links = s.links := id rfl

@[simp] theorem advanceTo_flood (s : State) (d : Nat) : (advanceTo s d).flood = s.flood := id rfl

@[simp] theorem advanceTo_reach (s : State) (d : Nat) : (advanceTo s d).reach = s.reach := id rfl

@[simp] theorem advanceTo_roster (s : State) (d : Nat) : (advanceTo s d).roster = s.roster := id rfl

@[simp] theorem advanceTo_trig (s : State) (d : Nat) : (advanceTo s d).trig = s.trig := id rfl

@[simp] theorem advanceTo_stream (s : State) (d : Nat) : (advanceTo s d).stream = s.stream := id rfl

@[simp] theorem advanceTo_ex (s : State) (d : Nat) : (advanceTo s d).ex = s.ex := id rfl

@[simp] theorem advanceTo_notes (s : State) (d : Nat) : (advanceTo s d).notes = s.notes := id rfl

@[simp] theorem advanceTo_mem (s : State) (d : Nat) : (advanceTo s d).mem = s.mem := id rfl

@[simp] theorem advanceTo_pending (s : State) (d : Nat) : (advanceTo s d).pending = s.pending := id rfl

@[simp] theorem link_modPort (s : State) (p : PortIx) (f : Port → Port) (q : PortIx) :
    (s.modPort p f).link q = s.link q := rfl

@[simp] theorem slot_modPort (s : State) (p : PortIx) (f : Port → Port) (m : SlotIx) :
    (s.modPort p f).slot m = s.slot m := rfl

@[simp] theorem entry_modPort (s : State) (p : PortIx) (f : Port → Port) (j : FrameNo) :
    (s.modPort p f).entry j = s.entry j := rfl

@[simp] theorem route_modPort (s : State) (p : PortIx) (f : Port → Port) (j : FrameNo) :
    (s.modPort p f).route j = s.route j := rfl

@[simp] theorem own_modPort (s : State) (p : PortIx) (f : Port → Port) :
    (s.modPort p f).own = s.own := rfl

@[simp] theorem serial_modPort (s : State) (p : PortIx) (f : Port → Port) :
    (s.modPort p f).serial = s.serial := rfl

@[simp] theorem memOpen_modPort (s : State) (p : PortIx) (f : Port → Port) :
    (s.modPort p f).memOpen = s.memOpen := rfl

@[simp] theorem port_modLink (s : State) (p : PortIx) (f : Link → Link) (q : PortIx) :
    (s.modLink p f).port q = s.port q := rfl

@[simp] theorem slot_modLink (s : State) (p : PortIx) (f : Link → Link) (m : SlotIx) :
    (s.modLink p f).slot m = s.slot m := rfl

@[simp] theorem entry_modLink (s : State) (p : PortIx) (f : Link → Link) (j : FrameNo) :
    (s.modLink p f).entry j = s.entry j := rfl

@[simp] theorem route_modLink (s : State) (p : PortIx) (f : Link → Link) (j : FrameNo) :
    (s.modLink p f).route j = s.route j := rfl

@[simp] theorem own_modLink (s : State) (p : PortIx) (f : Link → Link) :
    (s.modLink p f).own = s.own := rfl

@[simp] theorem serial_modLink (s : State) (p : PortIx) (f : Link → Link) :
    (s.modLink p f).serial = s.serial := rfl

@[simp] theorem memOpen_modLink (s : State) (p : PortIx) (f : Link → Link) :
    (s.modLink p f).memOpen = s.memOpen := rfl

@[simp] theorem port_modCounters (s : State) (p : PortIx) (f : PortCounters → PortCounters) (q : PortIx) :
    (s.modCounters p f).port q = s.port q := rfl

@[simp] theorem slot_modCounters (s : State) (p : PortIx) (f : PortCounters → PortCounters) (m : SlotIx) :
    (s.modCounters p f).slot m = s.slot m := rfl

@[simp] theorem entry_modCounters (s : State) (p : PortIx) (f : PortCounters → PortCounters) (j : FrameNo) :
    (s.modCounters p f).entry j = s.entry j := rfl

@[simp] theorem route_modCounters (s : State) (p : PortIx) (f : PortCounters → PortCounters) (j : FrameNo) :
    (s.modCounters p f).route j = s.route j := rfl

@[simp] theorem own_modCounters (s : State) (p : PortIx) (f : PortCounters → PortCounters) :
    (s.modCounters p f).own = s.own := rfl

@[simp] theorem serial_modCounters (s : State) (p : PortIx) (f : PortCounters → PortCounters) :
    (s.modCounters p f).serial = s.serial := rfl

@[simp] theorem memOpen_modCounters (s : State) (p : PortIx) (f : PortCounters → PortCounters) :
    (s.modCounters p f).memOpen = s.memOpen := rfl

@[simp] theorem port_modSlot (s : State) (n : SlotIx) (f : Slot → Slot) (q : PortIx) :
    (s.modSlot n f).port q = s.port q := rfl

@[simp] theorem link_modSlot (s : State) (n : SlotIx) (f : Slot → Slot) (q : PortIx) :
    (s.modSlot n f).link q = s.link q := rfl

@[simp] theorem entry_modSlot (s : State) (n : SlotIx) (f : Slot → Slot) (j : FrameNo) :
    (s.modSlot n f).entry j = s.entry j := rfl

@[simp] theorem route_modSlot (s : State) (n : SlotIx) (f : Slot → Slot) (j : FrameNo) :
    (s.modSlot n f).route j = s.route j := rfl

@[simp] theorem own_modSlot (s : State) (n : SlotIx) (f : Slot → Slot) :
    (s.modSlot n f).own = s.own := rfl

@[simp] theorem serial_modSlot (s : State) (n : SlotIx) (f : Slot → Slot) :
    (s.modSlot n f).serial = s.serial := rfl

@[simp] theorem memOpen_modSlot (s : State) (n : SlotIx) (f : Slot → Slot) :
    (s.modSlot n f).memOpen = s.memOpen := rfl

@[simp] theorem port_modEntry (s : State) (k : FrameNo) (f : RosterEntry → RosterEntry) (q : PortIx) :
    (s.modEntry k f).port q = s.port q := rfl

@[simp] theorem link_modEntry (s : State) (k : FrameNo) (f : RosterEntry → RosterEntry) (q : PortIx) :
    (s.modEntry k f).link q = s.link q := rfl

@[simp] theorem slot_modEntry (s : State) (k : FrameNo) (f : RosterEntry → RosterEntry) (m : SlotIx) :
    (s.modEntry k f).slot m = s.slot m := rfl

@[simp] theorem route_modEntry (s : State) (k : FrameNo) (f : RosterEntry → RosterEntry) (j : FrameNo) :
    (s.modEntry k f).route j = s.route j := rfl

@[simp] theorem own_modEntry (s : State) (k : FrameNo) (f : RosterEntry → RosterEntry) :
    (s.modEntry k f).own = s.own := rfl

@[simp] theorem serial_modEntry (s : State) (k : FrameNo) (f : RosterEntry → RosterEntry) :
    (s.modEntry k f).serial = s.serial := rfl

@[simp] theorem memOpen_modEntry (s : State) (k : FrameNo) (f : RosterEntry → RosterEntry) :
    (s.modEntry k f).memOpen = s.memOpen := rfl

@[simp] theorem port_modLane (s : State) (k : LaneIx) (f : Lane → Lane) (q : PortIx) :
    (s.modLane k f).port q = s.port q := rfl

@[simp] theorem link_modLane (s : State) (k : LaneIx) (f : Lane → Lane) (q : PortIx) :
    (s.modLane k f).link q = s.link q := rfl

@[simp] theorem slot_modLane (s : State) (k : LaneIx) (f : Lane → Lane) (m : SlotIx) :
    (s.modLane k f).slot m = s.slot m := rfl

@[simp] theorem entry_modLane (s : State) (k : LaneIx) (f : Lane → Lane) (j : FrameNo) :
    (s.modLane k f).entry j = s.entry j := rfl

@[simp] theorem route_modLane (s : State) (k : LaneIx) (f : Lane → Lane) (j : FrameNo) :
    (s.modLane k f).route j = s.route j := rfl

@[simp] theorem own_modLane (s : State) (k : LaneIx) (f : Lane → Lane) :
    (s.modLane k f).own = s.own := rfl

@[simp] theorem serial_modLane (s : State) (k : LaneIx) (f : Lane → Lane) :
    (s.modLane k f).serial = s.serial := rfl

@[simp] theorem memOpen_modLane (s : State) (k : LaneIx) (f : Lane → Lane) :
    (s.modLane k f).memOpen = s.memOpen := rfl

@[simp] theorem port_modRoster (s : State) (f : Roster → Roster) (q : PortIx) :
    (s.modRoster f).port q = s.port q := rfl

@[simp] theorem link_modRoster (s : State) (f : Roster → Roster) (q : PortIx) :
    (s.modRoster f).link q = s.link q := rfl

@[simp] theorem slot_modRoster (s : State) (f : Roster → Roster) (m : SlotIx) :
    (s.modRoster f).slot m = s.slot m := rfl

@[simp] theorem route_modRoster (s : State) (f : Roster → Roster) (j : FrameNo) :
    (s.modRoster f).route j = s.route j := rfl

@[simp] theorem own_modRoster (s : State) (f : Roster → Roster) :
    (s.modRoster f).own = s.own := rfl

@[simp] theorem serial_modRoster (s : State) (f : Roster → Roster) :
    (s.modRoster f).serial = s.serial := rfl

@[simp] theorem memOpen_modRoster (s : State) (f : Roster → Roster) :
    (s.modRoster f).memOpen = s.memOpen := rfl

@[simp] theorem port_modTb (s : State) (f : Timebase → Timebase) (q : PortIx) :
    (s.modTb f).port q = s.port q := rfl

@[simp] theorem link_modTb (s : State) (f : Timebase → Timebase) (q : PortIx) :
    (s.modTb f).link q = s.link q := rfl

@[simp] theorem slot_modTb (s : State) (f : Timebase → Timebase) (m : SlotIx) :
    (s.modTb f).slot m = s.slot m := rfl

@[simp] theorem entry_modTb (s : State) (f : Timebase → Timebase) (j : FrameNo) :
    (s.modTb f).entry j = s.entry j := rfl

@[simp] theorem route_modTb (s : State) (f : Timebase → Timebase) (j : FrameNo) :
    (s.modTb f).route j = s.route j := rfl

@[simp] theorem own_modTb (s : State) (f : Timebase → Timebase) :
    (s.modTb f).own = s.own := rfl

@[simp] theorem serial_modTb (s : State) (f : Timebase → Timebase) :
    (s.modTb f).serial = s.serial := rfl

@[simp] theorem memOpen_modTb (s : State) (f : Timebase → Timebase) :
    (s.modTb f).memOpen = s.memOpen := rfl

@[simp] theorem port_modReach (s : State) (f : Reach → Reach) (q : PortIx) :
    (s.modReach f).port q = s.port q := rfl

@[simp] theorem link_modReach (s : State) (f : Reach → Reach) (q : PortIx) :
    (s.modReach f).link q = s.link q := rfl

@[simp] theorem slot_modReach (s : State) (f : Reach → Reach) (m : SlotIx) :
    (s.modReach f).slot m = s.slot m := rfl

@[simp] theorem entry_modReach (s : State) (f : Reach → Reach) (j : FrameNo) :
    (s.modReach f).entry j = s.entry j := rfl

@[simp] theorem own_modReach (s : State) (f : Reach → Reach) :
    (s.modReach f).own = s.own := rfl

@[simp] theorem serial_modReach (s : State) (f : Reach → Reach) :
    (s.modReach f).serial = s.serial := rfl

@[simp] theorem memOpen_modReach (s : State) (f : Reach → Reach) :
    (s.modReach f).memOpen = s.memOpen := rfl

@[simp] theorem port_modTrig (s : State) (f : TriggerUnit → TriggerUnit) (q : PortIx) :
    (s.modTrig f).port q = s.port q := rfl

@[simp] theorem link_modTrig (s : State) (f : TriggerUnit → TriggerUnit) (q : PortIx) :
    (s.modTrig f).link q = s.link q := rfl

@[simp] theorem slot_modTrig (s : State) (f : TriggerUnit → TriggerUnit) (m : SlotIx) :
    (s.modTrig f).slot m = s.slot m := rfl

@[simp] theorem entry_modTrig (s : State) (f : TriggerUnit → TriggerUnit) (j : FrameNo) :
    (s.modTrig f).entry j = s.entry j := rfl

@[simp] theorem route_modTrig (s : State) (f : TriggerUnit → TriggerUnit) (j : FrameNo) :
    (s.modTrig f).route j = s.route j := rfl

@[simp] theorem own_modTrig (s : State) (f : TriggerUnit → TriggerUnit) :
    (s.modTrig f).own = s.own := rfl

@[simp] theorem serial_modTrig (s : State) (f : TriggerUnit → TriggerUnit) :
    (s.modTrig f).serial = s.serial := rfl

@[simp] theorem memOpen_modTrig (s : State) (f : TriggerUnit → TriggerUnit) :
    (s.modTrig f).memOpen = s.memOpen := rfl

@[simp] theorem port_modEx (s : State) (f : Exchange → Exchange) (q : PortIx) :
    (s.modEx f).port q = s.port q := rfl

@[simp] theorem link_modEx (s : State) (f : Exchange → Exchange) (q : PortIx) :
    (s.modEx f).link q = s.link q := rfl

@[simp] theorem slot_modEx (s : State) (f : Exchange → Exchange) (m : SlotIx) :
    (s.modEx f).slot m = s.slot m := rfl

@[simp] theorem entry_modEx (s : State) (f : Exchange → Exchange) (j : FrameNo) :
    (s.modEx f).entry j = s.entry j := rfl

@[simp] theorem route_modEx (s : State) (f : Exchange → Exchange) (j : FrameNo) :
    (s.modEx f).route j = s.route j := rfl

@[simp] theorem own_modEx (s : State) (f : Exchange → Exchange) :
    (s.modEx f).own = s.own := rfl

@[simp] theorem serial_modEx (s : State) (f : Exchange → Exchange) :
    (s.modEx f).serial = s.serial := rfl

@[simp] theorem port_modNotes (s : State) (f : NotePath → NotePath) (q : PortIx) :
    (s.modNotes f).port q = s.port q := rfl

@[simp] theorem link_modNotes (s : State) (f : NotePath → NotePath) (q : PortIx) :
    (s.modNotes f).link q = s.link q := rfl

@[simp] theorem slot_modNotes (s : State) (f : NotePath → NotePath) (m : SlotIx) :
    (s.modNotes f).slot m = s.slot m := rfl

@[simp] theorem entry_modNotes (s : State) (f : NotePath → NotePath) (j : FrameNo) :
    (s.modNotes f).entry j = s.entry j := rfl

@[simp] theorem route_modNotes (s : State) (f : NotePath → NotePath) (j : FrameNo) :
    (s.modNotes f).route j = s.route j := rfl

@[simp] theorem own_modNotes (s : State) (f : NotePath → NotePath) :
    (s.modNotes f).own = s.own := rfl

@[simp] theorem serial_modNotes (s : State) (f : NotePath → NotePath) :
    (s.modNotes f).serial = s.serial := rfl

@[simp] theorem memOpen_modNotes (s : State) (f : NotePath → NotePath) :
    (s.modNotes f).memOpen = s.memOpen := rfl

@[simp] theorem port_modStore (s : State) (f : SettingsStore → SettingsStore) (q : PortIx) :
    (s.modStore f).port q = s.port q := rfl

@[simp] theorem link_modStore (s : State) (f : SettingsStore → SettingsStore) (q : PortIx) :
    (s.modStore f).link q = s.link q := rfl

@[simp] theorem slot_modStore (s : State) (f : SettingsStore → SettingsStore) (m : SlotIx) :
    (s.modStore f).slot m = s.slot m := rfl

@[simp] theorem entry_modStore (s : State) (f : SettingsStore → SettingsStore) (j : FrameNo) :
    (s.modStore f).entry j = s.entry j := rfl

@[simp] theorem route_modStore (s : State) (f : SettingsStore → SettingsStore) (j : FrameNo) :
    (s.modStore f).route j = s.route j := rfl

@[simp] theorem memOpen_modStore (s : State) (f : SettingsStore → SettingsStore) :
    (s.modStore f).memOpen = s.memOpen := rfl

@[simp] theorem port_advance (s : State) (d : Nat) (q : PortIx) :
    (advance s d).port q = s.port q := id rfl

@[simp] theorem link_advance (s : State) (d : Nat) (q : PortIx) :
    (advance s d).link q = s.link q := id rfl

@[simp] theorem slot_advance (s : State) (d : Nat) (m : SlotIx) :
    (advance s d).slot m = s.slot m := id rfl

@[simp] theorem entry_advance (s : State) (d : Nat) (j : FrameNo) :
    (advance s d).entry j = s.entry j := id rfl

@[simp] theorem route_advance (s : State) (d : Nat) (j : FrameNo) :
    (advance s d).route j = s.route j := id rfl

@[simp] theorem own_advance (s : State) (d : Nat) :
    (advance s d).own = s.own := id rfl

@[simp] theorem serial_advance (s : State) (d : Nat) :
    (advance s d).serial = s.serial := id rfl

@[simp] theorem memOpen_advance (s : State) (d : Nat) :
    (advance s d).memOpen = s.memOpen := id rfl

@[simp] theorem port_advanceTo (s : State) (d : Nat) (q : PortIx) :
    (advanceTo s d).port q = s.port q := id rfl

@[simp] theorem link_advanceTo (s : State) (d : Nat) (q : PortIx) :
    (advanceTo s d).link q = s.link q := id rfl

@[simp] theorem slot_advanceTo (s : State) (d : Nat) (m : SlotIx) :
    (advanceTo s d).slot m = s.slot m := id rfl

@[simp] theorem entry_advanceTo (s : State) (d : Nat) (j : FrameNo) :
    (advanceTo s d).entry j = s.entry j := id rfl

@[simp] theorem route_advanceTo (s : State) (d : Nat) (j : FrameNo) :
    (advanceTo s d).route j = s.route j := id rfl

@[simp] theorem own_advanceTo (s : State) (d : Nat) :
    (advanceTo s d).own = s.own := id rfl

@[simp] theorem serial_advanceTo (s : State) (d : Nat) :
    (advanceTo s d).serial = s.serial := id rfl

@[simp] theorem memOpen_advanceTo (s : State) (d : Nat) :
    (advanceTo s d).memOpen = s.memOpen := id rfl

/-! ## Updates of one element -/

theorem upd_congr {α : Type} {n : Nat} {v : Vector α n} {i : Fin n} {f g : α → α} (h : f (v.get i) = g (v.get i)) :
    upd v i f = upd v i g := by simp only [upd, h]

theorem upd_upd {α : Type} {n : Nat} (v : Vector α n) (i : Fin n) (f g : α → α) :
    upd (upd v i f) i g = upd v i (fun x => g (f x)) := by
  have h : (v.set i.val (f (v.get i)) i.isLt).get i = f (v.get i) := get_upd_same v i f
  simp only [upd, h, Vector.set_set]

theorem upd_self {α : Type} {n : Nat} {v : Vector α n} {i : Fin n} {x : α} (h : v.get i = x) :
    upd v i (fun _ => x) = v := by
  subst h
  exact Vector.set_getElem_self ..

theorem modPort_congr {s : State} {p : PortIx} {f g : Port → Port} (h : f (s.port p) = g (s.port p)) :
    s.modPort p f = s.modPort p g := by simp only [State.modPort]; rw [upd_congr h]

theorem modLink_congr {s : State} {p : PortIx} {f g : Link → Link} (h : f (s.link p) = g (s.link p)) :
    s.modLink p f = s.modLink p g := by simp only [State.modLink]; rw [upd_congr h]

theorem modSlot_congr {s : State} {n : SlotIx} {f g : Slot → Slot} (h : f (s.slot n) = g (s.slot n)) :
    s.modSlot n f = s.modSlot n g := by simp only [State.modSlot]; rw [upd_congr h]

@[simp] theorem modPort_modPort (s : State) (p : PortIx) (f g : Port → Port) :
    (s.modPort p f).modPort p g = s.modPort p (fun r => g (f r)) := by simp only [State.modPort, upd_upd]

@[simp] theorem modLink_modLink (s : State) (p : PortIx) (f g : Link → Link) :
    (s.modLink p f).modLink p g = s.modLink p (fun l => g (f l)) := by simp only [State.modLink, upd_upd]

@[simp] theorem modSlot_modSlot (s : State) (n : SlotIx) (f g : Slot → Slot) :
    (s.modSlot n f).modSlot n g = s.modSlot n (fun x => g (f x)) := by simp only [State.modSlot, upd_upd]

@[simp] theorem setLane_setLane (s : State) (k : NoticeIx) (b c : LaneBelief) :
    setLane (setLane s k b) k c = setLane s k c := by simp only [setLane, State.modEx, upd_upd]

theorem setLane_self {s : State} {k : NoticeIx} {b : LaneBelief} (h : s.ex.lanes.get k = b) : setLane s k b = s := by
  simp only [setLane, State.modEx, upd_self h]

@[simp] theorem setLane_lane (s : State) (k : NoticeIx) (b : LaneBelief) : (setLane s k b).ex.lanes.get k = b :=
  get_upd_same s.ex.lanes k _

/-! ## A command as an act -/

theorem run_running {f : Act → Act} {s : State} (h : s.inReset = false) : run f s = .next (finish (f ⟨s, []⟩)) := by
  simp [run, h]

theorem runState_running {f : State → State} {s : State} (h : s.inReset = false) :
    runState f s = .next (finish ⟨f s, []⟩) := by
  simp [runState, run, h, Act.on]

/-- While the reset input is asserted an act does nothing (R186). -/
theorem run_inReset {f : Act → Act} {s : State} (h : s.inReset = true) : run f s = .next s := by simp [run, h]

end Sys2Proof.Machine
end

