-- ==== Sys2Proof/Laws/Cells.lean ====
section
/-! SUPPORT. What the receive stage and the sorting make of a good cell, by the port it arrives on and its destination. -/

namespace Sys2Proof.Machine

theorem rxError_none {k : Kind} {rx : Rx} (h : cellWf k rx = true) : rxError k rx = none := by simpa [cellWf] using h

theorem builds_ready {r : Port} (h : r.state = .up ∨ r.state = .training) (hr : r.rxStage = .ready) : builds r = true := by
  rcases h with h | h <;> simp [builds, h, hr]

/-- A port that is not TRAINING or UP, or whose stage ignores the line, takes no cell (R4, R7). -/
theorem receive_deaf {k : Kind} {rx : Rx} {o : Act → Act} {a : Act} (h : builds (a.s.port rx.port) = false) :
    receive k rx o a = a := by
  unfold receive; rw [if_pos h]

/-- A good cell on an UP port is reported and sorted (R8). -/
theorem receive_up {k : Kind} {rx : Rx} {o : Act → Act} {s : State} {ps : List Post} (hu : (s.port rx.port).state = .up)
    (hr : (s.port rx.port).rxStage = .ready) (h : cellWf k rx = true) :
    receive k rx o ⟨s, ps⟩ = sortCell k rx o ⟨s.modPort rx.port goodReport, ps⟩ := by
  have hg : (goodReport (s.port rx.port)).state = .up := by unfold goodReport; dsimp only; (repeat' split) <;> simp [hu]
  unfold receive
  rw [if_neg (by simp [builds_ready (.inl hu) hr]), rxError_none h]
  dsimp only [Act.on]
  rw [if_neg (by rw [port_modPort_same, hg]; simp)]

/-- A good cell on a TRAINING port is reported, and sorted if it is a PROBE or an ECHO, else discarded (R8). -/
theorem receive_training {k : Kind} {rx : Rx} {o : Act → Act} {s : State} {ps : List Post}
    (hu : (s.port rx.port).state = .training) (hr : (s.port rx.port).rxStage = .ready) (h : cellWf k rx = true) :
    receive k rx o ⟨s, ps⟩ =
      let u := s.modPort rx.port (fun r => { r with lastNull := false })
      if isPortKind k then sortCell k rx o ⟨u, ps⟩
      else ⟨u.modCounters rx.port (fun c => { c with trainingDiscard := c.trainingDiscard + 1 }), ps⟩ := by
  have hg : s.modPort rx.port goodReport = s.modPort rx.port (fun r => { r with lastNull := false }) :=
    modPort_congr (by simp [goodReport, hu])
  unfold receive
  rw [if_neg (by simp [builds_ready (.inr hu) hr]), rxError_none h]
  dsimp only [Act.on]
  rw [hg, port_modPort_same]
  cases isPortKind k <;> simp [hu]

/-- A link-local cell, or a routed cell for this frame, goes to its owner (R8, R13). -/
theorem sortCell_owner {k : Kind} {rx : Rx} {o : Act → Act} {a : Act}
    (h : rx.dest = 0 ∨ rx.dest.toNat ≠ floodDest ∧ rx.dest.toNat = a.s.own.val) : sortCell k rx o a = o a := by
  unfold sortCell
  rcases h with h | ⟨h1, h2⟩
  · rw [if_pos h]
  · by_cases h0 : rx.dest = 0
    · rw [if_pos h0]
    · rw [if_neg h0, if_neg h1, if_pos h2]

/-- A flooded cell goes to the flood rules (R8). -/
theorem sortCell_flood {k : Kind} {rx : Rx} {o : Act → Act} {a : Act} (h : rx.dest.toNat = floodDest) :
    sortCell k rx o a = takeFlood k rx o a := by
  have : rx.dest ≠ 0 := by intro e; rw [e] at h; simp [floodDest] at h
  unfold sortCell
  rw [if_neg this, if_pos h]

/-- A routed cell for another frame goes to the relay (R13). -/
theorem sortCell_relay {k : Kind} {rx : Rx} {o : Act → Act} {a : Act} (h0 : rx.dest ≠ 0)
    (h1 : rx.dest.toNat ≠ floodDest) (h2 : rx.dest.toNat ≠ a.s.own.val) : sortCell k rx o a = a.on (relayCell · k rx) := by
  unfold sortCell
  rw [if_neg h0, if_neg h1, if_neg h2]

end Sys2Proof.Machine
end

