-- ==== Sys2Proof/Laws/Codec.lean ====
section
/-! SUPPORT. Numbers as bytes and back, and what the receive stage makes of a cell's own bytes. -/

namespace Sys2Proof.Machine

/-! ## Numbers and bytes -/

@[simp] theorem length_leBytes (n v : Nat) : (leBytes n v).length = n := by
  induction n generalizing v with
  | zero => rfl
  | succ n ih => simp [leBytes, ih]

@[simp] theorem length_beBytes (n v : Nat) : (beBytes n v).length = n := by simp [beBytes]

@[simp] theorem length_zeros (n : Nat) : (zeros n).length = n := by simp [zeros]

theorem leNat_leBytes (n v : Nat) : leNat (leBytes n v) = v % 256 ^ n := by
  induction n generalizing v with
  | zero => simp [leBytes, leNat, Nat.mod_one]
  | succ n ih =>
    have h : (BitVec.ofNat 8 v).toNat = v % 256 := BitVec.toNat_ofNat _ _
    rw [leBytes, leNat, ih, h, Nat.pow_succ, Nat.mul_comm (256 ^ n) 256, Nat.mod_mul]

/-- A value that fits its width is read back from its bytes. -/
theorem beNat_beBytes (n v : Nat) (h : v < 256 ^ n) : beNat (beBytes n v) = v := by
  rw [beNat, beBytes, List.reverse_reverse, leNat_leBytes, Nat.mod_eq_of_lt h]

/-- The same for host memory's byte order. -/
theorem leNat_leBytes_of_lt (n v : Nat) (h : v < 256 ^ n) : leNat (leBytes n v) = v := by
  rw [leNat_leBytes, Nat.mod_eq_of_lt h]

/-- The bytes that stand at an offset. -/
theorem bytesAt_mid (x y z : List Byte) (off n : Nat) (hx : x.length = off) (hy : y.length = n) :
    bytesAt (x ++ (y ++ z)) off n = y := by
  subst hx hy
  simp [bytesAt]

theorem kindOfCode_kindCode (k : Kind) : kindOfCode (kindCode k) = some k := by cases k <;> rfl

/-! ## A cell's own bytes -/

theorem length_headerBytes (c : Cell) : (headerBytes c).length = 16 := by simp [headerBytes]

theorem length_lineBytes (c : Cell) : (lineBytes c).length = 20 + c.payload.length := by
  simp [lineBytes, length_headerBytes]; omega

theorem lengthField_lineBytes (c : Cell) (h : c.payload.length ≤ 256) : lengthField (lineBytes c) = c.payload.length := by
  unfold lengthField beAt
  have e : lineBytes c = [BitVec.ofNat 8 (kindCode c.kind), BitVec.ofNat 8 c.origin.val, c.dest, BitVec.ofNat 8 c.hops.val]
      ++ (beBytes 2 c.payload.length ++ (beBytes 2 c.incarnation.toNat ++ beBytes 2 c.floodSeq.toNat ++ zeros 2
      ++ beBytes 4 c.word.toNat ++ c.payload ++ beBytes 4 (crc (headerBytes c ++ c.payload)).toNat)) := by
    simp only [lineBytes, headerBytes, List.append_assoc]
  rw [e, bytesAt_mid _ _ _ 4 2 rfl (length_beBytes _ _), beNat_beBytes _ _ (by omega)]

theorem checkedBytes_lineBytes (c : Cell) : checkedBytes (lineBytes c) = headerBytes c ++ c.payload := by
  unfold checkedBytes
  rw [length_lineBytes]
  unfold lineBytes
  rw [List.take_append_of_le_length (by simp [length_headerBytes]; omega)]
  exact List.take_of_length_le (by simp [length_headerBytes]; omega)

theorem checkPasses_lineBytes (c : Cell) : checkPasses (lineBytes c) = true := by
  unfold checkPasses
  rw [checkedBytes_lineBytes, length_lineBytes]
  have e : (lineBytes c).drop (20 + c.payload.length - 4) = beBytes 4 (crc (headerBytes c ++ c.payload)).toNat := by
    unfold lineBytes
    rw [List.drop_append_of_le_length (by simp [length_headerBytes]; omega)]
    rw [List.drop_of_length_le (by simp [length_headerBytes]; omega)]
    simp
  have hc : (crc (headerBytes c ++ c.payload)).toNat < 256 ^ 4 := (crc (headerBytes c ++ c.payload)).isLt
  rw [e, beNat_beBytes _ _ hc]
  exact beq_self_eq_true _

/-- One header byte of a cell. -/
theorem beAt_header (c : Cell) (i : Nat) (b : Byte) (h : (lineBytes c)[i]? = some b) : beAt (lineBytes c) i 1 = b.toNat := by
  obtain ⟨hl, hb⟩ := List.getElem?_eq_some_iff.1 h
  have : bytesAt (lineBytes c) i 1 = [b] := by
    unfold bytesAt
    rw [List.drop_eq_getElem_cons hl, hb]
    rfl
  rw [beAt, this]
  simp [beNat, leNat]

theorem kindField_lineBytes (c : Cell) : beAt (lineBytes c) 0 1 = kindCode c.kind := by
  rw [beAt_header c 0 (BitVec.ofNat 8 (kindCode c.kind)) rfl]
  cases c.kind <;> rfl

theorem originField_lineBytes (c : Cell) : beAt (lineBytes c) 1 1 = c.origin.val := by
  rw [beAt_header c 1 (BitVec.ofNat 8 c.origin.val) rfl, BitVec.toNat_ofNat]
  have := c.origin.isLt
  omega

theorem destField_lineBytes (c : Cell) : beAt (lineBytes c) 2 1 = c.dest.toNat := beAt_header c 2 c.dest rfl

/-- The receive stage finds no error in the bytes of a cell that fits (R5, R6). -/
theorem rawError_lineBytes (c : Cell) (h : c.payload.length ≤ 256)
    (hf : headerFits c.kind c.dest.toNat c.origin.val = true) : rawError ⟨lineBytes c, .endDelimiter⟩ = none := by
  have hl := length_lineBytes c
  have hb : bytesFit (lineBytes c) = true := by
    unfold bytesFit
    rw [kindField_lineBytes, kindOfCode_kindCode, originField_lineBytes, destField_lineBytes]
    exact hf
  unfold rawError
  rw [if_neg (by simp [delimitError, maxSymbols, hl]; omega), if_neg (by simp)]
  rw [if_neg (by simp only [lengthField_lineBytes c h, hl]; omega)]
  simp only [checkPasses_lineBytes, hb]
  rfl

/-- A received cell that passes the tests of the receive stage is good as its own bytes on the line. -/
theorem rawError_rxCell (k : Kind) (rx : Rx) (h : cellWf k rx = true) :
    rawError ⟨lineBytes (rxCell k rx), .endDelimiter⟩ = none := by
  unfold cellWf rxError at h
  split at h
  · cases h
  · rename_i hl
    split at h
    · cases h
    · rename_i hf
      exact rawError_lineBytes _ (by simpa [rxCell] using hl) (by simpa [rxCell] using hf)

end Sys2Proof.Machine
end

