-- ==== Sys2Proof/Laws/Memory.lean ====
section
/-! SUPPORT. Host memory: a write keeps the canonical form, changes the bytes it stores and no other, and leaves the
regions that fault as they are. -/

namespace Sys2Proof.Machine

/-! ## Faults -/

theorem minFault_isSome (x y : Option Nat) (h : x.isSome = true) : (minFault x y).isSome = true := by
  cases x <;> cases y <;> simp_all [minFault]

theorem foldl_minFault_isSome (rs : List Region) (a len : Nat) (x : Option Nat) (h : x.isSome = true) :
    (rs.foldl (fun f r => minFault f (regionFault r a len)) x).isSome = true := by
  induction rs generalizing x with
  | nil => exact h
  | cons r rs ih => exact ih _ (minFault_isSome _ _ h)

/-- An access that does not fault lies in the address space. -/
theorem firstFault_none_space (rs : List Region) (a len : Nat) (h : firstFault rs a len = none) :
    a + len ≤ addressSpace := by
  by_cases hs : addressSpace < a + len
  · have := foldl_minFault_isSome rs a len (some (max a addressSpace)) rfl
    rw [firstFault, if_pos hs] at h
    simp [h] at this
  · omega

/-- With no faulting region an access inside the address space does not fault. -/
theorem firstFault_nil (a len : Nat) (h : a + len ≤ addressSpace) : firstFault [] a len = none := by
  have : ¬ addressSpace < a + len := by omega
  simp [firstFault, this]

/-! ## New cells -/

theorem newCells_mem (bs : List Byte) (a : Nat) (c : Host.Cell) (h : c ∈ newCells a bs) :
    a ≤ c.1 ∧ c.1 < a + bs.length ∧ c.2 ≠ unlisted := by
  induction bs generalizing a with
  | nil => simp [newCells] at h
  | cons b bs ih =>
    rw [List.length_cons]
    by_cases hb : b = unlisted
    · rw [newCells, if_pos hb] at h
      have := ih _ h
      exact ⟨by omega, by omega, this.2.2⟩
    · rw [newCells, if_neg hb] at h
      rcases List.mem_cons.1 h with h | h
      · subst h
        exact ⟨Nat.le_refl _, by simp only; omega, hb⟩
      · have := ih _ h
        exact ⟨by omega, by omega, this.2.2⟩

theorem newCells_pairwise (bs : List Byte) (a : Nat) : (newCells a bs).Pairwise (fun c d => c.1 < d.1) := by
  induction bs generalizing a with
  | nil => simp [newCells]
  | cons b bs ih =>
    simp only [newCells]
    split
    · exact ih _
    · refine List.pairwise_cons.2 ⟨fun d hd => ?_, ih _⟩
      have := newCells_mem _ _ _ hd
      simp only
      omega

/-! ## The canonical form -/

theorem wf_iff (m : Memory) :
    m.wf = true ↔ m.cells.Pairwise (fun c d => c.1 < d.1) ∧ ∀ c ∈ m.cells, c.2 ≠ unlisted ∧ c.1 < addressSpace := by
  simp [Memory.wf, List.all_eq_true]

theorem storeCells_wf (m : Memory) (a : Nat) (bs : List Byte) (hm : m.wf = true) (hs : a + bs.length ≤ addressSpace) :
    ({ m with cells := storeCells m.cells a bs } : Memory).wf = true := by
  obtain ⟨hp, hc⟩ := (wf_iff m).1 hm
  refine (wf_iff _).2 ⟨?_, fun c h => ?_⟩
  · simp only [storeCells]
    refine List.pairwise_append.2 ⟨List.pairwise_append.2 ⟨hp.filter _, newCells_pairwise _ _, ?_⟩, hp.filter _, ?_⟩
    · intro c h1 d h2
      have := newCells_mem _ _ _ h2
      simp only [List.mem_filter, decide_eq_true_eq] at h1
      omega
    · intro c h1 d h2
      simp only [List.mem_filter, decide_eq_true_eq, List.mem_append] at h1 h2
      rcases h1 with h1 | h1
      · omega
      · have := newCells_mem _ _ _ h1
        omega
  · simp only [storeCells, List.mem_append, List.mem_filter] at h
    rcases h with (h | h) | h
    · exact hc c h.1
    · have := newCells_mem _ _ _ h
      exact ⟨this.2.2, by omega⟩
    · exact hc c h.1

/-- Everything a memory write can do: it keeps the regions, and the canonical form. -/
theorem memWrite_keeps (m m' : Memory) (a : Nat) (bs : List Byte) (h : memWrite m a bs = .ok m') :
    m'.readFaults = m.readFaults ∧ m'.writeFaults = m.writeFaults ∧ (m.wf = true → m'.wf = true) := by
  unfold memWrite at h
  split at h
  · cases h
  · rename_i hf
    injection h with h
    subst h
    exact ⟨rfl, rfl, fun hm => storeCells_wf m a bs hm (firstFault_none_space _ _ _ hf)⟩

/-! ## Reading after a write -/

theorem find_filter_lt (cells : List Host.Cell) (a x : Nat) (h : x < a) :
    (cells.filter (fun c => decide (c.1 < a))).find? (fun c => c.1 == x) = cells.find? (fun c => c.1 == x) := by
  induction cells with
  | nil => rfl
  | cons c cs ih =>
    by_cases hc : c.1 = x
    · simp [hc, h]
    · by_cases hl : c.1 < a <;> simp [hl, hc, ih]

theorem find_filter_ge (cells : List Host.Cell) (a x : Nat) (h : a ≤ x) :
    (cells.filter (fun c => decide (a ≤ c.1))).find? (fun c => c.1 == x) = cells.find? (fun c => c.1 == x) := by
  induction cells with
  | nil => rfl
  | cons c cs ih =>
    by_cases hc : c.1 = x
    · simp [hc, h]
    · by_cases hl : a ≤ c.1 <;> simp [hl, hc, ih]

theorem find_filter_none (cells : List Host.Cell) (p : Host.Cell → Bool) (x : Nat)
    (h : ∀ c ∈ cells, p c = true → c.1 ≠ x) : (cells.filter p).find? (fun c => c.1 == x) = none := by
  rw [List.find?_eq_none]
  intro c hc
  have hc := List.mem_filter.1 hc
  simpa using h c hc.1 hc.2

theorem newCells_find_out (bs : List Byte) (a x : Nat) (h : x < a ∨ a + bs.length ≤ x) :
    (newCells a bs).find? (fun c => c.1 == x) = none := by
  rw [List.find?_eq_none]
  intro c hc
  have := newCells_mem _ _ _ hc
  simp only [beq_iff_eq]
  omega

theorem newCells_read (bs : List Byte) (a i : Nat) (h : i < bs.length) :
    (match (newCells a bs).find? (fun c => c.1 == a + i) with | some c => c.2 | none => unlisted) = bs[i] := by
  induction bs generalizing a i with
  | nil => simp at h
  | cons b bs ih =>
    cases i with
    | zero =>
      by_cases hb : b = unlisted
      · rw [newCells, if_pos hb, newCells_find_out bs (a + 1) (a + 0) (by omega)]
        simp [hb]
      · simp [newCells, hb]
    | succ i =>
      have hi : i < bs.length := by simpa using h
      have := ih (a + 1) i hi
      rw [show a + 1 + i = a + (i + 1) by omega] at this
      by_cases hb : b = unlisted
      · rw [newCells, if_pos hb]; simpa using this
      · rw [newCells, if_neg hb, List.find?_cons_of_neg (by simp)]
        simpa using this

/-- The byte at an address after a run of bytes is stored. -/
theorem memByte_store (m : Memory) (a : Nat) (bs : List Byte) (x : Nat) :
    memByte { m with cells := storeCells m.cells a bs } x =
      if a ≤ x ∧ x < a + bs.length then bs.getD (x - a) 0 else memByte m x := by
  unfold memByte storeCells
  simp only [List.find?_append]
  by_cases hx : a ≤ x ∧ x < a + bs.length
  · obtain ⟨i, rfl⟩ : ∃ i, x = a + i := ⟨x - a, by omega⟩
    rw [if_pos hx, find_filter_none _ _ _ (by intro c _ hc; simp at hc; omega)]
    rw [find_filter_none _ (fun c => decide (a + bs.length ≤ c.1)) _ (by intro c _ hc; simp at hc; omega)]
    have hi : i < bs.length := by omega
    have := newCells_read bs a i hi
    simp only [Option.none_or, Option.or_none]
    rw [List.getD_eq_getElem?_getD, Nat.add_sub_cancel_left, List.getElem?_eq_getElem hi]
    exact this
  · rw [if_neg hx, newCells_find_out bs a x (by omega)]
    by_cases hl : x < a
    · rw [find_filter_lt _ _ _ hl]
      rw [find_filter_none _ (fun c => decide (a + bs.length ≤ c.1)) _ (by intro c _ hc; simp at hc; omega)]
      simp
    · rw [find_filter_ge _ _ _ (by omega)]
      rw [find_filter_none _ (fun c => decide (c.1 < a)) _ (by intro c _ hc; simp at hc; omega)]
      simp

/-- The byte at an address after a write that does not fault: the byte stored there, or the byte before. -/
theorem memByte_memWrite (m m' : Memory) (a : Nat) (bs : List Byte) (h : memWrite m a bs = .ok m') (x : Nat) :
    memByte m' x = if a ≤ x ∧ x < a + bs.length then bs.getD (x - a) 0 else memByte m x := by
  unfold memWrite at h
  split at h
  · cases h
  · injection h with h
    subst h
    exact memByte_store m a bs x

end Sys2Proof.Machine
end

