-- ==== Sys2Proof/Laws/Keeps.lean ====
section
/-! SUPPORT. `Keeps` of the shared operations: what each of them can do to what no command but a device reset changes.
Every lemma reads backwards: what is kept up to a state is kept up to the state an operation makes of it. -/

namespace Sys2Proof.Machine

variable {s₀ : State}

theorem Keeps.refl (s : State) : Keeps s s := ⟨rfl, rfl, rfl, rfl, rfl, rfl, Nat.le_refl _, id⟩

theorem Keeps.trans {s t u : State} (h : Keeps s t) (k : Keeps t u) : Keeps s u :=
  ⟨k.inReset.trans h.inReset, k.pending.trans h.pending, k.identity.trans h.identity,
    k.incarnation.trans h.incarnation, k.readFaults.trans h.readFaults, k.writeFaults.trans h.writeFaults,
    Nat.le_trans h.clock k.clock, k.inv ∘ h.inv⟩

/-- A change of what `Keeps` does not speak of. -/
theorem keeps_of_eq {s t : State} (h : Keeps s₀ s) (hr : t.inReset = s.inReset) (hp : t.pending = s.pending)
    (hs : t.store.identity = s.store.identity) (hi : t.store.incarnation = s.store.incarnation) (hm : t.mem = s.mem)
    (hn : t.now = s.now) (hl : t.links = s.links) (hx : t.ex.window.length ≤ s.ex.window.length)
    (ht : t.trig.schedule.length ≤ s.trig.schedule.length) (hw : t.notes.window.length ≤ s.notes.window.length) :
    Keeps s₀ t :=
  h.trans ⟨hr, hp, hs, hi, by rw [hm], by rw [hm], Nat.le_of_eq hn.symm, fun v =>
    ⟨by have := v.memory; simpa only [MemoryOk, hm] using this,
      ⟨fun p => by have := v.capacity.queues p; simpa only [State.link, hl] using this,
        Nat.le_trans hx v.capacity.orders, Nat.le_trans ht v.capacity.schedule, Nat.le_trans hw v.capacity.notes⟩⟩⟩

/-! ## Changes of one unit -/

section units
variable {s : State} (h : Keeps s₀ s)
include h

@[simp] theorem keeps_modPort (p : PortIx) (f : Port → Port) : Keeps s₀ (s.modPort p f) :=
  keeps_of_eq h rfl rfl rfl rfl rfl rfl rfl (Nat.le_refl _) (Nat.le_refl _) (Nat.le_refl _)

@[simp] theorem keeps_modSlot (n : SlotIx) (f : Slot → Slot) : Keeps s₀ (s.modSlot n f) :=
  keeps_of_eq h rfl rfl rfl rfl rfl rfl rfl (Nat.le_refl _) (Nat.le_refl _) (Nat.le_refl _)

@[simp] theorem keeps_modEntry (k : FrameNo) (f : RosterEntry → RosterEntry) : Keeps s₀ (s.modEntry k f) :=
  keeps_of_eq h rfl rfl rfl rfl rfl rfl rfl (Nat.le_refl _) (Nat.le_refl _) (Nat.le_refl _)

@[simp] theorem keeps_modLane (k : LaneIx) (f : Lane → Lane) : Keeps s₀ (s.modLane k f) :=
  keeps_of_eq h rfl rfl rfl rfl rfl rfl rfl (Nat.le_refl _) (Nat.le_refl _) (Nat.le_refl _)

@[simp] theorem keeps_modRoster (f : Roster → Roster) : Keeps s₀ (s.modRoster f) :=
  keeps_of_eq h rfl rfl rfl rfl rfl rfl rfl (Nat.le_refl _) (Nat.le_refl _) (Nat.le_refl _)

@[simp] theorem keeps_modTb (f : Timebase → Timebase) : Keeps s₀ (s.modTb f) :=
  keeps_of_eq h rfl rfl rfl rfl rfl rfl rfl (Nat.le_refl _) (Nat.le_refl _) (Nat.le_refl _)

@[simp] theorem keeps_modReach (f : Reach → Reach) : Keeps s₀ (s.modReach f) :=
  keeps_of_eq h rfl rfl rfl rfl rfl rfl rfl (Nat.le_refl _) (Nat.le_refl _) (Nat.le_refl _)

theorem keeps_modTrig_grow {f : TriggerUnit → TriggerUnit}
    (hf : (f s.trig).schedule.length ≤ max s.trig.schedule.length scheduleCapacity) : Keeps s₀ (s.modTrig f) :=
  h.trans ⟨rfl, rfl, rfl, rfl, rfl, rfl, Nat.le_refl _, fun v =>
    ⟨v.memory, ⟨v.capacity.queues, v.capacity.orders, by have := v.capacity.schedule; simp only [modTrig_trig]; omega,
      v.capacity.notes⟩⟩⟩

theorem keeps_modEx_grow {f : Exchange → Exchange} (hf : (f s.ex).window.length ≤ max s.ex.window.length orderCapacity) :
    Keeps s₀ (s.modEx f) :=
  h.trans ⟨rfl, rfl, rfl, rfl, rfl, rfl, Nat.le_refl _, fun v =>
    ⟨v.memory, ⟨v.capacity.queues, by have := v.capacity.orders; simp only [modEx_ex]; omega, v.capacity.schedule,
      v.capacity.notes⟩⟩⟩

theorem keeps_modNotes_grow {f : NotePath → NotePath}
    (hf : (f s.notes).window.length ≤ max s.notes.window.length noteCapacity) : Keeps s₀ (s.modNotes f) :=
  h.trans ⟨rfl, rfl, rfl, rfl, rfl, rfl, Nat.le_refl _, fun v =>
    ⟨v.memory, ⟨v.capacity.queues, v.capacity.orders, v.capacity.schedule,
      by have := v.capacity.notes; simp only [modNotes_notes]; omega⟩⟩⟩

@[simp] theorem keeps_modStore {f : SettingsStore → SettingsStore} (hi : (f s.store).identity = s.store.identity)
    (hn : (f s.store).incarnation = s.store.incarnation) : Keeps s₀ (s.modStore f) :=
  keeps_of_eq h rfl rfl hi hn rfl rfl rfl (Nat.le_refl _) (Nat.le_refl _) (Nat.le_refl _)

@[simp] theorem keeps_modTrig {f : TriggerUnit → TriggerUnit} (hf : (f s.trig).schedule.length ≤ s.trig.schedule.length) :
    Keeps s₀ (s.modTrig f) := keeps_modTrig_grow h (by omega)

@[simp] theorem keeps_modEx {f : Exchange → Exchange} (hf : (f s.ex).window.length ≤ s.ex.window.length) :
    Keeps s₀ (s.modEx f) := keeps_modEx_grow h (by omega)

@[simp] theorem keeps_modNotes {f : NotePath → NotePath} (hf : (f s.notes).window.length ≤ s.notes.window.length) :
    Keeps s₀ (s.modNotes f) := keeps_modNotes_grow h (by omega)

@[simp] theorem keeps_modLink (p : PortIx) {f : Link → Link} (hf : LinkOk (s.link p) → LinkOk (f (s.link p))) :
    Keeps s₀ (s.modLink p f) :=
  h.trans ⟨rfl, rfl, rfl, rfl, rfl, rfl, Nat.le_refl _, fun v =>
    ⟨v.memory, ⟨fun q => by
      have := v.capacity.queues
      simp only [State.link, State.modLink, get_upd]
      split
      · exact hf (this p)
      · exact this q, v.capacity.orders, v.capacity.schedule, v.capacity.notes⟩⟩⟩

@[simp] theorem keeps_modCounters (p : PortIx) (f : PortCounters → PortCounters) : Keeps s₀ (s.modCounters p f) :=
  keeps_modLink h p id

/-! ## The clock -/

@[simp] theorem keeps_advance (d : Nat) : Keeps s₀ (advance s d) :=
  h.trans ⟨rfl, rfl, rfl, rfl, rfl, rfl, Nat.le_add_right _ _, fun v =>
    ⟨v.memory, ⟨v.capacity.queues, v.capacity.orders, v.capacity.schedule, v.capacity.notes⟩⟩⟩

@[simp] theorem keeps_advanceTo (t : Nat) : Keeps s₀ (advanceTo s t) := keeps_advance h _

@[simp] theorem keeps_advanceToRack (t : Time) : Keeps s₀ (advanceToRack s t) := by
  unfold advanceToRack; split
  · exact h
  · exact keeps_advance h _

@[simp] theorem keeps_choose : Keeps s₀ (choose s).2 :=
  keeps_of_eq h rfl rfl rfl rfl rfl rfl rfl (Nat.le_refl _) (Nat.le_refl _) (Nat.le_refl _)

/-! ## Host memory -/

theorem keeps_mem {m : Memory} {a : Nat} {bs : List Byte} (hm : memWrite s.mem a bs = .ok m) :
    Keeps s₀ { s with mem := m } :=
  have k := memWrite_keeps _ _ _ _ hm
  h.trans ⟨rfl, rfl, rfl, rfl, k.1, k.2.1, Nat.le_refl _, fun v =>
    ⟨k.2.2 v.memory, ⟨v.capacity.queues, v.capacity.orders, v.capacity.schedule, v.capacity.notes⟩⟩⟩

theorem keeps_writeHost {t : State} {a : Nat} {bs : List Byte} (hw : writeHost s a bs = .ok t) : Keeps s₀ t := by
  unfold writeHost at hw
  split at hw
  · cases hw
  · rename_i m hm
    injection hw with hw
    exact hw ▸ keeps_mem h hm

@[simp] theorem keeps_writeRuns (rs : List (Nat × List Byte)) : Keeps s₀ (writeRuns s rs).1 := by
  induction rs generalizing s with
  | nil => exact h
  | cons r rs ih =>
    obtain ⟨x, bs⟩ := r
    unfold writeRuns
    split
    · exact h
    · rename_i t ht
      exact ih (keeps_writeHost h ht)

/-! ## Folds and choices -/

@[simp] theorem keeps_foldl {α : Type} {f : State → α → State} (hf : ∀ s x, Keeps s₀ s → Keeps s₀ (f s x)) (xs : List α) :
    Keeps s₀ (xs.foldl f s) := by
  induction xs generalizing s with
  | nil => exact h
  | cons x xs ih => exact ih (hf s x h)

end units

section acts
variable {a : Act} (h : Keeps s₀ a.s)
include h

theorem keeps_on {f : State → State} (hf : Keeps s₀ a.s → Keeps s₀ (f a.s)) : Keeps s₀ (a.on f).s := hf h

@[simp] theorem keeps_each {α : Type} {f : Act → α → Act} (hf : ∀ b x, Keeps s₀ b.s → Keeps s₀ (f b x).s) (xs : List α) :
    Keeps s₀ (a.each xs f).s := by
  unfold Act.each
  induction xs generalizing a with
  | nil => exact h
  | cons x xs ih => exact ih (hf a x h)

@[simp] theorem keeps_foldl_act {α : Type} {f : Act → α → Act} (hf : ∀ b x, Keeps s₀ b.s → Keeps s₀ (f b x).s)
    (xs : List α) : Keeps s₀ (xs.foldl f a).s := keeps_each h hf xs

@[simp] theorem keeps_race2 {f g : Act → Act} (hf : ∀ b, Keeps s₀ b.s → Keeps s₀ (f b).s)
    (hg : ∀ b, Keeps s₀ b.s → Keeps s₀ (g b).s) : Keeps s₀ (a.race2 f g).s := by
  have hc := keeps_choose h
  unfold Act.race2
  dsimp only
  split
  · exact hg _ (hf _ hc)
  · exact hf _ (hg _ hc)

@[simp] theorem keeps_race3 {f g k : Act → Act} (hf : ∀ b, Keeps s₀ b.s → Keeps s₀ (f b).s)
    (hg : ∀ b, Keeps s₀ b.s → Keeps s₀ (g b).s) (hk : ∀ b, Keeps s₀ b.s → Keeps s₀ (k b).s) :
    Keeps s₀ (a.race3 f g k).s := by
  have hc := keeps_choose h
  unfold Act.race3
  dsimp only
  split
  · exact hk _ (hg _ (hf _ hc))
  · exact hg _ (hk _ (hf _ hc))
  · exact hk _ (hf _ (hg _ hc))
  · exact hf _ (hk _ (hg _ hc))
  · exact hg _ (hf _ (hk _ hc))
  · exact hf _ (hg _ (hk _ hc))

@[simp] theorem keeps_atTimer (t : Option Nat) (l : Nat) {f : Act → Act} (hf : ∀ b, Keeps s₀ b.s → Keeps s₀ (f b).s) :
    Keeps s₀ (a.atTimer t l f).s := by
  unfold Act.atTimer
  split
  · exact h
  · exact hf _ (keeps_advanceTo h _)

end acts

@[simp] theorem keeps_ite {c : Prop} [Decidable c] {a b : State} (ha : Keeps s₀ a) (hb : Keeps s₀ b) :
    Keeps s₀ (if c then a else b) := by split <;> assumption

@[simp] theorem keeps_ite_act {c : Prop} [Decidable c] {a b : Act} (ha : Keeps s₀ a.s) (hb : Keeps s₀ b.s) :
    Keeps s₀ (if c then a else b).s := by split <;> assumption

end Sys2Proof.Machine
end

