-- ==== Sys2Proof/Laws/KeepsOrders.lean ====
section
/-! SUPPORT. `Keeps` of the orders, the cell switch and the port units, one lemma for each operation. -/

namespace Sys2Proof.Machine

variable {s₀ : State}

/-! ## Orders -/

@[simp] theorem keeps_orderRow (k : Option OrderKind) (f : Act → Order → Act) (a : Act)
    (hf : ∀ b x, Keeps s₀ b.s → Keeps s₀ (f b x).s) (hk : Keeps s₀ a.s) :
    Keeps s₀ (orderRow k f a).s := by
  unfold orderRow; try dsimp only
  (repeat' split) <;> simp -implicitDefEqProofs (maxDischargeDepth := 30) +contextual [hk, hf]

@[simp] theorem keeps_modOrder (s : State) (seq : BitVec 32) (f : Order → Order) (hk : Keeps s₀ s) :
    Keeps s₀ (modOrder s seq f) := by
  unfold modOrder; try dsimp only
  (repeat' split) <;> simp -implicitDefEqProofs (maxDischargeDepth := 30) +contextual [hk]

@[simp] theorem keeps_holdOrder (s : State) (seq : BitVec 32) (hk : Keeps s₀ s) :
    Keeps s₀ (holdOrder s seq) := by
  unfold holdOrder; try dsimp only
  (repeat' split) <;> simp -implicitDefEqProofs (maxDischargeDepth := 30) +contextual [hk]

@[simp] theorem keeps_writeMark (a : Act) (m : BitVec 32) (hk : Keeps s₀ a.s) :
    Keeps s₀ (writeMark a m).s := by
  unfold writeMark
  (repeat' split) <;> first | exact keeps_writeHost hk ‹_› | simpa

@[simp] theorem keeps_setMark (a : Act) (m : BitVec 32) (hk : Keeps s₀ a.s) :
    Keeps s₀ (setMark a m).s := by
  unfold setMark; try dsimp only
  (repeat' split) <;> simp -implicitDefEqProofs (maxDischargeDepth := 30) +contextual [hk]

@[simp] theorem keeps_judgeMark (a : Act) (hk : Keeps s₀ a.s) :
    Keeps s₀ (judgeMark a).s := by
  unfold judgeMark; try dsimp only
  (repeat' split) <;> simp -implicitDefEqProofs (maxDischargeDepth := 30) +contextual [hk]

@[simp] theorem keeps_addStall (s : State) (x : StallAccess) (c : StallCause) (hk : Keeps s₀ s) :
    Keeps s₀ (addStall s x c) := by
  unfold addStall; try dsimp only
  (repeat' split) <;> simp -implicitDefEqProofs (maxDischargeDepth := 30) +contextual [hk]

@[simp] theorem keeps_stallCompletion (a : Act) (o : Order) (c : Completion) (x : Nat) (hk : Keeps s₀ a.s) :
    Keeps s₀ (stallCompletion a o c x).s := by
  unfold stallCompletion; try dsimp only
  (repeat' split) <;> simp -implicitDefEqProofs (maxDischargeDepth := 30) +contextual [hk]

@[simp] theorem keeps_orderDone (a : Act) (o : Order) (c : Completion) (hk : Keeps s₀ a.s) :
    Keeps s₀ (orderDone a o c).s := by
  unfold orderDone; dsimp only
  simp -implicitDefEqProofs (maxDischargeDepth := 30) [hk, List.length_filter_le]

@[simp] theorem keeps_writeCompletion (a : Act) (o : Order) (c : Completion) (hk : Keeps s₀ a.s) :
    Keeps s₀ (writeCompletion a o c).s := by
  have k := keeps_writeRuns hk (completionRuns o.address.toNat c)
  unfold writeCompletion
  split <;> rename_i e <;> rw [e] at k <;> simp [k]

@[simp] theorem keeps_complete (a : Act) (seq : BitVec 32) (outcome : Outcome) (detail : Nat) (results : List Byte)
    (hk : Keeps s₀ a.s) :
    Keeps s₀ (complete a seq outcome detail results).s := by
  unfold complete; try dsimp only
  (repeat' split) <;> simp -implicitDefEqProofs (maxDischargeDepth := 30) +contextual [hk]

@[simp] theorem keeps_done (a : Act) (o : Order) (results : List Byte) (hk : Keeps s₀ a.s) :
    Keeps s₀ (done a o results).s := by
  unfold done; try dsimp only
  (repeat' split) <;> simp -implicitDefEqProofs (maxDischargeDepth := 30) +contextual [hk]

@[simp] theorem keeps_badOrder (a : Act) (o : Order) (index : Nat) (hk : Keeps s₀ a.s) :
    Keeps s₀ (badOrder a o index).s := by
  unfold badOrder; try dsimp only
  (repeat' split) <;> simp -implicitDefEqProofs (maxDischargeDepth := 30) +contextual [hk]

/-! ## Switch -/

/-- An offer keeps the queues within their capacities. -/
theorem offerLink_ok (l : Link) (st : PortState) (c : TxClass) (q : Queued) (h : LinkOk l) :
    LinkOk (offerLink l st c q) := by
  obtain ⟨h1, h2, h3⟩ := h
  unfold offerLink
  split
  · exact ⟨h1, h2, h3⟩
  · split
    · rename_i hs
      cases c <;> simp only [queueOf, capacityOf] at hs <;>
        simp only [LinkOk, queueOf, setQueue, List.length_append, List.length_singleton] <;> omega
    · exact ⟨h1, h2, h3⟩

@[simp] theorem keeps_offer (s : State) (p : PortIx) (q : Queued) (hk : Keeps s₀ s) :
    Keeps s₀ (offer s p q) := by
  exact keeps_modLink hk p (offerLink_ok _ _ _ _)

@[simp] theorem keeps_offerEach (s : State) (ps : List PortIx) (c : Cell) (hk : Keeps s₀ s) :
    Keeps s₀ (offerEach s ps c) := by
  unfold offerEach; try dsimp only
  (repeat' split) <;> simp -implicitDefEqProofs (maxDischargeDepth := 30) +contextual [hk]

@[simp] theorem keeps_sendRouted (s : State) (dest : FrameNo) (c : Cell) (hk : Keeps s₀ s) :
    Keeps s₀ (sendRouted s dest c) := by
  unfold sendRouted; try dsimp only
  (repeat' split) <;> simp -implicitDefEqProofs (maxDischargeDepth := 30) +contextual [hk]

@[simp] theorem keeps_recordFlood (s : State) (k : Kind) (rx : Rx) (hk : Keeps s₀ s) :
    Keeps s₀ (recordFlood s k rx) := by
  exact keeps_of_eq hk rfl rfl rfl rfl rfl rfl rfl (Nat.le_refl _) (Nat.le_refl _) (Nat.le_refl _)

@[simp] theorem keeps_clearFlood (s : State) (f : FrameNo) (hk : Keeps s₀ s) :
    Keeps s₀ (clearFlood s f) := by
  exact keeps_of_eq hk rfl rfl rfl rfl rfl rfl rfl (Nat.le_refl _) (Nat.le_refl _) (Nat.le_refl _)

@[simp] theorem keeps_floodCopies (s : State) (k : Kind) (rx : Rx) (hk : Keeps s₀ s) :
    Keeps s₀ (floodCopies s k rx) := by
  unfold floodCopies; try dsimp only
  (repeat' split) <;> simp -implicitDefEqProofs (maxDischargeDepth := 30) +contextual [hk]

@[simp] theorem keeps_relayCell (s : State) (k : Kind) (rx : Rx) (hk : Keeps s₀ s) :
    Keeps s₀ (relayCell s k rx) := by
  unfold relayCell; try dsimp only
  (repeat' split) <;> simp -implicitDefEqProofs (maxDischargeDepth := 30) +contextual [hk]

/-! ## PortUnit -/

@[simp] theorem keeps_sendProbe (s : State) (p : PortIx) (due : Nat) (hk : Keeps s₀ s) :
    Keeps s₀ (sendProbe s p due) := by
  unfold sendProbe; try dsimp only
  (repeat' split) <;> simp -implicitDefEqProofs (maxDischargeDepth := 30) +contextual [hk]

end Sys2Proof.Machine
end

