-- ==== Sys2Proof/Laws/KeepsStream.lean ====
section
/-! SUPPORT. `Keeps` of the stream engine, one lemma for each operation. -/

namespace Sys2Proof.Machine

variable {s₀ : State}

/-! ## StreamBase -/

@[simp] theorem keeps_sendSlotCell (s : State) (n : SlotIx) (k : Kind) (payload : List Byte) (word : BitVec 32)
    (hk : Keeps s₀ s) :
    Keeps s₀ (sendSlotCell s n k payload word) := by
  unfold sendSlotCell; try dsimp only
  (repeat' split) <;> simp -implicitDefEqProofs (maxDischargeDepth := 30) +contextual [hk]

@[simp] theorem keeps_sendOpen (s : State) (n : SlotIx) (hk : Keeps s₀ s) :
    Keeps s₀ (sendOpen s n) := by
  unfold sendOpen; try dsimp only
  (repeat' split) <;> simp -implicitDefEqProofs (maxDischargeDepth := 30) +contextual [hk]

@[simp] theorem keeps_sendCredit (s : State) (n : SlotIx) (hk : Keeps s₀ s) :
    Keeps s₀ (sendCredit s n) := by
  unfold sendCredit; try dsimp only
  (repeat' split) <;> simp -implicitDefEqProofs (maxDischargeDepth := 30) +contextual [hk]

@[simp] theorem keeps_sendHalt (s : State) (n : SlotIx) (on : Bool) (hk : Keeps s₀ s) :
    Keeps s₀ (sendHalt s n on) := by
  unfold sendHalt; try dsimp only
  (repeat' split) <;> simp -implicitDefEqProofs (maxDischargeDepth := 30) +contextual [hk]

@[simp] theorem keeps_sendClose (s : State) (n : SlotIx) (reason : CloseReason) (hk : Keeps s₀ s) :
    Keeps s₀ (sendClose s n reason) := by
  unfold sendClose; try dsimp only
  (repeat' split) <;> simp -implicitDefEqProofs (maxDischargeDepth := 30) +contextual [hk]

@[simp] theorem keeps_sendAck (s : State) (n : SlotIx) (block : BitVec 32) (result : BlockOutcome) (hk : Keeps s₀ s) :
    Keeps s₀ (sendAck s n block result) := by
  unfold sendAck; try dsimp only
  (repeat' split) <;> simp -implicitDefEqProofs (maxDischargeDepth := 30) +contextual [hk]

@[simp] theorem keeps_notify (a : Act) (n : SlotIx) (hk : Keeps s₀ a.s) :
    Keeps s₀ (notify a n).s := by
  unfold notify; try dsimp only
  (repeat' split) <;> simp -implicitDefEqProofs (maxDischargeDepth := 30) +contextual [hk]

@[simp] theorem keeps_setSlotState (a : Act) (n : SlotIx) (st : StreamState) (cause : StreamCause)
    (hk : Keeps s₀ a.s) :
    Keeps s₀ (setSlotState a n st cause).s := by
  unfold setSlotState; try dsimp only
  (repeat' split) <;> simp -implicitDefEqProofs (maxDischargeDepth := 30) +contextual [hk]

@[simp] theorem keeps_judgeGate (s : State) (n : SlotIx) (hk : Keeps s₀ s) :
    Keeps s₀ (judgeGate s n) := by
  unfold judgeGate; try dsimp only
  (repeat' split) <;> simp -implicitDefEqProofs (maxDischargeDepth := 30) +contextual [hk]

@[simp] theorem keeps_takeSettled (a : Act) (n : SlotIx) (cause : StreamCause) (hk : Keeps s₀ a.s) :
    Keeps s₀ (takeSettled a n cause).s := by
  unfold takeSettled; try dsimp only
  (repeat' split) <;> simp -implicitDefEqProofs (maxDischargeDepth := 30) +contextual [hk]

@[simp] theorem keeps_settle (a : Act) (n : SlotIx) (cause : StreamCause) (hk : Keeps s₀ a.s) :
    Keeps s₀ (settle a n cause).s := by
  unfold settle; try dsimp only
  (repeat' split) <;> simp -implicitDefEqProofs (maxDischargeDepth := 30) +contextual [hk]

@[simp] theorem keeps_cutOff (s : State) (n : SlotIx) (hk : Keeps s₀ s) :
    Keeps s₀ (cutOff s n) := by
  unfold cutOff; try dsimp only
  (repeat' split) <;> simp -implicitDefEqProofs (maxDischargeDepth := 30) +contextual [hk]

@[simp] theorem keeps_writeRec (s : State) (n : SlotIx) (o : BlockOutcome) (r : Rec) (hk : Keeps s₀ s) :
    Keeps s₀ (writeRec s n o r).1 := by
  unfold writeRec; try dsimp only
  (repeat' split) <;> simp -implicitDefEqProofs (maxDischargeDepth := 30) +contextual [hk]

@[simp] theorem keeps_blockFault (a : Act) (n : SlotIx) (w : What) (address : Nat) (hk : Keeps s₀ a.s) :
    Keeps s₀ (blockFault a n w address).s := by
  unfold blockFault; try dsimp only
  (repeat' split) <;> simp -implicitDefEqProofs (maxDischargeDepth := 30) +contextual [hk]

@[simp] theorem keeps_faultHalt (a : Act) (n : SlotIx) (hk : Keeps s₀ a.s) :
    Keeps s₀ (faultHalt a n).s := by
  unfold faultHalt; try dsimp only
  (repeat' split) <;> simp -implicitDefEqProofs (maxDischargeDepth := 30) +contextual [hk]

@[simp] theorem keeps_completionFault (a : Act) (n : SlotIx) (address : Nat) (hk : Keeps s₀ a.s) :
    Keeps s₀ (completionFault a n address).s := by
  unfold completionFault; try dsimp only
  (repeat' split) <;> simp -implicitDefEqProofs (maxDischargeDepth := 30) +contextual [hk]

@[simp] theorem keeps_completeRun (n : SlotIx) (i : Nat) (a : Act) (r : Run) (hk : Keeps s₀ a.s) :
    Keeps s₀ (completeRun n i a r).1.s := by
  induction i generalizing a r with
  | zero => exact hk
  | succ i ih =>
    unfold completeRun
    split
    · exact hk
    · rename_i x _ _
      split
      · exact hk
      · rename_i o _
        have k := keeps_writeRec a.s n o x hk
        split <;> rename_i e <;> rw [e] at k
        · simp [k]
        · exact ih _ _ (keeps_modSlot k _ _)

@[simp] theorem keeps_completeHeld (a : Act) (n : SlotIx) (hk : Keeps s₀ a.s) :
    Keeps s₀ (completeHeld a n).1.s := by
  unfold completeHeld
  split
  · exact hk
  · have k := keeps_completeRun n (a.s.slot n).fetched.length a ⟨false, false, false⟩ hk
    dsimp only
    split <;> simp [k]

@[simp] theorem keeps_completeAll (n : SlotIx) (i : Nat) (a : Act) (hk : Keeps s₀ a.s) :
    Keeps s₀ (completeAll n i a).s := by
  induction i generalizing a with
  | zero => exact hk
  | succ i ih =>
    unfold completeAll
    split
    · exact hk
    · rename_i x _ _
      have k := keeps_writeRec a.s n (x.outcome.getD .discarded) x hk
      dsimp only
      split <;> rename_i e <;> rw [e] at k
      · simp [k]
      · exact ih _ (keeps_modSlot k _ _)

@[simp] theorem keeps_completeSlotOrders (a : Act) (n : SlotIx) (outcome : Outcome) (cause : StreamCause)
    (hk : Keeps s₀ a.s) :
    Keeps s₀ (completeSlotOrders a n outcome cause).s := by
  unfold completeSlotOrders; try dsimp only
  (repeat' split) <;> simp -implicitDefEqProofs (maxDischargeDepth := 30) +contextual [hk]

@[simp] theorem keeps_closeSlot (a : Act) (n : SlotIx) (cause : StreamCause) (sends : Bool) (outcome : Outcome)
    (hk : Keeps s₀ a.s) :
    Keeps s₀ (closeSlot a n cause sends outcome).s := by
  unfold closeSlot; try dsimp only
  (repeat' split) <;> simp -implicitDefEqProofs (maxDischargeDepth := 30) +contextual [hk]

@[simp] theorem keeps_closeForExchange (reason : CloseReason) (cause : StreamCause) (s : State) (n : SlotIx)
    (hk : Keeps s₀ s) :
    Keeps s₀ (closeForExchange reason cause s n) := by
  unfold closeForExchange; try dsimp only
  (repeat' split) <;> simp -implicitDefEqProofs (maxDischargeDepth := 30) +contextual [hk]

@[simp] theorem keeps_completeAndEnd (a : Act) (n : SlotIx) (hk : Keeps s₀ a.s) :
    Keeps s₀ (completeAndEnd a n).s := by
  unfold completeAndEnd; try dsimp only
  (repeat' split) <;> simp -implicitDefEqProofs (maxDischargeDepth := 30) +contextual [hk]

/-! ## StreamFetch -/

@[simp] theorem keeps_fetchFault (a : Act) (n : SlotIx) (address : Nat) (hk : Keeps s₀ a.s) :
    Keeps s₀ (fetchFault a n address).s := by
  unfold fetchFault; try dsimp only
  (repeat' split) <;> simp -implicitDefEqProofs (maxDischargeDepth := 30) +contextual [hk]

@[simp] theorem keeps_fetchRecord (a : Act) (n : SlotIx) (address : BitVec 64) (hk : Keeps s₀ a.s) :
    Keeps s₀ (fetchRecord a n address).s := by
  unfold fetchRecord; try dsimp only
  (repeat' split) <;> simp -implicitDefEqProofs (maxDischargeDepth := 30) +contextual [hk]

@[simp] theorem keeps_rereadLink (a : Act) (n : SlotIx) (hk : Keeps s₀ a.s) :
    Keeps s₀ (rereadLink a n).s := by
  unfold rereadLink; try dsimp only
  (repeat' split) <;> simp -implicitDefEqProofs (maxDischargeDepth := 30) +contextual [hk]

@[simp] theorem keeps_readNext (a : Act) (n : SlotIx) (hk : Keeps s₀ a.s) :
    Keeps s₀ (readNext a n).s := by
  unfold readNext; try dsimp only
  (repeat' split) <;> simp -implicitDefEqProofs (maxDischargeDepth := 30) +contextual [hk]

@[simp] theorem keeps_retryStop (a : Act) (n : SlotIx) (hk : Keeps s₀ a.s) :
    Keeps s₀ (retryStop a n).s := by
  unfold retryStop; try dsimp only
  (repeat' split) <;> simp -implicitDefEqProofs (maxDischargeDepth := 30) +contextual [hk]

@[simp] theorem keeps_retryWrite (a : Act) (n : SlotIx) (hk : Keeps s₀ a.s) :
    Keeps s₀ (retryWrite a n).s := by
  unfold retryWrite; try dsimp only
  (repeat' split) <;> simp -implicitDefEqProofs (maxDischargeDepth := 30) +contextual [hk]

/-! ## StreamSend -/

@[simp] theorem keeps_bufferFault (a : Act) (n : SlotIx) (address : Nat) (hk : Keeps s₀ a.s) :
    Keeps s₀ (bufferFault a n address).s := by
  unfold bufferFault; try dsimp only
  (repeat' split) <;> simp -implicitDefEqProofs (maxDischargeDepth := 30) +contextual [hk]

@[simp] theorem keeps_offerCell (a : Act) (n : SlotIx) (d : Sending) (timestamp : Time) (hk : Keeps s₀ a.s) :
    Keeps s₀ (offerCell a n d timestamp).s := by
  unfold offerCell; try dsimp only
  (repeat' split) <;> simp -implicitDefEqProofs (maxDischargeDepth := 30) +contextual [hk]

@[simp] theorem keeps_startBlock (a : Act) (n : SlotIx) (b : BitVec 32) (timestamp : Time) (hk : Keeps s₀ a.s) :
    Keeps s₀ (startBlock a n b timestamp).s := by
  unfold startBlock; try dsimp only
  (repeat' split) <;> simp -implicitDefEqProofs (maxDischargeDepth := 30) +contextual [hk]

@[simp] theorem keeps_takePoint (a : Act) (n : SlotIx) (hk : Keeps s₀ a.s) :
    Keeps s₀ (takePoint a n).s := by
  unfold takePoint; try dsimp only
  (repeat' split) <;> simp -implicitDefEqProofs (maxDischargeDepth := 30) +contextual [hk]

@[simp] theorem keeps_cellSent (a : Act) (c : Cell) (lc : LocalCell) (hk : Keeps s₀ a.s) :
    Keeps s₀ (cellSent a c lc).s := by
  unfold cellSent; try dsimp only
  (repeat' split) <;> simp -implicitDefEqProofs (maxDischargeDepth := 30) +contextual [hk]

@[simp] theorem keeps_closeIfResolved (a : Act) (n : SlotIx) (hk : Keeps s₀ a.s) :
    Keeps s₀ (closeIfResolved a n).s := by
  unfold closeIfResolved; try dsimp only
  (repeat' split) <;> simp -implicitDefEqProofs (maxDischargeDepth := 30) +contextual [hk]

@[simp] theorem keeps_endResolved (a : Act) (n : SlotIx) (r : Rec) (o : BlockOutcome) (hk : Keeps s₀ a.s) :
    Keeps s₀ (endResolved a n r o).s := by
  unfold endResolved; try dsimp only
  (repeat' split) <;> simp -implicitDefEqProofs (maxDischargeDepth := 30) +contextual [hk]

@[simp] theorem keeps_resolveBlock (a : Act) (n : SlotIx) (r : Rec) (b : BitVec 32) (o : BlockOutcome)
    (hk : Keeps s₀ a.s) :
    Keeps s₀ (resolveBlock a n r b o).s := by
  unfold resolveBlock; try dsimp only
  (repeat' split) <;> simp -implicitDefEqProofs (maxDischargeDepth := 30) +contextual [hk]

/-! ## StreamSink -/

@[simp] theorem keeps_sinkComplete (a : Act) (n : SlotIx) (b : BitVec 32) (o : BlockOutcome) (hk : Keeps s₀ a.s) :
    Keeps s₀ (sinkComplete a n b o).s := by
  unfold sinkComplete; try dsimp only
  (repeat' split) <;> simp -implicitDefEqProofs (maxDischargeDepth := 30) +contextual [hk]

@[simp] theorem keeps_sinkDamaged (a : Act) (n : SlotIx) (b : BitVec 32) (hk : Keeps s₀ a.s) :
    Keeps s₀ (sinkDamaged a n b).s := by
  unfold sinkDamaged; try dsimp only
  (repeat' split) <;> simp -implicitDefEqProofs (maxDischargeDepth := 30) +contextual [hk]

@[simp] theorem keeps_sinkGap (n : SlotIx) (i : Nat) (a : Act) (hk : Keeps s₀ a.s) :
    Keeps s₀ (sinkGap n i a).s := by
  induction i generalizing a with
  | zero => exact hk
  | succ i ih => exact ih _ (keeps_sinkDamaged a n _ hk)

@[simp] theorem keeps_closeIfDrained (a : Act) (n : SlotIx) (hk : Keeps s₀ a.s) :
    Keeps s₀ (closeIfDrained a n).s := by
  unfold closeIfDrained; try dsimp only
  (repeat' split) <;> simp -implicitDefEqProofs (maxDischargeDepth := 30) +contextual [hk]

@[simp] theorem keeps_sinkBufferFault (a : Act) (n : SlotIx) (b : BitVec 32) (address : Nat) (hk : Keeps s₀ a.s) :
    Keeps s₀ (sinkBufferFault a n b address).s := by
  unfold sinkBufferFault; try dsimp only
  (repeat' split) <;> simp -implicitDefEqProofs (maxDischargeDepth := 30) +contextual [hk]

@[simp] theorem keeps_lastTaken (a : Act) (n : SlotIx) (b : BitVec 32) (length : Nat) (hk : Keeps s₀ a.s) :
    Keeps s₀ (lastTaken a n b length).s := by
  unfold lastTaken; try dsimp only
  (repeat' split) <;> simp -implicitDefEqProofs (maxDischargeDepth := 30) +contextual [hk]

@[simp] theorem keeps_takeCell (a : Act) (n : SlotIx) (d : DataFields) (stamp : Time) (hk : Keeps s₀ a.s) :
    Keeps s₀ (takeCell a n d stamp).s := by
  unfold takeCell
  try dsimp only
  split
  · exact hk
  · split
    · simp [hk]
    · rename_i t e
      have k := keeps_modSlot (keeps_writeHost hk e) n
      split <;> simp -implicitDefEqProofs (maxDischargeDepth := 30) [k]

@[simp] theorem keeps_expectedCell (a : Act) (n : SlotIx) (d : DataFields) (stamp : Time) (hk : Keeps s₀ a.s) :
    Keeps s₀ (expectedCell a n d stamp).s := by
  unfold expectedCell; try dsimp only
  (repeat' split) <;> simp -implicitDefEqProofs (maxDischargeDepth := 30) +contextual [hk]

@[simp] theorem keeps_gapCell (a : Act) (n : SlotIx) (b : BitVec 32) (d : DataFields) (stamp : Time)
    (hk : Keeps s₀ a.s) :
    Keeps s₀ (gapCell a n b d stamp).s := by
  unfold gapCell; try dsimp only
  (repeat' split) <;> simp -implicitDefEqProofs (maxDischargeDepth := 30) +contextual [hk]

@[simp] theorem keeps_countSlot (a : Act) (n : SlotIx) (f : SlotCounters → SlotCounters) (hk : Keeps s₀ a.s) :
    Keeps s₀ (countSlot a n f).s := by
  unfold countSlot; try dsimp only
  (repeat' split) <;> simp -implicitDefEqProofs (maxDischargeDepth := 30) +contextual [hk]

@[simp] theorem keeps_clearPeerHalt (a : Act) (n : SlotIx) (d : DataFields) (hk : Keeps s₀ a.s) :
    Keeps s₀ (clearPeerHalt a n d).s := by
  unfold clearPeerHalt; try dsimp only
  (repeat' split) <;> simp -implicitDefEqProofs (maxDischargeDepth := 30) +contextual [hk]

@[simp] theorem keeps_assembleData (a : Act) (n : SlotIx) (b : BitVec 32) (d : DataFields) (stamp : Time)
    (hk : Keeps s₀ a.s) :
    Keeps s₀ (assembleData a n b d stamp).s := by
  unfold assembleData; try dsimp only
  (repeat' split) <;> simp -implicitDefEqProofs (maxDischargeDepth := 30) +contextual [hk]

@[simp] theorem keeps_sinkData (a : Act) (n : SlotIx) (b : BitVec 32) (d : DataFields) (stamp : Time)
    (hk : Keeps s₀ a.s) :
    Keeps s₀ (sinkData a n b d stamp).s := by
  unfold sinkData; try dsimp only
  (repeat' split) <;> simp -implicitDefEqProofs (maxDischargeDepth := 30) +contextual [hk]

/-! ## StreamEvents -/

@[simp] theorem keeps_strand (a : Act) (n : SlotIx) (cause : StreamCause) (hk : Keeps s₀ a.s) :
    Keeps s₀ (strand a n cause).s := by
  unfold strand; try dsimp only
  (repeat' split) <;> simp -implicitDefEqProofs (maxDischargeDepth := 30) +contextual [hk]

@[simp] theorem keeps_judgeReturn (a : Act) (n : SlotIx) (hk : Keeps s₀ a.s) :
    Keeps s₀ (judgeReturn a n).s := by
  unfold judgeReturn; try dsimp only
  (repeat' split) <;> simp -implicitDefEqProofs (maxDischargeDepth := 30) +contextual [hk]

@[simp] theorem keeps_closeOpening (a : Act) (n : SlotIx) (cause : StreamCause) (outcome : Outcome)
    (hk : Keeps s₀ a.s) :
    Keeps s₀ (closeOpening a n cause outcome).s := by
  unfold closeOpening; try dsimp only
  (repeat' split) <;> simp -implicitDefEqProofs (maxDischargeDepth := 30) +contextual [hk]

@[simp] theorem keeps_streamReachLost (f : FrameNo) (a : Act) (hk : Keeps s₀ a.s) :
    Keeps s₀ (streamReachLost f a).s := by
  unfold streamReachLost; try dsimp only
  (repeat' split) <;> simp -implicitDefEqProofs (maxDischargeDepth := 30) +contextual [hk]

@[simp] theorem keeps_streamReachGained (_f : FrameNo) (a : Act) (hk : Keeps s₀ a.s) :
    Keeps s₀ (streamReachGained _f a).s := by
  unfold streamReachGained; try dsimp only
  (repeat' split) <;> simp -implicitDefEqProofs (maxDischargeDepth := 30) +contextual [hk]

@[simp] theorem keeps_drainFinish (a : Act) (n : SlotIx) (hk : Keeps s₀ a.s) :
    Keeps s₀ (drainFinish a n).s := by
  unfold drainFinish; try dsimp only
  (repeat' split) <;> simp -implicitDefEqProofs (maxDischargeDepth := 30) +contextual [hk]

@[simp] theorem keeps_drainPeerLeaving (a : Act) (n : SlotIx) (hk : Keeps s₀ a.s) :
    Keeps s₀ (drainPeerLeaving a n).s := by
  unfold drainPeerLeaving; try dsimp only
  (repeat' split) <;> simp -implicitDefEqProofs (maxDischargeDepth := 30) +contextual [hk]

@[simp] theorem keeps_drainSink (a : Act) (n : SlotIx) (cause : StreamCause) (hk : Keeps s₀ a.s) :
    Keeps s₀ (drainSink a n cause).s := by
  unfold drainSink; try dsimp only
  (repeat' split) <;> simp -implicitDefEqProofs (maxDischargeDepth := 30) +contextual [hk]

@[simp] theorem keeps_slotPeerLeaving (a : Act) (n : SlotIx) (hk : Keeps s₀ a.s) :
    Keeps s₀ (slotPeerLeaving a n).s := by
  unfold slotPeerLeaving; try dsimp only
  (repeat' split) <;> simp -implicitDefEqProofs (maxDischargeDepth := 30) +contextual [hk]

@[simp] theorem keeps_slotPeerGone (a : Act) (n : SlotIx) (hk : Keeps s₀ a.s) :
    Keeps s₀ (slotPeerGone a n).s := by
  unfold slotPeerGone; try dsimp only
  (repeat' split) <;> simp -implicitDefEqProofs (maxDischargeDepth := 30) +contextual [hk]

@[simp] theorem keeps_streamEntryChanged (f : FrameNo) (a : Act) (hk : Keeps s₀ a.s) :
    Keeps s₀ (streamEntryChanged f a).s := by
  unfold streamEntryChanged; try dsimp only
  (repeat' split) <;> simp -implicitDefEqProofs (maxDischargeDepth := 30) +contextual [hk]

@[simp] theorem keeps_streamStandingChanged (a : Act) (hk : Keeps s₀ a.s) :
    Keeps s₀ (streamStandingChanged a).s := by
  unfold streamStandingChanged; try dsimp only
  (repeat' split) <;> simp -implicitDefEqProofs (maxDischargeDepth := 30) +contextual [hk]

@[simp] theorem keeps_streamsLeave (a : Act) (hk : Keeps s₀ a.s) :
    Keeps s₀ (streamsLeave a).s := by
  unfold streamsLeave; try dsimp only
  refine keeps_each hk (fun b x hb => ?_) _
  try dsimp only
  (repeat' split) <;> simp -implicitDefEqProofs (maxDischargeDepth := 30) +contextual [hb]

@[simp] theorem keeps_streamTimeChanged (a : Act) (hk : Keeps s₀ a.s) :
    Keeps s₀ (streamTimeChanged a).s := by
  unfold streamTimeChanged; try dsimp only
  (repeat' split) <;> simp -implicitDefEqProofs (maxDischargeDepth := 30) +contextual [hk]

@[simp] theorem keeps_stepSlot (a : Act) (n : SlotIx) (hk : Keeps s₀ a.s) :
    Keeps s₀ (stepSlot a n).s := by
  unfold stepSlot; try dsimp only
  (repeat' split) <;> simp -implicitDefEqProofs (maxDischargeDepth := 30) +contextual [hk]

@[simp] theorem keeps_streamStep (a : Act) (hk : Keeps s₀ a.s) :
    Keeps s₀ (streamStep a).s := by
  unfold streamStep; try dsimp only
  (repeat' split) <;> simp -implicitDefEqProofs (maxDischargeDepth := 30) +contextual [hk]

@[simp] theorem keeps_streamFiring (k : LaneIx) (t : Time) (a : Act) (hk : Keeps s₀ a.s) :
    Keeps s₀ (streamFiring k t a).s := by
  unfold streamFiring; try dsimp only
  (repeat' split) <;> simp -implicitDefEqProofs (maxDischargeDepth := 30) +contextual [hk]

@[simp] theorem keeps_streamRouteChanged (f : FrameNo) (a : Act) (hk : Keeps s₀ a.s) :
    Keeps s₀ (streamRouteChanged f a).s := by
  unfold streamRouteChanged; try dsimp only
  (repeat' split) <;> simp -implicitDefEqProofs (maxDischargeDepth := 30) +contextual [hk]

@[simp] theorem keeps_streamPortLost (p : PortIx) (abandoned : Option LocalCell) (a : Act) (hk : Keeps s₀ a.s) :
    Keeps s₀ (streamPortLost p abandoned a).s := by
  unfold streamPortLost; try dsimp only
  (repeat' split) <;> simp -implicitDefEqProofs (maxDischargeDepth := 30) +contextual [hk]

/-! ## StreamCells -/

@[simp] theorem keeps_unmatched (s : State) (rx : Rx) (h : StreamHead) (answered : Bool) (hk : Keeps s₀ s) :
    Keeps s₀ (unmatched s rx h answered) := by
  have k : Keeps s₀ { s with stream := { s.stream with unmatched := s.stream.unmatched + 1 } } :=
    keeps_of_eq hk rfl rfl rfl rfl rfl rfl rfl (Nat.le_refl _) (Nat.le_refl _) (Nat.le_refl _)
  unfold unmatched; dsimp only
  split
  · exact keeps_sendRouted _ _ _ k
  · exact k

@[simp] theorem keeps_takeMatched (a : Act) (rx : Rx) (h : StreamHead) (answered : Bool) (f : Act → SlotIx → Act)
    (hf : ∀ b x, Keeps s₀ b.s → Keeps s₀ (f b x).s) (hk : Keeps s₀ a.s) :
    Keeps s₀ (takeMatched a rx h answered f).s := by
  unfold takeMatched; try dsimp only
  (repeat' split) <;> simp -implicitDefEqProofs (maxDischargeDepth := 30) +contextual [hk, hf]

@[simp] theorem keeps_answerOpen (s : State) (rx : Rx) (h : StreamHead) (answer : OpenAnswer) (limit : BitVec 32)
    (hk : Keeps s₀ s) :
    Keeps s₀ (answerOpen s rx h answer limit) := by
  unfold answerOpen; try dsimp only
  (repeat' split) <;> simp -implicitDefEqProofs (maxDischargeDepth := 30) +contextual [hk]

@[simp] theorem keeps_answerFrom (s : State) (n : SlotIx) (rx : Rx) (h : StreamHead) (answer : OpenAnswer)
    (limit : BitVec 32) (hk : Keeps s₀ s) :
    Keeps s₀ (answerFrom s n rx h answer limit) := by
  unfold answerFrom; try dsimp only
  (repeat' split) <;> simp -implicitDefEqProofs (maxDischargeDepth := 30) +contextual [hk]

@[simp] theorem keeps_openOffered (a : Act) (n : SlotIx) (rx : Rx) (h : StreamHead) (blockSize pace : Nat)
    (hk : Keeps s₀ a.s) :
    Keeps s₀ (openOffered a n rx h blockSize pace).s := by
  unfold openOffered; try dsimp only
  (repeat' split) <;> simp -implicitDefEqProofs (maxDischargeDepth := 30) +contextual [hk]

@[simp] theorem keeps_takeOpen (rx : Rx) (a : Act) (hk : Keeps s₀ a.s) :
    Keeps s₀ (takeOpen rx a).s := by
  unfold takeOpen; try dsimp only
  (repeat' split) <;> simp -implicitDefEqProofs (maxDischargeDepth := 30) +contextual [hk]

@[simp] theorem keeps_acceptSource (a : Act) (n : SlotIx) (limit : BitVec 32) (hk : Keeps s₀ a.s) :
    Keeps s₀ (acceptSource a n limit).s := by
  unfold acceptSource; try dsimp only
  (repeat' split) <;> simp -implicitDefEqProofs (maxDischargeDepth := 30) +contextual [hk]

@[simp] theorem keeps_sourceAnswer (a : Act) (n : SlotIx) (answer : OpenAnswer) (limit : BitVec 32)
    (hk : Keeps s₀ a.s) :
    Keeps s₀ (sourceAnswer a n answer limit).s := by
  unfold sourceAnswer; try dsimp only
  (repeat' split) <;> simp -implicitDefEqProofs (maxDischargeDepth := 30) +contextual [hk]

@[simp] theorem keeps_takeOpenAnswer (rx : Rx) (a : Act) (hk : Keeps s₀ a.s) :
    Keeps s₀ (takeOpenAnswer rx a).s := by
  unfold takeOpenAnswer; try dsimp only
  (repeat' split) <;> simp -implicitDefEqProofs (maxDischargeDepth := 30) +contextual [hk]

@[simp] theorem keeps_setPeerHalt (a : Act) (n : SlotIx) (on : Bool) (hk : Keeps s₀ a.s) :
    Keeps s₀ (setPeerHalt a n on).s := by
  unfold setPeerHalt; try dsimp only
  (repeat' split) <;> simp -implicitDefEqProofs (maxDischargeDepth := 30) +contextual [hk]

@[simp] theorem keeps_sourceCredit (a : Act) (n : SlotIx) (limit : BitVec 32) (halted : Bool) (hk : Keeps s₀ a.s) :
    Keeps s₀ (sourceCredit a n limit halted).s := by
  unfold sourceCredit; try dsimp only
  (repeat' split) <;> simp -implicitDefEqProofs (maxDischargeDepth := 30) +contextual [hk]

@[simp] theorem keeps_takeCredit (rx : Rx) (a : Act) (hk : Keeps s₀ a.s) :
    Keeps s₀ (takeCredit rx a).s := by
  unfold takeCredit; try dsimp only
  (repeat' split) <;> simp -implicitDefEqProofs (maxDischargeDepth := 30) +contextual [hk]

@[simp] theorem keeps_takeHalt (rx : Rx) (a : Act) (hk : Keeps s₀ a.s) :
    Keeps s₀ (takeHalt rx a).s := by
  unfold takeHalt; try dsimp only
  (repeat' split) <;> simp -implicitDefEqProofs (maxDischargeDepth := 30) +contextual [hk]

@[simp] theorem keeps_takeClose (rx : Rx) (a : Act) (hk : Keeps s₀ a.s) :
    Keeps s₀ (takeClose rx a).s := by
  unfold takeClose; try dsimp only
  (repeat' split) <;> simp -implicitDefEqProofs (maxDischargeDepth := 30) +contextual [hk]

@[simp] theorem keeps_sourceAck (a : Act) (n : SlotIx) (b : BitVec 32) (o : BlockOutcome) (hk : Keeps s₀ a.s) :
    Keeps s₀ (sourceAck a n b o).s := by
  unfold sourceAck; try dsimp only
  (repeat' split) <;> simp -implicitDefEqProofs (maxDischargeDepth := 30) +contextual [hk]

@[simp] theorem keeps_takeBlockack (rx : Rx) (a : Act) (hk : Keeps s₀ a.s) :
    Keeps s₀ (takeBlockack rx a).s := by
  unfold takeBlockack; try dsimp only
  (repeat' split) <;> simp -implicitDefEqProofs (maxDischargeDepth := 30) +contextual [hk]

@[simp] theorem keeps_takeData (rx : Rx) (a : Act) (hk : Keeps s₀ a.s) :
    Keeps s₀ (takeData rx a).s := by
  unfold takeData; try dsimp only
  (repeat' split) <;> simp -implicitDefEqProofs (maxDischargeDepth := 30) +contextual [hk]

end Sys2Proof.Machine
end

