-- ==== Sys2Proof/Laws/KeepsUnits.lean ====
section
/-! SUPPORT. `Keeps` of the trigger, timebase, roster and reach units, the note path and the settings store, one lemma for each operation. -/

namespace Sys2Proof.Machine

variable {s₀ : State}

/-! ## Trigger -/

@[simp] theorem keeps_postTriggers (a : Act) (r : TrigReport) (hk : Keeps s₀ a.s) :
    Keeps s₀ (postTriggers a r).s := by
  unfold postTriggers; try dsimp only
  (repeat' split) <;> simp -implicitDefEqProofs (maxDischargeDepth := 30) +contextual [hk]

@[simp] theorem keeps_reportTriggers (a : Act) (r : TrigReport) (hk : Keeps s₀ a.s) :
    Keeps s₀ (reportTriggers a r).s := by
  unfold reportTriggers; try dsimp only
  (repeat' split) <;> simp -implicitDefEqProofs (maxDischargeDepth := 30) +contextual [hk]

@[simp] theorem keeps_countTrig (a : Act) (f : TriggerCounters → TriggerCounters) (hk : Keeps s₀ a.s) :
    Keeps s₀ (countTrig a f).s := by
  unfold countTrig; try dsimp only
  (repeat' split) <;> simp -implicitDefEqProofs (maxDischargeDepth := 30) +contextual [hk]

theorem length_insertAt (t : Trigger) (xs : List Trigger) : (insertAt t xs).length = xs.length + 1 := by
  induction xs with
  | nil => rfl
  | cons x xs ih =>
    unfold insertAt
    split
    · rfl
    · simp [ih]

/-- A trigger is scheduled only where the Schedule has space (R109). -/
theorem scheduled_room {s : State} {t : Trigger} (h : judgeInsertion s t = .scheduled) :
    s.trig.schedule.length < scheduleCapacity := by
  unfold judgeInsertion at h
  repeat (split at h; · cases h)
  omega

@[simp] theorem keeps_insertTrigger (a : Act) (t : Trigger) (hk : Keeps s₀ a.s) :
    Keeps s₀ (insertTrigger a t).s := by
  unfold insertTrigger
  split
  any_goals simp [hk]
  rename_i e
  refine keeps_modTrig_grow hk ?_
  have := scheduled_room e
  simp only [length_insertAt]
  omega

@[simp] theorem keeps_makeTrigger (a : Act) (k : LaneIx) (fire : Time) (floods : Bool) (hk : Keeps s₀ a.s) :
    Keeps s₀ (makeTrigger a k fire floods).s := by
  unfold makeTrigger; try dsimp only
  (repeat' split) <;> simp -implicitDefEqProofs (maxDischargeDepth := 30) +contextual [hk]

@[simp] theorem keeps_inputEdge (a : Act) (k : LaneIx) (hk : Keeps s₀ a.s) :
    Keeps s₀ (inputEdge a k).s := by
  unfold inputEdge; try dsimp only
  (repeat' split) <;> simp -implicitDefEqProofs (maxDischargeDepth := 30) +contextual [hk]

@[simp] theorem keeps_inputLeaves (s : State) (k : LaneIx) (hk : Keeps s₀ s) :
    Keeps s₀ (inputLeaves s k) := by
  unfold inputLeaves; try dsimp only
  (repeat' split) <;> simp -implicitDefEqProofs (maxDischargeDepth := 30) +contextual [hk]

@[simp] theorem keeps_muteLane (s : State) (k : LaneIx) (hk : Keeps s₀ s) :
    Keeps s₀ (muteLane s k) := by
  unfold muteLane; try dsimp only
  (repeat' split) <;> simp -implicitDefEqProofs (maxDischargeDepth := 30) +contextual [hk]

@[simp] theorem keeps_idleLane (s : State) (k : LaneIx) (hk : Keeps s₀ s) :
    Keeps s₀ (idleLane s k) := by
  unfold idleLane; try dsimp only
  (repeat' split) <;> simp -implicitDefEqProofs (maxDischargeDepth := 30) +contextual [hk]

@[simp] theorem keeps_takeTrig (rx : Rx) (a : Act) (hk : Keeps s₀ a.s) :
    Keeps s₀ (takeTrig rx a).s := by
  unfold takeTrig; try dsimp only
  (repeat' split) <;> simp -implicitDefEqProofs (maxDischargeDepth := 30) +contextual [hk]

@[simp] theorem keeps_fireOne (a : Act) (t : Trigger) (hk : Keeps s₀ a.s) :
    Keeps s₀ (fireOne a t).s := by
  unfold fireOne; try dsimp only
  (repeat' split) <;> simp -implicitDefEqProofs (maxDischargeDepth := 30) +contextual [hk]

@[simp] theorem keeps_fireReached (a : Act) (hk : Keeps s₀ a.s) :
    Keeps s₀ (fireReached a).s := by
  unfold fireReached; dsimp only
  (repeat' split) <;> simp -implicitDefEqProofs (maxDischargeDepth := 30) +contextual [hk, List.length_filter_le]

@[simp] theorem keeps_trigStep (size : Int) (a : Act) (hk : Keeps s₀ a.s) :
    Keeps s₀ (trigStep size a).s := by
  unfold trigStep; dsimp only
  (repeat' split) <;> simp -implicitDefEqProofs (maxDischargeDepth := 30) +contextual [hk, List.length_filter_le]

@[simp] theorem keeps_readLine (s : State) (k : LaneIx) (hk : Keeps s₀ s) :
    Keeps s₀ (readLine s k) := by
  unfold readLine; try dsimp only
  (repeat' split) <;> simp -implicitDefEqProofs (maxDischargeDepth := 30) +contextual [hk]

@[simp] theorem keeps_laneChanged (old : LaneSettings) (k : LaneIx) (s : State) (hk : Keeps s₀ s) :
    Keeps s₀ (laneChanged old k s) := by
  unfold laneChanged; dsimp only
  (repeat' split) <;> simp -implicitDefEqProofs (maxDischargeDepth := 30) +contextual [hk, List.length_filter_le]

@[simp] theorem keeps_judgeHold (s : State) (k : LaneIx) (hk : Keeps s₀ s) :
    Keeps s₀ (judgeHold s k) := by
  unfold judgeHold; try dsimp only
  (repeat' split) <;> simp -implicitDefEqProofs (maxDischargeDepth := 30) +contextual [hk]

@[simp] theorem keeps_trigSettingsChanged (old : Settings) (a : Act) (hk : Keeps s₀ a.s) :
    Keeps s₀ (trigSettingsChanged old a).s := by
  unfold trigSettingsChanged; try dsimp only
  (repeat' split) <;> simp -implicitDefEqProofs (maxDischargeDepth := 30) +contextual [hk]

/-! ## TimeUnit -/

@[simp] theorem keeps_setMaster (s : State) (m : FrameNo) (hk : Keeps s₀ s) :
    Keeps s₀ (setMaster s m) := by
  unfold setMaster; try dsimp only
  (repeat' split) <;> simp -implicitDefEqProofs (maxDischargeDepth := 30) +contextual [hk]

@[simp] theorem keeps_retestMaster (s : State) (hk : Keeps s₀ s) :
    Keeps s₀ (retestMaster s) := by
  unfold retestMaster; try dsimp only
  (repeat' split) <;> simp -implicitDefEqProofs (maxDischargeDepth := 30) +contextual [hk]

@[simp] theorem keeps_mergeMaster (s : State) (hk : Keeps s₀ s) :
    Keeps s₀ (mergeMaster s) := by
  unfold mergeMaster; try dsimp only
  (repeat' split) <;> simp -implicitDefEqProofs (maxDischargeDepth := 30) +contextual [hk]

@[simp] theorem keeps_tbAct (f : Act → Act × Option Int) (a : Act) (hf : ∀ b, Keeps s₀ b.s → Keeps s₀ (f b).1.s)
    (hk : Keeps s₀ a.s) :
    Keeps s₀ (tbAct f a).s := by
  unfold tbAct; try dsimp only
  (repeat' split) <;> simp -implicitDefEqProofs (maxDischargeDepth := 30) +contextual [hk, hf]

@[simp] theorem keeps_tbPlain (f : State → State) (a : Act) (hf : ∀ t, Keeps s₀ t → Keeps s₀ (f t))
    (hk : Keeps s₀ a.s) :
    Keeps s₀ (tbPlain f a).s := by
  unfold tbPlain; try dsimp only
  (repeat' split) <;> simp -implicitDefEqProofs (maxDischargeDepth := 30) +contextual [hk, hf]

@[simp] theorem keeps_timeReachLost (f : FrameNo) (a : Act) (hk : Keeps s₀ a.s) :
    Keeps s₀ (timeReachLost f a).s := by
  unfold timeReachLost; try dsimp only
  (repeat' split) <;> simp -implicitDefEqProofs (maxDischargeDepth := 30) +contextual [hk]

@[simp] theorem keeps_timeReachGained (_f : FrameNo) (a : Act) (hk : Keeps s₀ a.s) :
    Keeps s₀ (timeReachGained _f a).s := by
  unfold timeReachGained; try dsimp only
  (repeat' split) <;> simp -implicitDefEqProofs (maxDischargeDepth := 30) +contextual [hk]

@[simp] theorem keeps_timeAdvert (f : FrameNo) (a : Act) (hk : Keeps s₀ a.s) :
    Keeps s₀ (timeAdvert f a).s := by
  unfold timeAdvert; try dsimp only
  (repeat' split) <;> simp -implicitDefEqProofs (maxDischargeDepth := 30) +contextual [hk]

@[simp] theorem keeps_timeEntryChanged (f : FrameNo) (a : Act) (hk : Keeps s₀ a.s) :
    Keeps s₀ (timeEntryChanged f a).s := by
  unfold timeEntryChanged; try dsimp only
  (repeat' split) <;> simp -implicitDefEqProofs (maxDischargeDepth := 30) +contextual [hk]

@[simp] theorem keeps_timeRetest (a : Act) (hk : Keeps s₀ a.s) :
    Keeps s₀ (timeRetest a).s := by
  unfold timeRetest; try dsimp only
  (repeat' split) <;> simp -implicitDefEqProofs (maxDischargeDepth := 30) +contextual [hk]

@[simp] theorem keeps_timePortLost (p : PortIx) (a : Act) (hk : Keeps s₀ a.s) :
    Keeps s₀ (timePortLost p a).s := by
  unfold timePortLost; try dsimp only
  (repeat' split) <;> simp -implicitDefEqProofs (maxDischargeDepth := 30) +contextual [hk]

@[simp] theorem keeps_timeRenumber (old : FrameNo) (a : Act) (hk : Keeps s₀ a.s) :
    Keeps s₀ (timeRenumber old a).s := by
  unfold timeRenumber; try dsimp only
  (repeat' split) <;> simp -implicitDefEqProofs (maxDischargeDepth := 30) +contextual [hk]

@[simp] theorem keeps_holdoverChanged (a : Act) (hk : Keeps s₀ a.s) :
    Keeps s₀ (holdoverChanged a).s := by
  refine keeps_tbPlain _ a (fun t ht => ?_) hk
  (repeat' split) <;> simp -implicitDefEqProofs (maxDischargeDepth := 30) +contextual [ht]

@[simp] theorem keeps_portsStep (size : Int) (s : State) (hk : Keeps s₀ s) :
    Keeps s₀ (portsStep size s) := by
  refine keeps_foldl hk (fun t p ht => ?_) _
  refine keeps_modLink (keeps_modPort ht p _) p (fun v => ?_)
  simpa [LinkOk, stepLink] using v

@[simp] theorem keeps_doStep (size : Int) (a : Act) (hk : Keeps s₀ a.s) :
    Keeps s₀ (doStep size a).1.s := by
  unfold doStep; try dsimp only
  (repeat' split) <;> simp -implicitDefEqProofs (maxDischargeDepth := 30) +contextual [hk]

@[simp] theorem keeps_acquire (offset : Int) (a : Act) (hk : Keeps s₀ a.s) :
    Keeps s₀ (acquire offset a).1.s := by
  unfold acquire; try dsimp only
  (repeat' split) <;> simp -implicitDefEqProofs (maxDischargeDepth := 30) +contextual [hk]

@[simp] theorem keeps_useTime (rx : Rx) (offset : Int) (a : Act) (hk : Keeps s₀ a.s) :
    Keeps s₀ (useTime rx offset a).1.s := by
  unfold useTime; try dsimp only
  (repeat' split) <;> simp -implicitDefEqProofs (maxDischargeDepth := 30) +contextual [hk]

@[simp] theorem keeps_takeTime (rx : Rx) (a : Act) (hk : Keeps s₀ a.s) :
    Keeps s₀ (takeTime rx a).s := by
  refine keeps_tbAct _ a (fun b hb => ?_) hk
  dsimp only
  split <;> simp -implicitDefEqProofs (maxDischargeDepth := 30) +contextual [hb]

@[simp] theorem keeps_emitTime (s : State) (hk : Keeps s₀ s) :
    Keeps s₀ (emitTime s) := by
  unfold emitTime; try dsimp only
  (repeat' split) <;> simp -implicitDefEqProofs (maxDischargeDepth := 30) +contextual [hk]

/-! ## RosterUnit -/

@[simp] theorem keeps_evaluateStanding (s : State) (hk : Keeps s₀ s) :
    Keeps s₀ (evaluateStanding s) := by
  unfold evaluateStanding; try dsimp only
  (repeat' split) <;> simp -implicitDefEqProofs (maxDischargeDepth := 30) +contextual [hk]

@[simp] theorem keeps_floodRoll (s : State) (hk : Keeps s₀ s) :
    Keeps s₀ (floodRoll s) := by
  unfold floodRoll; try dsimp only
  (repeat' split) <;> simp -implicitDefEqProofs (maxDischargeDepth := 30) +contextual [hk]

@[simp] theorem keeps_issueRoster (s : State) (hk : Keeps s₀ s) :
    Keeps s₀ (issueRoster s) := by
  unfold issueRoster; try dsimp only
  (repeat' split) <;> simp -implicitDefEqProofs (maxDischargeDepth := 30) +contextual [hk]

@[simp] theorem keeps_setAnchor (s : State) (m : FrameNo) (hk : Keeps s₀ s) :
    Keeps s₀ (setAnchor s m) := by
  unfold setAnchor; try dsimp only
  (repeat' split) <;> simp -implicitDefEqProofs (maxDischargeDepth := 30) +contextual [hk]

@[simp] theorem keeps_nameSelf (s : State) (hk : Keeps s₀ s) :
    Keeps s₀ (nameSelf s) := by
  unfold nameSelf; try dsimp only
  (repeat' split) <;> simp -implicitDefEqProofs (maxDischargeDepth := 30) +contextual [hk]

@[simp] theorem keeps_electAnchor (s : State) (hk : Keeps s₀ s) :
    Keeps s₀ (electAnchor s) := by
  unfold electAnchor; try dsimp only
  (repeat' split) <;> simp -implicitDefEqProofs (maxDischargeDepth := 30) +contextual [hk]

@[simp] theorem keeps_retestAnchor (s : State) (hk : Keeps s₀ s) :
    Keeps s₀ (retestAnchor s) := by
  unfold retestAnchor; try dsimp only
  (repeat' split) <;> simp -implicitDefEqProofs (maxDischargeDepth := 30) +contextual [hk]

@[simp] theorem keeps_adoptOrMerge (s : State) (hk : Keeps s₀ s) :
    Keeps s₀ (adoptOrMerge s) := by
  unfold adoptOrMerge; try dsimp only
  (repeat' split) <;> simp -implicitDefEqProofs (maxDischargeDepth := 30) +contextual [hk]

@[simp] theorem keeps_selfAnchor (s : State) (hk : Keeps s₀ s) :
    Keeps s₀ (selfAnchor s) := by
  unfold selfAnchor; try dsimp only
  (repeat' split) <;> simp -implicitDefEqProofs (maxDischargeDepth := 30) +contextual [hk]

@[simp] theorem keeps_sendHello (s : State) (due : Nat) (hk : Keeps s₀ s) :
    Keeps s₀ (sendHello s due) := by
  unfold sendHello; try dsimp only
  (repeat' split) <;> simp -implicitDefEqProofs (maxDischargeDepth := 30) +contextual [hk]

@[simp] theorem keeps_helloOnStanding (before : Standing) (s : State) (hk : Keeps s₀ s) :
    Keeps s₀ (helloOnStanding before s) := by
  unfold helloOnStanding; try dsimp only
  (repeat' split) <;> simp -implicitDefEqProofs (maxDischargeDepth := 30) +contextual [hk]

@[simp] theorem keeps_rosterNotice (a : Act) (changed : List FrameNo) (hk : Keeps s₀ a.s) :
    Keeps s₀ (rosterNotice a changed).s := by
  unfold rosterNotice; try dsimp only
  (repeat' split) <;> simp -implicitDefEqProofs (maxDischargeDepth := 30) +contextual [hk]

@[simp] theorem keeps_rosterAct (f : Act → Act) (a : Act) (hf : ∀ b, Keeps s₀ b.s → Keeps s₀ (f b).s)
    (hk : Keeps s₀ a.s) :
    Keeps s₀ (rosterAct f a).s := by
  unfold rosterAct; try dsimp only
  (repeat' split) <;> simp -implicitDefEqProofs (maxDischargeDepth := 30) +contextual [hk, hf]

@[simp] theorem keeps_rosterPlain (f : State → State) (a : Act) (hf : ∀ t, Keeps s₀ t → Keeps s₀ (f t))
    (hk : Keeps s₀ a.s) :
    Keeps s₀ (rosterPlain f a).s := by
  unfold rosterPlain; try dsimp only
  (repeat' split) <;> simp -implicitDefEqProofs (maxDischargeDepth := 30) +contextual [hk, hf]

@[simp] theorem keeps_setEntryState (s : State) (f : FrameNo) (st : EntryState) (hk : Keeps s₀ s) :
    Keeps s₀ (setEntryState s f st) := by
  unfold setEntryState; try dsimp only
  (repeat' split) <;> simp -implicitDefEqProofs (maxDischargeDepth := 30) +contextual [hk]

@[simp] theorem keeps_markLeaving (s : State) (f : FrameNo) (hk : Keeps s₀ s) :
    Keeps s₀ (markLeaving s f) := by
  unfold markLeaving; try dsimp only
  (repeat' split) <;> simp -implicitDefEqProofs (maxDischargeDepth := 30) +contextual [hk]

@[simp] theorem keeps_strayOnLoss (s : State) (f : FrameNo) (hk : Keeps s₀ s) :
    Keeps s₀ (strayOnLoss s f) := by
  unfold strayOnLoss; try dsimp only
  (repeat' split) <;> simp -implicitDefEqProofs (maxDischargeDepth := 30) +contextual [hk]

@[simp] theorem keeps_rosterReachLost (f : FrameNo) (a : Act) (hk : Keeps s₀ a.s) :
    Keeps s₀ (rosterReachLost f a).s := by
  unfold rosterReachLost; try dsimp only
  (repeat' split) <;> simp -implicitDefEqProofs (maxDischargeDepth := 30) +contextual [hk]

@[simp] theorem keeps_rosterReachGained (f : FrameNo) (a : Act) (hk : Keeps s₀ a.s) :
    Keeps s₀ (rosterReachGained f a).s := by
  unfold rosterReachGained; try dsimp only
  (repeat' split) <;> simp -implicitDefEqProofs (maxDischargeDepth := 30) +contextual [hk]

@[simp] theorem keeps_advertTest (f : FrameNo) (s : State) (hk : Keeps s₀ s) :
    Keeps s₀ (advertTest f s) := by
  unfold advertTest; try dsimp only
  (repeat' split) <;> simp -implicitDefEqProofs (maxDischargeDepth := 30) +contextual [hk]

@[simp] theorem keeps_advertLeaving (f : FrameNo) (s : State) (hk : Keeps s₀ s) :
    Keeps s₀ (advertLeaving f s) := by
  unfold advertLeaving; try dsimp only
  (repeat' split) <;> simp -implicitDefEqProofs (maxDischargeDepth := 30) +contextual [hk]

@[simp] theorem keeps_rosterAdvert (f : FrameNo) (a : Act) (hk : Keeps s₀ a.s) :
    Keeps s₀ (rosterAdvert f a).s := by
  unfold rosterAdvert; try dsimp only
  (repeat' split) <;> simp -implicitDefEqProofs (maxDischargeDepth := 30) +contextual [hk]

@[simp] theorem keeps_rosterRankChanged (a : Act) (hk : Keeps s₀ a.s) :
    Keeps s₀ (rosterRankChanged a).s := by
  unfold rosterRankChanged; try dsimp only
  (repeat' split) <;> simp -implicitDefEqProofs (maxDischargeDepth := 30) +contextual [hk]

@[simp] theorem keeps_rosterRenumber (a : Act) (hk : Keeps s₀ a.s) :
    Keeps s₀ (rosterRenumber a).s := by
  unfold rosterRenumber; try dsimp only
  (repeat' split) <;> simp -implicitDefEqProofs (maxDischargeDepth := 30) +contextual [hk]

@[simp] theorem keeps_replaceCopy (b : List Byte) (s : State) (hk : Keeps s₀ s) :
    Keeps s₀ (replaceCopy b s) := by
  unfold replaceCopy; try dsimp only
  (repeat' split) <;> simp -implicitDefEqProofs (maxDischargeDepth := 30) +contextual [hk]

@[simp] theorem keeps_countRoster (s : State) (f : RosterCounters → RosterCounters) (hk : Keeps s₀ s) :
    Keeps s₀ (countRoster s f) := by
  unfold countRoster; try dsimp only
  (repeat' split) <;> simp -implicitDefEqProofs (maxDischargeDepth := 30) +contextual [hk]

@[simp] theorem keeps_takeRoll (rx : Rx) (a : Act) (hk : Keeps s₀ a.s) :
    Keeps s₀ (takeRoll rx a).s := by
  unfold takeRoll; try dsimp only
  (repeat' split) <;> simp -implicitDefEqProofs (maxDischargeDepth := 30) +contextual [hk]

@[simp] theorem keeps_sendVerdict (s : State) (serial : Serial) (n : FrameNo) (answer : Answer)
    (reason : RefusalReason) (entryFrame : FrameNo) (entryPort : PortIx) (hk : Keeps s₀ s) :
    Keeps s₀ (sendVerdict s serial n answer reason entryFrame entryPort) := by
  unfold sendVerdict; try dsimp only
  (repeat' split) <;> simp -implicitDefEqProofs (maxDischargeDepth := 30) +contextual [hk]

@[simp] theorem keeps_verdictFor (s : State) (n : FrameNo) (answer : Answer) (reason : RefusalReason)
    (hk : Keeps s₀ s) :
    Keeps s₀ (verdictFor s n answer reason) := by
  unfold verdictFor; try dsimp only
  (repeat' split) <;> simp -implicitDefEqProofs (maxDischargeDepth := 30) +contextual [hk]

@[simp] theorem keeps_forwardVerdict (v : VerdictFields) (s : State) (hk : Keeps s₀ s) :
    Keeps s₀ (forwardVerdict v s) := by
  unfold forwardVerdict; try dsimp only
  (repeat' split) <;> simp -implicitDefEqProofs (maxDischargeDepth := 30) +contextual [hk]

@[simp] theorem keeps_candidateVerdict (v : VerdictFields) (s : State) (hk : Keeps s₀ s) :
    Keeps s₀ (candidateVerdict v s) := by
  unfold candidateVerdict; try dsimp only
  (repeat' split) <;> simp -implicitDefEqProofs (maxDischargeDepth := 30) +contextual [hk]

@[simp] theorem keeps_takeVerdict (rx : Rx) (a : Act) (hk : Keeps s₀ a.s) :
    Keeps s₀ (takeVerdict rx a).s := by
  unfold takeVerdict; try dsimp only
  (repeat' split) <;> simp -implicitDefEqProofs (maxDischargeDepth := 30) +contextual [hk]

@[simp] theorem keeps_holdCandidate (s : State) (c : Candidate) (st : EntryState) (deadline : Option Nat)
    (hk : Keeps s₀ s) :
    Keeps s₀ (holdCandidate s c st deadline) := by
  unfold holdCandidate; try dsimp only
  (repeat' split) <;> simp -implicitDefEqProofs (maxDischargeDepth := 30) +contextual [hk]

@[simp] theorem keeps_vacateOthers (s : State) (c : Candidate) (hk : Keeps s₀ s) :
    Keeps s₀ (vacateOthers s c).1 := by
  unfold vacateOthers; try dsimp only
  (repeat' split) <;> simp -implicitDefEqProofs (maxDischargeDepth := 30) +contextual [hk]

/-- The state of a decision keeps what the state before kept. -/
theorem keeps_decide74 (s : State) (c : Candidate) (hk : Keeps s₀ s) : Keeps s₀ (decide74 s c).state := by
  have k := keeps_vacateOthers s c hk
  unfold decide74
  split
  · rename_i d e
    unfold decideKnown at e
    dsimp only at e
    split at e
    · cases e
    · split at e <;> cases e <;> simp -implicitDefEqProofs (maxDischargeDepth := 30) +contextual [hk]
  · dsimp only
    unfold decideRest
    dsimp only
    (repeat' split) <;> simp -implicitDefEqProofs (maxDischargeDepth := 30) +contextual [k]

@[simp] theorem keeps_decideCandidate (c : Candidate) (a : Act) (hk : Keeps s₀ a.s) :
    Keeps s₀ (decideCandidate c a).s := by
  have k (s : State) (hs : Keeps s₀ s) := keeps_decide74 s c hs
  have h (b : Act) (hb : Keeps s₀ b.s) : Keeps s₀ (sendVerdict
      (if (decide74 b.s c).changed = true then issueRoster (decide74 b.s c).state else (decide74 b.s c).state) c.serial
      c.frame (decide74 b.s c).answer (decide74 b.s c).reason c.identity.entryFrame c.identity.entryPort) := by
    simp -implicitDefEqProofs (maxDischargeDepth := 30) +contextual [k _ hb]
  unfold decideCandidate
  dsimp only
  split <;> try rw [post_s]
  all_goals exact keeps_rosterAct _ a (fun b hb => h b hb) hk

@[simp] theorem keeps_dropHello (s : State) (hk : Keeps s₀ s) :
    Keeps s₀ (dropHello s) := by
  unfold dropHello; try dsimp only
  (repeat' split) <;> simp -implicitDefEqProofs (maxDischargeDepth := 30) +contextual [hk]

@[simp] theorem keeps_forwardHello (rx : Rx) (h : HelloFields) (s : State) (hk : Keeps s₀ s) :
    Keeps s₀ (forwardHello rx h s) := by
  unfold forwardHello; try dsimp only
  (repeat' split) <;> simp -implicitDefEqProofs (maxDischargeDepth := 30) +contextual [hk]

@[simp] theorem keeps_takeHello (rx : Rx) (a : Act) (hk : Keeps s₀ a.s) :
    Keeps s₀ (takeHello rx a).s := by
  unfold takeHello; try dsimp only
  (repeat' split) <;> simp -implicitDefEqProofs (maxDischargeDepth := 30) +contextual [hk]

@[simp] theorem keeps_takeLeave (rx : Rx) (a : Act) (hk : Keeps s₀ a.s) :
    Keeps s₀ (takeLeave rx a).s := by
  unfold takeLeave; try dsimp only
  (repeat' split) <;> simp -implicitDefEqProofs (maxDischargeDepth := 30) +contextual [hk]

@[simp] theorem keeps_leaveCheck (a : Act) (hk : Keeps s₀ a.s) :
    Keeps s₀ (leaveCheck a).s := by
  unfold leaveCheck; try dsimp only
  (repeat' split) <;> simp -implicitDefEqProofs (maxDischargeDepth := 30) +contextual [hk]

@[simp] theorem keeps_beginLeave (order : BitVec 32) (s : State) (hk : Keeps s₀ s) :
    Keeps s₀ (beginLeave order s) := by
  unfold beginLeave; try dsimp only
  (repeat' split) <;> simp -implicitDefEqProofs (maxDischargeDepth := 30) +contextual [hk]

@[simp] theorem keeps_expireWindows (a : Act) (hk : Keeps s₀ a.s) :
    Keeps s₀ (expireWindows a).s := by
  unfold expireWindows; try dsimp only
  (repeat' split) <;> simp -implicitDefEqProofs (maxDischargeDepth := 30) +contextual [hk]

/-! ## ReachUnit -/

@[simp] theorem keeps_countReach (s : State) (f : ReachCounters → ReachCounters) (hk : Keeps s₀ s) :
    Keeps s₀ (countReach s f) := by
  unfold countReach; try dsimp only
  (repeat' split) <;> simp -implicitDefEqProofs (maxDischargeDepth := 30) +contextual [hk]

@[simp] theorem keeps_setRoute (s : State) (f : FrameNo) (r : Option Route) (hk : Keeps s₀ s) :
    Keeps s₀ (setRoute s f r) := by
  unfold setRoute; try dsimp only
  (repeat' split) <;> simp -implicitDefEqProofs (maxDischargeDepth := 30) +contextual [hk]

@[simp] theorem keeps_markUnknown (s : State) (f : FrameNo) (hk : Keeps s₀ s) :
    Keeps s₀ (markUnknown s f) := by
  unfold markUnknown; try dsimp only
  (repeat' split) <;> simp -implicitDefEqProofs (maxDischargeDepth := 30) +contextual [hk]

@[simp] theorem keeps_reachLostEvent (a : Act) (f : FrameNo) (hk : Keeps s₀ a.s) :
    Keeps s₀ (reachLostEvent a f).s := by
  unfold reachLostEvent; try dsimp only
  (repeat' split) <;> simp -implicitDefEqProofs (maxDischargeDepth := 30) +contextual [hk]

@[simp] theorem keeps_loseEntries (fs : List FrameNo) (a : Act) (hk : Keeps s₀ a.s) :
    Keeps s₀ (loseEntries fs a).s := by
  unfold loseEntries; try dsimp only
  (repeat' split) <;> simp -implicitDefEqProofs (maxDischargeDepth := 30) +contextual [hk]

@[simp] theorem keeps_reachGainedEvent (f : FrameNo) (a : Act) (hk : Keeps s₀ a.s) :
    Keeps s₀ (reachGainedEvent f a).s := by
  unfold reachGainedEvent; try dsimp only
  (repeat' split) <;> simp -implicitDefEqProofs (maxDischargeDepth := 30) +contextual [hk]

@[simp] theorem keeps_advertEvent (f : FrameNo) (a : Act) (hk : Keeps s₀ a.s) :
    Keeps s₀ (advertEvent f a).s := by
  unfold advertEvent; try dsimp only
  (repeat' split) <;> simp -implicitDefEqProofs (maxDischargeDepth := 30) +contextual [hk]

@[simp] theorem keeps_routeChangedEvent (f : FrameNo) (old : PortIx) (a : Act) (hk : Keeps s₀ a.s) :
    Keeps s₀ (routeChangedEvent f old a).s := by
  refine keeps_streamRouteChanged _ _ (keeps_modLink hk _ (fun v => ?_))
  obtain ⟨h1, h2, h3⟩ := v
  exact ⟨h1, h2, Nat.le_trans (List.length_filter_le _ _) h3⟩

@[simp] theorem keeps_originateBeacon (s : State) (hk : Keeps s₀ s) :
    Keeps s₀ (originateBeacon s) := by
  unfold originateBeacon; try dsimp only
  (repeat' split) <;> simp -implicitDefEqProofs (maxDischargeDepth := 30) +contextual [hk]

@[simp] theorem keeps_learnBeacon (rx : Rx) (a : Act) (hk : Keeps s₀ a.s) :
    Keeps s₀ (learnBeacon rx a).s := by
  unfold learnBeacon; try dsimp only
  (repeat' split) <;> simp -implicitDefEqProofs (maxDischargeDepth := 30) +contextual [hk]

@[simp] theorem keeps_takeBeacon (rx : Rx) (a : Act) (hk : Keeps s₀ a.s) :
    Keeps s₀ (takeBeacon rx a).s := by
  unfold takeBeacon; try dsimp only
  (repeat' split) <;> simp -implicitDefEqProofs (maxDischargeDepth := 30) +contextual [hk]

@[simp] theorem keeps_takeOffer (rx : Rx) (a : Act) (hk : Keeps s₀ a.s) :
    Keeps s₀ (takeOffer rx a).s := by
  unfold takeOffer; try dsimp only
  (repeat' split) <;> simp -implicitDefEqProofs (maxDischargeDepth := 30) +contextual [hk]

@[simp] theorem keeps_ageTable (a : Act) (hk : Keeps s₀ a.s) :
    Keeps s₀ (ageTable a).s := by
  unfold ageTable
  dsimp only
  refine keeps_loseEntries _ _ ?_
  rw [on_s]
  apply keeps_foldl hk
  intro t f ht
  (repeat' split) <;> simp -implicitDefEqProofs (maxDischargeDepth := 30) +contextual [ht]

@[simp] theorem keeps_setPort (s : State) (p : PortIx) (up : Bool) (hk : Keeps s₀ s) :
    Keeps s₀ (setPort s p up) := by
  unfold setPort; try dsimp only
  (repeat' split) <;> simp -implicitDefEqProofs (maxDischargeDepth := 30) +contextual [hk]

@[simp] theorem keeps_reachPortLost (p : PortIx) (a : Act) (hk : Keeps s₀ a.s) :
    Keeps s₀ (reachPortLost p a).s := by
  unfold reachPortLost; try dsimp only
  (repeat' split) <;> simp -implicitDefEqProofs (maxDischargeDepth := 30) +contextual [hk]

@[simp] theorem keeps_clearAllFlood (s : State) (hk : Keeps s₀ s) :
    Keeps s₀ (clearAllFlood s) := by
  unfold clearAllFlood; try dsimp only
  (repeat' split) <;> simp -implicitDefEqProofs (maxDischargeDepth := 30) +contextual [hk]

/-! ## PortEvents -/

@[simp] theorem keeps_flushPort (p : PortIx) (a : Act) (hk : Keeps s₀ a.s) :
    Keeps s₀ (flushPort p a).s := by
  refine keeps_streamPortLost _ _ _ (keeps_modLink hk _ (fun _ => ?_))
  exact ⟨Nat.zero_le _, Nat.zero_le _, Nat.zero_le _⟩

@[simp] theorem keeps_portLossEvent (p : PortIx) (a : Act) (hk : Keeps s₀ a.s) :
    Keeps s₀ (portLossEvent p a).s := by
  unfold portLossEvent; try dsimp only
  (repeat' split) <;> simp -implicitDefEqProofs (maxDischargeDepth := 30) +contextual [hk]

@[simp] theorem keeps_portGainedEvent (p : PortIx) (a : Act) (hk : Keeps s₀ a.s) :
    Keeps s₀ (portGainedEvent p a).s := by
  exact keeps_setPort _ _ _ (keeps_modLink hk _ (fun v => ⟨v.1, v.2.1, v.2.2⟩))

@[simp] theorem keeps_dropLine (p : PortIx) (s : State) (hk : Keeps s₀ s) :
    Keeps s₀ (dropLine p s) := by
  exact keeps_modLink hk _ (fun v => ⟨v.1, v.2.1, v.2.2⟩)

@[simp] theorem keeps_changePort (p : PortIx) (st : PortState) (cause : PortCause) (a : Act) (hk : Keeps s₀ a.s) :
    Keeps s₀ (changePort p st cause a).s := by
  unfold changePort; try dsimp only
  (repeat' split) <;> simp -implicitDefEqProofs (maxDischargeDepth := 30) +contextual [hk]

@[simp] theorem keeps_failTraining (p : PortIx) (cause : PortCause) (a : Act) (hk : Keeps s₀ a.s) :
    Keeps s₀ (failTraining p cause a).s := by
  unfold failTraining; try dsimp only
  (repeat' split) <;> simp -implicitDefEqProofs (maxDischargeDepth := 30) +contextual [hk]

@[simp] theorem keeps_tryTrained (p : PortIx) (a : Act) (hk : Keeps s₀ a.s) :
    Keeps s₀ (tryTrained p a).s := by
  unfold tryTrained; try dsimp only
  (repeat' split) <;> simp -implicitDefEqProofs (maxDischargeDepth := 30) +contextual [hk]

@[simp] theorem keeps_holdPort (p : PortIx) (a : Act) (hk : Keeps s₀ a.s) :
    Keeps s₀ (holdPort p a).s := by
  unfold holdPort; try dsimp only
  (repeat' split) <;> simp -implicitDefEqProofs (maxDischargeDepth := 30) +contextual [hk]

@[simp] theorem keeps_releasePort (p : PortIx) (a : Act) (hk : Keeps s₀ a.s) :
    Keeps s₀ (releasePort p a).s := by
  unfold releasePort; try dsimp only
  (repeat' split) <;> simp -implicitDefEqProofs (maxDischargeDepth := 30) +contextual [hk]

/-! ## Transmit -/

@[simp] theorem keeps_reportDeparture (s : State) (p : PortIx) (c : Cell) (hk : Keeps s₀ s) :
    Keeps s₀ (reportDeparture s p c) := by
  unfold reportDeparture; try dsimp only
  (repeat' split) <;> simp -implicitDefEqProofs (maxDischargeDepth := 30) +contextual [hk]

@[simp] theorem keeps_startCell (s : State) (p : PortIx) (turn : Fin 65) (c : Cell) (src : Option LocalCell)
    (hk : Keeps s₀ s) :
    Keeps s₀ (startCell s p turn c src) := by
  exact keeps_reportDeparture _ _ _ (keeps_modLink hk _ (fun v => ⟨v.1, v.2.1, v.2.2⟩))

theorem setQueue_drop_ok (l : Link) (c : TxClass) (h : LinkOk l) : LinkOk (setQueue l c ((queueOf l c).drop 1)) := by
  obtain ⟨h1, h2, h3⟩ := h
  cases c <;> simp only [LinkOk, setQueue, queueOf, List.length_drop] <;> omega

@[simp] theorem keeps_takeGrant (s : State) (p : PortIx) (turn : Fin 65) (g : Grant) (hk : Keeps s₀ s) :
    Keeps s₀ (takeGrant s p turn g) := by
  unfold takeGrant
  dsimp only
  split
  · exact keeps_startCell _ _ _ _ _ (keeps_modLink hk p (setQueue_drop_ok _ _))
  · exact keeps_startCell _ _ _ _ _ (keeps_modSlot hk _ _)

@[simp] theorem keeps_arbiterDecision (s : State) (p : PortIx) (hk : Keeps s₀ s) :
    Keeps s₀ (arbiterDecision s p) := by
  unfold arbiterDecision; try dsimp only
  (repeat' split) <;> simp -implicitDefEqProofs (maxDischargeDepth := 30) +contextual [hk]

@[simp] theorem keeps_dataCellSent (p : PortIx) (a : Act) (hk : Keeps s₀ a.s) :
    Keeps s₀ (dataCellSent p a).s := by
  unfold dataCellSent
  split
  · exact hk
  · split
    · exact hk
    · exact keeps_cellSent _ _ _ (keeps_modLink (keeps_advanceTo hk _) _ (fun v => ⟨v.1, v.2.1, v.2.2⟩))

/-! ## NotePath -/

@[simp] theorem keeps_countNotes (s : State) (f : NoteCounters → NoteCounters) (hk : Keeps s₀ s) :
    Keeps s₀ (countNotes s f) := by
  unfold countNotes; try dsimp only
  (repeat' split) <;> simp -implicitDefEqProofs (maxDischargeDepth := 30) +contextual [hk]

@[simp] theorem sendRouted_notes (s : State) (f : FrameNo) (c : Cell) : (sendRouted s f c).notes = s.notes := by
  unfold sendRouted; split <;> rfl

theorem keeps_sendNote (s : State) (o : Order) (dest : FrameNo) (body : List Byte) (hr : noteRoom s = true)
    (hk : Keeps s₀ s) : Keeps s₀ (sendNote s o dest body) := by
  refine keeps_modNotes_grow (keeps_sendRouted _ _ _ hk) ?_
  simp only [noteRoom, decide_eq_true_eq] at hr
  simp only [sendRouted_notes, List.length_append, List.length_singleton]
  omega

theorem keeps_takeNoteOrder (a : Act) (o : Order) (hr : noteRoom a.s = true) (hk : Keeps s₀ a.s) :
    Keeps s₀ (takeNoteOrder a o).s := by
  unfold takeNoteOrder; dsimp only
  (repeat' split) <;> try simp -implicitDefEqProofs (maxDischargeDepth := 30) +contextual [hk]
  exact keeps_sendNote _ _ _ _ hr (keeps_holdOrder _ _ hk)

@[simp] theorem keeps_noteOrder (a : Act) (o : Order) (hk : Keeps s₀ a.s) :
    Keeps s₀ (noteOrder a o).s := by
  unfold noteOrder
  split
  · simp -implicitDefEqProofs (maxDischargeDepth := 30) +contextual [hk]
  · split
    · rename_i hr
      exact keeps_takeNoteOrder a o hr.1 hk
    · simp -implicitDefEqProofs (maxDischargeDepth := 30) +contextual [hk]

@[simp] theorem keeps_takeWaitingNote (a : Act) (hk : Keeps s₀ a.s) :
    Keeps s₀ (takeWaitingNote a).s := by
  unfold takeWaitingNote
  split
  · exact hk
  · rename_i hr
    have hn : noteRoom a.s = true := by simpa using hr
    split
    · exact hk
    · dsimp only
      split
      · simp -implicitDefEqProofs (maxDischargeDepth := 30) +contextual [hk]
      · refine keeps_takeNoteOrder _ _ hn ?_
        simp -implicitDefEqProofs (maxDischargeDepth := 30) +contextual [hk]

@[simp] theorem keeps_answerNote (s : State) (rx : Rx) (number : BitVec 16) (answer : NoteAnswer) (slot : Nat)
    (hk : Keeps s₀ s) :
    Keeps s₀ (answerNote s rx number answer slot) := by
  unfold answerNote; try dsimp only
  (repeat' split) <;> simp -implicitDefEqProofs (maxDischargeDepth := 30) +contextual [hk]

@[simp] theorem keeps_holdInbox (s : State) (k : InboxIx) (full : Bool) (hk : Keeps s₀ s) :
    Keeps s₀ (holdInbox s k full) := by
  unfold holdInbox; try dsimp only
  (repeat' split) <;> simp -implicitDefEqProofs (maxDischargeDepth := 30) +contextual [hk]

@[simp] theorem keeps_countAnswer (s : State) (rx : Rx) (f : NoteCounters → NoteCounters) (hk : Keeps s₀ s) :
    Keeps s₀ (countAnswer s rx f) := by
  unfold countAnswer; try dsimp only
  (repeat' split) <;> simp -implicitDefEqProofs (maxDischargeDepth := 30) +contextual [hk]

@[simp] theorem keeps_noteNotAttached (s : State) (rx : Rx) (number : BitVec 16) (hk : Keeps s₀ s) :
    Keeps s₀ (noteNotAttached s rx number) := by
  unfold noteNotAttached; try dsimp only
  (repeat' split) <;> simp -implicitDefEqProofs (maxDischargeDepth := 30) +contextual [hk]

@[simp] theorem keeps_noteBusy (s : State) (rx : Rx) (number : BitVec 16) (hk : Keeps s₀ s) :
    Keeps s₀ (noteBusy s rx number) := by
  unfold noteBusy; try dsimp only
  (repeat' split) <;> simp -implicitDefEqProofs (maxDischargeDepth := 30) +contextual [hk]

@[simp] theorem keeps_writeNote (a : Act) (rx : Rx) (number : BitVec 16) (k : InboxIx) (hk : Keeps s₀ a.s) :
    Keeps s₀ (writeNote a rx number k).s := by
  have kw := keeps_writeRuns hk (noteSlotRuns a.s rx k)
  unfold writeNote
  split <;> rename_i e <;> rw [e] at kw <;> simp -implicitDefEqProofs (maxDischargeDepth := 30) +contextual [kw]

@[simp] theorem keeps_takeNote (rx : Rx) (a : Act) (hk : Keeps s₀ a.s) :
    Keeps s₀ (takeNote rx a).s := by
  unfold takeNote; try dsimp only
  (repeat' split) <;> simp -implicitDefEqProofs (maxDischargeDepth := 30) +contextual [hk]

@[simp] theorem keeps_removeNote (s : State) (e : NoteEntry) (hk : Keeps s₀ s) :
    Keeps s₀ (removeNote s e) := by
  unfold removeNote; simp -implicitDefEqProofs (maxDischargeDepth := 30) +contextual [hk, List.length_filter_le]

@[simp] theorem keeps_resolveNote (a : Act) (e : NoteEntry) (answer : NoteAnswer) (slot : Nat) (hk : Keeps s₀ a.s) :
    Keeps s₀ (resolveNote a e answer slot).s := by
  unfold resolveNote; try dsimp only
  (repeat' split) <;> simp -implicitDefEqProofs (maxDischargeDepth := 30) +contextual [hk]

@[simp] theorem keeps_takeNoteAnswer (rx : Rx) (a : Act) (hk : Keeps s₀ a.s) :
    Keeps s₀ (takeNoteAnswer rx a).s := by
  unfold takeNoteAnswer; try dsimp only
  (repeat' split) <;> simp -implicitDefEqProofs (maxDischargeDepth := 30) +contextual [hk]

@[simp] theorem keeps_expireNote (e : NoteEntry) (a : Act) (hk : Keeps s₀ a.s) :
    Keeps s₀ (expireNote e a).s := by
  unfold expireNote; try dsimp only
  (repeat' split) <;> simp -implicitDefEqProofs (maxDischargeDepth := 30) +contextual [hk]

/-! ## SettingsUnit -/

@[simp] theorem keeps_storeAct (f : Act → Act) (a : Act) (hf : ∀ b, Keeps s₀ b.s → Keeps s₀ (f b).s)
    (hk : Keeps s₀ a.s) :
    Keeps s₀ (storeAct f a).s := by
  unfold storeAct; try dsimp only
  (repeat' split) <;> simp -implicitDefEqProofs (maxDischargeDepth := 30) +contextual [hk, hf]

@[simp] theorem keeps_frameChanged (old : FrameNo) (a : Act) (hk : Keeps s₀ a.s) :
    Keeps s₀ (frameChanged old a).s := by
  unfold frameChanged; try dsimp only
  (repeat' split) <;> simp -implicitDefEqProofs (maxDischargeDepth := 30) +contextual [hk]

@[simp] theorem keeps_enableChanged (p : PortIx) (on : Bool) (a : Act) (hk : Keeps s₀ a.s) :
    Keeps s₀ (enableChanged p on a).s := by
  unfold enableChanged; try dsimp only
  (repeat' split) <;> simp -implicitDefEqProofs (maxDischargeDepth := 30) +contextual [hk]

@[simp] theorem keeps_eachPort (f : Port → Port) (s : State) (hk : Keeps s₀ s) :
    Keeps s₀ (eachPort f s) := by
  unfold eachPort; try dsimp only
  (repeat' split) <;> simp -implicitDefEqProofs (maxDischargeDepth := 30) +contextual [hk]

@[simp] theorem keeps_takeChanges (old : Settings) (a : Act) (hk : Keeps s₀ a.s) :
    Keeps s₀ (takeChanges old a).s := by
  unfold takeChanges; try dsimp only
  (repeat' split) <;> simp -implicitDefEqProofs (maxDischargeDepth := 30) +contextual [hk]

@[simp] theorem setWorking_identity (w : Settings) (x : SettingsStore) : (setWorking w x).identity = x.identity := by
  unfold setWorking; split <;> rfl

@[simp] theorem setWorking_incarnation (w : Settings) (x : SettingsStore) :
    (setWorking w x).incarnation = x.incarnation := by
  unfold setWorking; split <;> rfl

@[simp] theorem keeps_applySettings (mask : Nat) (b : List Byte) (a : Act) (hk : Keeps s₀ a.s) :
    Keeps s₀ (applySettings mask b a).s := by
  refine keeps_takeChanges _ _ (keeps_storeAct _ a (fun b hb => ?_) hk)
  simp -implicitDefEqProofs (maxDischargeDepth := 30) +contextual [hb]

@[simp] theorem keeps_judgeImage (a : Act) (o : Order) (mask : Nat) (b : List Byte) (hk : Keeps s₀ a.s) :
    Keeps s₀ (judgeImage a o mask b).s := by
  unfold judgeImage; try dsimp only
  (repeat' split) <;> simp -implicitDefEqProofs (maxDischargeDepth := 30) +contextual [hk]

@[simp] theorem keeps_settingsOrder (a : Act) (o : Order) (hk : Keeps s₀ a.s) :
    Keeps s₀ (settingsOrder a o).s := by
  unfold settingsOrder; try dsimp only
  (repeat' split) <;> simp -implicitDefEqProofs (maxDischargeDepth := 30) +contextual [hk]

@[simp] theorem keeps_filterOrder (a : Act) (o : Order) (hk : Keeps s₀ a.s) :
    Keeps s₀ (filterOrder a o).s := by
  unfold filterOrder; try dsimp only
  (repeat' split) <;> simp -implicitDefEqProofs (maxDischargeDepth := 30) +contextual [hk]

@[simp] theorem keeps_storeOrder (a : Act) (o : Order) (hk : Keeps s₀ a.s) :
    Keeps s₀ (storeOrder a o).s := by
  unfold storeOrder
  split
  · simp -implicitDefEqProofs (maxDischargeDepth := 30) +contextual [hk]
  · refine keeps_storeAct _ a (fun b hb => ?_) hk
    exact keeps_modStore (keeps_holdOrder _ _ hb) rfl rfl

@[simp] theorem endStore_identity (t : Storing) (v : Bool) (x : SettingsStore) :
    (endStore t v x).identity = x.identity := by unfold endStore; split <;> rfl

@[simp] theorem endStore_incarnation (t : Storing) (v : Bool) (x : SettingsStore) :
    (endStore t v x).incarnation = x.incarnation := by unfold endStore; split <;> rfl

@[simp] theorem keeps_storeEnd (verified : Bool) (a : Act) (hk : Keeps s₀ a.s) :
    Keeps s₀ (storeEnd verified a).s := by
  unfold storeEnd
  split
  · exact hk
  · rename_i t _
    have k : Keeps s₀ (storeAct (fun a => a.on (·.modStore (endStore t verified))) a).s :=
      keeps_storeAct _ a (fun b hb => by simp -implicitDefEqProofs (maxDischargeDepth := 30) +contextual [hb]) hk
    dsimp only
    split <;> simp -implicitDefEqProofs (maxDischargeDepth := 30) +contextual [k]

end Sys2Proof.Machine
end

