-- ==== Sys2Proof/Laws/KeepsExchange.lean ====
section
/-! SUPPORT. `Keeps` of receive, the exchange unit and the commands, one lemma for each operation. -/

namespace Sys2Proof.Machine

variable {s₀ : State}

/-! ## Receive -/

@[simp] theorem keeps_takeErrorReport (p : PortIx) (null : Bool) (a : Act) (hk : Keeps s₀ a.s) :
    Keeps s₀ (takeErrorReport p null a).s := by
  unfold takeErrorReport; try dsimp only
  (repeat' split) <;> simp -implicitDefEqProofs (maxDischargeDepth := 30) +contextual [hk]

@[simp] theorem keeps_erroneous (p : PortIx) (e : RxError) (null : Bool) (a : Act) (hk : Keeps s₀ a.s) :
    Keeps s₀ (erroneous p e null a).s := by
  unfold erroneous; try dsimp only
  (repeat' split) <;> simp -implicitDefEqProofs (maxDischargeDepth := 30) +contextual [hk]

@[simp] theorem keeps_sendEcho (s : State) (f : ProbeFields) (rx : Rx) (hk : Keeps s₀ s) :
    Keeps s₀ (sendEcho s f rx) := by
  unfold sendEcho; try dsimp only
  (repeat' split) <;> simp -implicitDefEqProofs (maxDischargeDepth := 30) +contextual [hk]

@[simp] theorem keeps_takeProbe (rx : Rx) (a : Act) (hk : Keeps s₀ a.s) :
    Keeps s₀ (takeProbe rx a).s := by
  unfold takeProbe; try dsimp only
  (repeat' split) <;> simp -implicitDefEqProofs (maxDischargeDepth := 30) +contextual [hk]

@[simp] theorem keeps_takeEcho (rx : Rx) (a : Act) (hk : Keeps s₀ a.s) :
    Keeps s₀ (takeEcho rx a).s := by
  unfold takeEcho; try dsimp only
  (repeat' split) <;> simp -implicitDefEqProofs (maxDischargeDepth := 30) +contextual [hk]

@[simp] theorem keeps_takeFlood (k : Kind) (rx : Rx) (owner : Act → Act) (a : Act)
    (howner : ∀ b, Keeps s₀ b.s → Keeps s₀ (owner b).s) (hk : Keeps s₀ a.s) :
    Keeps s₀ (takeFlood k rx owner a).s := by
  unfold takeFlood; try dsimp only
  (repeat' split) <;> simp -implicitDefEqProofs (maxDischargeDepth := 30) +contextual [hk, howner]

@[simp] theorem keeps_sortCell (k : Kind) (rx : Rx) (owner : Act → Act) (a : Act)
    (howner : ∀ b, Keeps s₀ b.s → Keeps s₀ (owner b).s) (hk : Keeps s₀ a.s) :
    Keeps s₀ (sortCell k rx owner a).s := by
  unfold sortCell; try dsimp only
  (repeat' split) <;> simp -implicitDefEqProofs (maxDischargeDepth := 30) +contextual [hk, howner]

@[simp] theorem keeps_receive (k : Kind) (rx : Rx) (owner : Act → Act) (a : Act)
    (howner : ∀ b, Keeps s₀ b.s → Keeps s₀ (owner b).s) (hk : Keeps s₀ a.s) :
    Keeps s₀ (receive k rx owner a).s := by
  unfold receive; try dsimp only
  (repeat' split) <;> simp -implicitDefEqProofs (maxDischargeDepth := 30) +contextual [hk, howner]

/-! ## Lanes -/

@[simp] theorem keeps_setLane (s : State) (k : NoticeIx) (b : LaneBelief) (hk : Keeps s₀ s) :
    Keeps s₀ (setLane s k b) := by
  unfold setLane; try dsimp only
  (repeat' split) <;> simp -implicitDefEqProofs (maxDischargeDepth := 30) +contextual [hk]

@[simp] theorem keeps_writeLane (s : State) (k : NoticeIx) (p : PendingNotice) (hk : Keeps s₀ s) :
    Keeps s₀ (writeLane s k p).1 := by
  have kw := keeps_writeRuns hk (laneRuns s k p)
  unfold writeLane
  split <;> rename_i e <;> rw [e] at kw <;> simp -implicitDefEqProofs (maxDischargeDepth := 30) +contextual [kw]

@[simp] theorem keeps_laneTake (s : State) (k : NoticeIx) (n : Notice) (hk : Keeps s₀ s) :
    Keeps s₀ (laneTake s k n).1 := by
  unfold laneTake; try dsimp only
  (repeat' split) <;> simp -implicitDefEqProofs (maxDischargeDepth := 30) +contextual [hk]

@[simp] theorem keeps_closeAllForExchange (reason : CloseReason) (cause : StreamCause) (s : State) (hk : Keeps s₀ s) :
    Keeps s₀ (closeAllForExchange reason cause s) := by
  unfold closeAllForExchange; try dsimp only
  (repeat' split) <;> simp -implicitDefEqProofs (maxDischargeDepth := 30) +contextual [hk]

@[simp] theorem keeps_abandonOrders (s : State) (hk : Keeps s₀ s) :
    Keeps s₀ (abandonOrders s) := by
  exact keeps_of_eq hk rfl rfl rfl rfl rfl rfl rfl (Nat.zero_le _) (Nat.le_refl _) (Nat.zero_le _)

@[simp] theorem keeps_enterBroken (s : State) (hk : Keeps s₀ s) :
    Keeps s₀ (enterBroken s) := by
  unfold enterBroken; try dsimp only
  (repeat' split) <;> simp -implicitDefEqProofs (maxDischargeDepth := 30) +contextual [hk]

@[simp] theorem keeps_takeErrors (s : State) (n : Notice) (hk : Keeps s₀ s) :
    Keeps s₀ (takeErrors s n) := by
  unfold takeErrors
  split
  · exact hk
  · have kw := keeps_laneTake (s.modEx (fun e => { e with errorsPosted := e.errorsPosted + 1 })) errorsLane n
      (keeps_modEx hk (Nat.le_refl _))
    split <;> rename_i e <;> rw [e] at kw <;> simp -implicitDefEqProofs (maxDischargeDepth := 30) +contextual [kw]

theorem keeps_laneFault (k : NoticeIx) (r : State × Option Nat) (hk : Keeps s₀ r.1) : Keeps s₀ (laneFault k r) := by
  obtain ⟨s, o⟩ := r
  cases o with
  | none => exact hk
  | some x =>
    unfold laneFault
    dsimp only
    split
    · exact keeps_enterBroken _ hk
    · exact keeps_takeErrors _ _ hk

@[simp] theorem keeps_takeNotice (s : State) (n : Notice) (hk : Keeps s₀ s) :
    Keeps s₀ (takeNotice s n) := by
  unfold takeNotice
  dsimp only
  (repeat' split)
  · exact keeps_takeErrors _ _ hk
  · exact hk
  · exact keeps_laneFault _ _ (keeps_laneTake _ _ _ hk)

@[simp] theorem keeps_writeArea (s : State) (w : What) (address : Nat) (bs : List Byte) (hk : Keeps s₀ s) :
    Keeps s₀ (writeArea s w address bs) := by
  unfold writeArea
  split
  · exact hk
  · split
    · exact keeps_writeHost hk ‹_›
    · exact keeps_takeErrors _ _ hk

@[simp] theorem keeps_writeMirror (s : State) (m : Mirror) (hk : Keeps s₀ s) :
    Keeps s₀ (writeMirror s m) := by
  unfold writeMirror; try dsimp only
  (repeat' split) <;> simp -implicitDefEqProofs (maxDischargeDepth := 30) +contextual [hk]

@[simp] theorem keeps_writeStatus (s : State) (n : SlotIx) (hk : Keeps s₀ s) :
    Keeps s₀ (writeStatus s n) := by
  unfold writeStatus; try dsimp only
  (repeat' split) <;> simp -implicitDefEqProofs (maxDischargeDepth := 30) +contextual [hk]

@[simp] theorem keeps_deliver (s : State) (p : Post) (hk : Keeps s₀ s) :
    Keeps s₀ (deliver s p) := by
  unfold deliver; try dsimp only
  (repeat' split) <;> simp -implicitDefEqProofs (maxDischargeDepth := 30) +contextual [hk]

@[simp] theorem keeps_finish (a : Act) (hk : Keeps s₀ a.s) :
    Keeps s₀ (finish a) := by
  unfold finish; try dsimp only
  (repeat' split) <;> simp -implicitDefEqProofs (maxDischargeDepth := 30) +contextual [hk]

/-! ## ExchangeUnit -/

@[simp] theorem keeps_attached (a : Act) (head : BitVec 64) (hk : Keeps s₀ a.s) :
    Keeps s₀ (attached a head).s := by
  unfold attached; try dsimp only
  (repeat' split) <;> simp -implicitDefEqProofs (maxDischargeDepth := 30) +contextual [hk]

@[simp] theorem keeps_stall (a : Act) (x : StallAccess) (c : StallCause) (k : ErrorKind) (w : What) (address : Nat)
    (hk : Keeps s₀ a.s) :
    Keeps s₀ (stall a x c k w address).s := by
  unfold stall; try dsimp only
  (repeat' split) <;> simp -implicitDefEqProofs (maxDischargeDepth := 30) +contextual [hk]

@[simp] theorem keeps_readHeader (a : Act) (hk : Keeps s₀ a.s) :
    Keeps s₀ (readHeader a).s := by
  unfold readHeader; try dsimp only
  (repeat' split) <;> simp -implicitDefEqProofs (maxDischargeDepth := 30) +contextual [hk]

@[simp] theorem keeps_detach (fault : Bool) (s : State) (hk : Keeps s₀ s) :
    Keeps s₀ (detach fault s) := by
  unfold detach; try dsimp only
  (repeat' split) <;> simp -implicitDefEqProofs (maxDischargeDepth := 30) +contextual [hk]

@[simp] theorem keeps_attach (lo : BitVec 32) (a : Act) (hk : Keeps s₀ a.s) :
    Keeps s₀ (attach lo a).s := by
  unfold attach
  generalize attachAddress a.s.ex lo = n
  dsimp only
  split
  · exact keeps_detach _ _ hk
  · split
    · exact keeps_detach _ _ hk
    · refine keeps_readHeader _ ?_
      rw [on_s]
      exact keeps_modEx (keeps_detach _ _ hk) (Nat.le_refl _)

@[simp] theorem keeps_clearExchange (s : State) (hk : Keeps s₀ s) :
    Keeps s₀ (clearExchange s) := by
  exact keeps_of_eq hk rfl rfl rfl rfl rfl rfl rfl (Nat.zero_le _) (Nat.le_refl _) (Nat.le_refl _)

@[simp] theorem keeps_exchangeReset (s : State) (hk : Keeps s₀ s) :
    Keeps s₀ (exchangeReset s) := by
  unfold exchangeReset; try dsimp only
  (repeat' split) <;> simp -implicitDefEqProofs (maxDischargeDepth := 30) +contextual [hk]

@[simp] theorem keeps_writeBaseLo (lo : BitVec 32) (a : Act) (hk : Keeps s₀ a.s) :
    Keeps s₀ (writeBaseLo lo a).s := by
  unfold writeBaseLo
  dsimp only
  refine keeps_attach _ _ ?_
  rw [on_s]
  refine keeps_modEx ?_ (Nat.le_refl _)
  split
  · exact hk
  · rw [on_s]
    exact keeps_exchangeReset _ hk

theorem keeps_fetchOrder (a : Act) (address : BitVec 64) (b : List Byte) (hr : orderRoom a.s.ex = true)
    (hk : Keeps s₀ a.s) : Keeps s₀ (fetchOrder a address b).s := by
  have k : Keeps s₀ (a.s.modEx (fun e => { e with
      window := e.window ++ [orderOf address b]
      lastSequence := some (orderOf address b).sequence
      chain := .last address (BitVec.ofNat 64 (leAt b 0 8))
      notPosted := false })) := by
    refine keeps_modEx_grow hk ?_
    simp only [orderRoom, decide_eq_true_eq] at hr
    simp only [List.length_append, List.length_singleton]
    omega
  unfold fetchOrder
  dsimp only
  split
  · exact keeps_setMark _ _ k
  · exact k

@[simp] theorem keeps_readOrder (address : BitVec 64) (a : Act) (hk : Keeps s₀ a.s) :
    Keeps s₀ (readOrder address a).s := by
  unfold readOrder
  split
  · exact hk
  · rename_i hr
    (repeat' split) <;> try simp -implicitDefEqProofs (maxDischargeDepth := 30) +contextual [hk]
    exact keeps_fetchOrder _ _ _ (by simpa using hr) hk

@[simp] theorem keeps_orderFetch (a : Act) (hk : Keeps s₀ a.s) :
    Keeps s₀ (orderFetch a).s := by
  unfold orderFetch; try dsimp only
  (repeat' split) <;> simp -implicitDefEqProofs (maxDischargeDepth := 30) +contextual [hk]

@[simp] theorem keeps_rereadTail (a : Act) (hk : Keeps s₀ a.s) :
    Keeps s₀ (rereadTail a).s := by
  unfold rereadTail; try dsimp only
  (repeat' split) <;> simp -implicitDefEqProofs (maxDischargeDepth := 30) +contextual [hk]

@[simp] theorem keeps_resumeFetch (a : Act) (hk : Keeps s₀ a.s) :
    Keeps s₀ (resumeFetch a).s := by
  unfold resumeFetch; try dsimp only
  (repeat' split) <;> simp -implicitDefEqProofs (maxDischargeDepth := 30) +contextual [hk]

@[simp] theorem keeps_retryCompletion (a : Act) (q : BitVec 32) (hk : Keeps s₀ a.s) :
    Keeps s₀ (retryCompletion a q).s := by
  unfold retryCompletion; try dsimp only
  (repeat' split) <;> simp -implicitDefEqProofs (maxDischargeDepth := 30) +contextual [hk]

@[simp] theorem keeps_dropStall (x : StallAccess) (s : State) (hk : Keeps s₀ s) :
    Keeps s₀ (dropStall x s) := by
  exact keeps_modEx hk (Nat.le_refl _)

@[simp] theorem keeps_retryRead (a : Act) (x : StallAccess) (hk : Keeps s₀ a.s) :
    Keeps s₀ (retryRead a x).s := by
  unfold retryRead; try dsimp only
  (repeat' split) <;> simp -implicitDefEqProofs (maxDischargeDepth := 30) +contextual [hk]

@[simp] theorem keeps_endStall (s : State) (hk : Keeps s₀ s) :
    Keeps s₀ (endStall s) := by
  unfold endStall; try dsimp only
  (repeat' split) <;> simp -implicitDefEqProofs (maxDischargeDepth := 30) +contextual [hk]

@[simp] theorem keeps_retryStalls (a : Act) (hk : Keeps s₀ a.s) :
    Keeps s₀ (retryStalls a).s := by
  unfold retryStalls; try dsimp only
  (repeat' split) <;> simp -implicitDefEqProofs (maxDischargeDepth := 30) +contextual [hk]

@[simp] theorem keeps_nudgeOrders (a : Act) (hk : Keeps s₀ a.s) :
    Keeps s₀ (nudgeOrders a).s := by
  unfold nudgeOrders; try dsimp only
  (repeat' split) <;> simp -implicitDefEqProofs (maxDischargeDepth := 30) +contextual [hk]

@[simp] theorem keeps_flushPending (s : State) (k : NoticeIx) (hk : Keeps s₀ s) :
    Keeps s₀ (flushPending s k) := by
  unfold flushPending
  split
  · exact hk
  · exact keeps_laneFault _ _ (keeps_writeLane _ _ _ hk)

@[simp] theorem keeps_rescanLane (s : State) (k : NoticeIx) (hk : Keeps s₀ s) :
    Keeps s₀ (rescanLane s k) := by
  unfold rescanLane; try dsimp only
  (repeat' split) <;> simp -implicitDefEqProofs (maxDischargeDepth := 30) +contextual [hk]

@[simp] theorem keeps_rescanInbox (s : State) (k : InboxIx) (hk : Keeps s₀ s) :
    Keeps s₀ (rescanInbox s k) := by
  unfold rescanInbox; try dsimp only
  (repeat' split) <;> simp -implicitDefEqProofs (maxDischargeDepth := 30) +contextual [hk]

@[simp] theorem keeps_rescan (s : State) (hk : Keeps s₀ s) :
    Keeps s₀ (rescan s) := by
  unfold rescan; try dsimp only
  (repeat' split) <;> simp -implicitDefEqProofs (maxDischargeDepth := 30) +contextual [hk]

@[simp] theorem keeps_nudgeBlocks (n : SlotIx) (a : Act) (hk : Keeps s₀ a.s) :
    Keeps s₀ (nudgeBlocks n a).s := by
  unfold nudgeBlocks; try dsimp only
  (repeat' split) <;> simp -implicitDefEqProofs (maxDischargeDepth := 30) +contextual [hk]

@[simp] theorem keeps_writeLine (value : BitVec 32) (s : State) (hk : Keeps s₀ s) :
    Keeps s₀ (writeLine value s) := by
  unfold writeLine; try dsimp only
  (repeat' split) <;> simp -implicitDefEqProofs (maxDischargeDepth := 30) +contextual [hk]

@[simp] theorem keeps_writeBaseHi (value : BitVec 32) (s : State) (hk : Keeps s₀ s) :
    Keeps s₀ (writeBaseHi value s) := by
  unfold writeBaseHi; try dsimp only
  (repeat' split) <;> simp -implicitDefEqProofs (maxDischargeDepth := 30) +contextual [hk]

/-! ## Snapshots -/

@[simp] theorem keeps_writeUpTo (s : State) (address : Nat) (bs : List Byte) (fault : Nat) (hk : Keeps s₀ s) :
    Keeps s₀ (writeUpTo s address bs fault) := by
  unfold writeUpTo
  split
  · exact keeps_writeHost hk ‹_›
  · exact hk

@[simp] theorem keeps_writeSnapshot (a : Act) (o : Order) (k : SnapshotKind) (hk : Keeps s₀ a.s) :
    Keeps s₀ (writeSnapshot a o k).s := by
  unfold writeSnapshot
  dsimp only
  split
  · exact keeps_done _ _ _ (keeps_writeHost hk ‹_›)
  · exact keeps_complete _ _ _ _ _ (keeps_writeUpTo _ _ _ _ hk)

@[simp] theorem keeps_readStateOrder (a : Act) (o : Order) (hk : Keeps s₀ a.s) :
    Keeps s₀ (readStateOrder a o).s := by
  unfold readStateOrder; try dsimp only
  (repeat' split) <;> simp -implicitDefEqProofs (maxDischargeDepth := 30) +contextual [hk]

/-! ## LineCommands -/

@[simp] theorem keeps_wakeBurst (p : PortIx) (due : Nat) (a : Act) (hk : Keeps s₀ a.s) :
    Keeps s₀ (wakeBurst p due a).s := by
  unfold wakeBurst; try dsimp only
  (repeat' split) <;> simp -implicitDefEqProofs (maxDischargeDepth := 30) +contextual [hk]

/-! ## UnitTimers -/

@[simp] theorem keeps_timedRoll (due : Nat) (s : State) (hk : Keeps s₀ s) :
    Keeps s₀ (timedRoll due s) := by
  unfold timedRoll; try dsimp only
  (repeat' split) <;> simp -implicitDefEqProofs (maxDischargeDepth := 30) +contextual [hk]

@[simp] theorem keeps_watchGap (s : State) (hk : Keeps s₀ s) :
    Keeps s₀ (watchGap s) := by
  unfold watchGap; try dsimp only
  (repeat' split) <;> simp -implicitDefEqProofs (maxDischargeDepth := 30) +contextual [hk]

/-! ## StreamTimers -/

@[simp] theorem keeps_closeAtDeadline (n : SlotIx) (a : Act) (hk : Keeps s₀ a.s) :
    Keeps s₀ (closeAtDeadline n a).s := by
  unfold closeAtDeadline; try dsimp only
  (repeat' split) <;> simp -implicitDefEqProofs (maxDischargeDepth := 30) +contextual [hk]

/-! ## OrderCommands -/

@[simp] theorem keeps_armOrder (a : Act) (o : Order) (hk : Keeps s₀ a.s) :
    Keeps s₀ (armOrder a o).s := by
  unfold armOrder; try dsimp only
  (repeat' split) <;> simp -implicitDefEqProofs (maxDischargeDepth := 30) +contextual [hk]

@[simp] theorem keeps_holdPortOrder (a : Act) (o : Order) (hk : Keeps s₀ a.s) :
    Keeps s₀ (holdPortOrder a o).s := by
  unfold holdPortOrder; try dsimp only
  (repeat' split) <;> simp -implicitDefEqProofs (maxDischargeDepth := 30) +contextual [hk]

@[simp] theorem keeps_cancelLeave (a : Act) (hk : Keeps s₀ a.s) :
    Keeps s₀ (cancelLeave a).s := by
  unfold cancelLeave; try dsimp only
  (repeat' split) <;> simp -implicitDefEqProofs (maxDischargeDepth := 30) +contextual [hk]

@[simp] theorem keeps_joinOrder (a : Act) (o : Order) (hk : Keeps s₀ a.s) :
    Keeps s₀ (joinOrder a o).s := by
  unfold joinOrder; try dsimp only
  (repeat' split) <;> simp -implicitDefEqProofs (maxDischargeDepth := 30) +contextual [hk]

@[simp] theorem keeps_leaveOrder (a : Act) (o : Order) (hk : Keeps s₀ a.s) :
    Keeps s₀ (leaveOrder a o).s := by
  unfold leaveOrder; try dsimp only
  (repeat' split) <;> simp -implicitDefEqProofs (maxDischargeDepth := 30) +contextual [hk]

@[simp] theorem keeps_admitEntry (f : FrameNo) (s : State) (hk : Keeps s₀ s) :
    Keeps s₀ (admitEntry f s) := by
  unfold admitEntry; try dsimp only
  (repeat' split) <;> simp -implicitDefEqProofs (maxDischargeDepth := 30) +contextual [hk]

@[simp] theorem keeps_refuseEntry (f : FrameNo) (s : State) (hk : Keeps s₀ s) :
    Keeps s₀ (refuseEntry f s) := by
  unfold refuseEntry; try dsimp only
  (repeat' split) <;> simp -implicitDefEqProofs (maxDischargeDepth := 30) +contextual [hk]

@[simp] theorem keeps_admitOrder (a : Act) (o : Order) (hk : Keeps s₀ a.s) :
    Keeps s₀ (admitOrder a o).s := by
  unfold admitOrder; try dsimp only
  (repeat' split) <;> simp -implicitDefEqProofs (maxDischargeDepth := 30) +contextual [hk]

@[simp] theorem keeps_refuseOrder (a : Act) (o : Order) (hk : Keeps s₀ a.s) :
    Keeps s₀ (refuseOrder a o).s := by
  unfold refuseOrder; try dsimp only
  (repeat' split) <;> simp -implicitDefEqProofs (maxDischargeDepth := 30) +contextual [hk]

@[simp] theorem keeps_scheduleOrder (a : Act) (o : Order) (hk : Keeps s₀ a.s) :
    Keeps s₀ (scheduleOrder a o).s := by
  unfold scheduleOrder; try dsimp only
  (repeat' split) <;> simp -implicitDefEqProofs (maxDischargeDepth := 30) +contextual [hk]

@[simp] theorem keeps_cancelOrder (a : Act) (o : Order) (hk : Keeps s₀ a.s) :
    Keeps s₀ (cancelOrder a o).s := by
  unfold cancelOrder
  dsimp only
  split
  · refine keeps_done _ _ _ ?_
    rw [on_s]
    refine keeps_modTrig hk ?_
    exact List.Sublist.length_le List.eraseP_sublist
  · simp -implicitDefEqProofs (maxDischargeDepth := 30) +contextual [hk]

/-! ## StreamOrders -/

@[simp] theorem keeps_openSink (a : Act) (o : Order) (n : SlotIx) (hk : Keeps s₀ a.s) :
    Keeps s₀ (openSink a o n).s := by
  unfold openSink; try dsimp only
  (repeat' split) <;> simp -implicitDefEqProofs (maxDischargeDepth := 30) +contextual [hk]

@[simp] theorem keeps_openSource (a : Act) (o : Order) (n : SlotIx) (hk : Keeps s₀ a.s) :
    Keeps s₀ (openSource a o n).s := by
  unfold openSource; try dsimp only
  (repeat' split) <;> simp -implicitDefEqProofs (maxDischargeDepth := 30) +contextual [hk]

@[simp] theorem keeps_openOrder (a : Act) (o : Order) (hk : Keeps s₀ a.s) :
    Keeps s₀ (openOrder a o).s := by
  unfold openOrder; try dsimp only
  (repeat' split) <;> simp -implicitDefEqProofs (maxDischargeDepth := 30) +contextual [hk]

@[simp] theorem keeps_finishSlot (a : Act) (o : Order) (n : SlotIx) (hk : Keeps s₀ a.s) :
    Keeps s₀ (finishSlot a o n).s := by
  unfold finishSlot; try dsimp only
  (repeat' split) <;> simp -implicitDefEqProofs (maxDischargeDepth := 30) +contextual [hk]

@[simp] theorem keeps_abortSlot (a : Act) (o : Order) (n : SlotIx) (hk : Keeps s₀ a.s) :
    Keeps s₀ (abortSlot a o n).s := by
  unfold abortSlot; try dsimp only
  (repeat' split) <;> simp -implicitDefEqProofs (maxDischargeDepth := 30) +contextual [hk]

@[simp] theorem keeps_closeOrder (a : Act) (o : Order) (hk : Keeps s₀ a.s) :
    Keeps s₀ (closeOrder a o).s := by
  unfold closeOrder; try dsimp only
  (repeat' split) <;> simp -implicitDefEqProofs (maxDischargeDepth := 30) +contextual [hk]

@[simp] theorem keeps_haltOrder (a : Act) (o : Order) (hk : Keeps s₀ a.s) :
    Keeps s₀ (haltOrder a o).s := by
  unfold haltOrder; try dsimp only
  (repeat' split) <;> simp -implicitDefEqProofs (maxDischargeDepth := 30) +contextual [hk]

@[simp] theorem keeps_damageFaulted (n : SlotIx) (a : Act) (b : BitVec 32) (hk : Keeps s₀ a.s) :
    Keeps s₀ (damageFaulted n a b).s := by
  unfold damageFaulted; try dsimp only
  (repeat' split) <;> simp -implicitDefEqProofs (maxDischargeDepth := 30) +contextual [hk]

@[simp] theorem keeps_retryFault (a : Act) (n : SlotIx) (hk : Keeps s₀ a.s) :
    Keeps s₀ (retryFault a n).s := by
  unfold retryFault; try dsimp only
  (repeat' split) <;> simp -implicitDefEqProofs (maxDischargeDepth := 30) +contextual [hk]

@[simp] theorem keeps_resumeAccess (a : Act) (n : SlotIx) (hk : Keeps s₀ a.s) :
    Keeps s₀ (resumeAccess a n).s := by
  unfold resumeAccess; try dsimp only
  (repeat' split) <;> simp -implicitDefEqProofs (maxDischargeDepth := 30) +contextual [hk]

@[simp] theorem keeps_resumeOrder (a : Act) (o : Order) (hk : Keeps s₀ a.s) :
    Keeps s₀ (resumeOrder a o).s := by
  unfold resumeOrder; try dsimp only
  (repeat' split) <;> simp -implicitDefEqProofs (maxDischargeDepth := 30) +contextual [hk]

end Sys2Proof.Machine
end

