-- ==== Sys2Proof/Laws/Delivery.lean ====
section
/-! SUPPORT. What the end of an act can do: the delivery of what was posted changes the exchange unit and host memory
alone, unless a fault takes the exchange to BROKEN; nothing is delivered in DETACHED or BROKEN. -/

namespace Sys2Proof.Machine

theorem OnlyExchange.refl (s : State) : OnlyExchange s s := rfl

theorem OnlyExchange.trans {s t u : State} (h : OnlyExchange s t) (k : OnlyExchange t u) : OnlyExchange s u := by
  unfold OnlyExchange at *
  rw [← h]
  conv => rhs; rw [← k]

theorem Delivers.refl (s : State) : Delivers s s := rfl

theorem OnlyExchange.delivers {u t : State} (h : OnlyExchange u t) : Delivers u t := by
  unfold OnlyExchange at h
  unfold Delivers
  rw [← h]

theorem Delivers.trans {s t u : State} (h : Delivers s t) (k : Delivers t u) : Delivers s u := by
  unfold Delivers at *
  rw [← h]
  conv => rhs; rw [← k]

/-! ## Writes -/

theorem writeHost_only {s t : State} {a : Nat} {bs : List Byte} (h : writeHost s a bs = .ok t) : OnlyExchange s t := by
  unfold writeHost at h
  split at h <;> cases h
  rfl

theorem writeRuns_only (rs : List (Nat × List Byte)) (s : State) : OnlyExchange s (writeRuns s rs).1 := by
  induction rs generalizing s with
  | nil => exact .refl s
  | cons r rs ih =>
    obtain ⟨x, bs⟩ := r
    unfold writeRuns
    split
    · exact .refl s
    · exact (writeHost_only ‹_›).trans (ih _)

theorem writeLane_only (s : State) (k : NoticeIx) (p : PendingNotice) : OnlyExchange s (writeLane s k p).1 := by
  have h := writeRuns_only (laneRuns s k p) s
  unfold writeLane
  split <;> rename_i e <;> rw [e] at h <;> exact h

theorem laneTake_only (s : State) (k : NoticeIx) (n : Notice) : OnlyExchange s (laneTake s k n).1 := by
  unfold laneTake
  dsimp only
  split
  · rfl
  · exact writeLane_only _ _ _

/-! ## BROKEN -/

theorem sendSlotCell_delivers (s : State) (n : SlotIx) (k : Kind) (b : List Byte) (w : BitVec 32) :
    Delivers s (sendSlotCell s n k b w) := by
  unfold sendSlotCell
  dsimp only
  split <;> rfl

theorem sendClose_delivers (s : State) (n : SlotIx) (r : CloseReason) : Delivers s (sendClose s n r) :=
  sendSlotCell_delivers _ _ _ _ _

theorem modSlot_delivers (s : State) (n : SlotIx) (f : Slot → Slot) : Delivers s (s.modSlot n f) := rfl

theorem modEx_only (s : State) (f : Exchange → Exchange) : OnlyExchange s (s.modEx f) := rfl

/-- Entering BROKEN closes every stream and lets every order and note go, and changes no other unit (R182). -/
theorem closeForExchange_delivers (r : CloseReason) (c : StreamCause) (s : State) (n : SlotIx) :
    Delivers s (closeForExchange r c s n) := by
  unfold closeForExchange
  dsimp only
  split
  · rfl
  · have h : Delivers s (cutOff s n) := by unfold cutOff; rfl
    split
    · exact h.trans (modSlot_delivers _ _ _)
    · exact (h.trans (modSlot_delivers _ _ _)).trans (sendClose_delivers _ _ _)

theorem closeAllForExchange_delivers (r : CloseReason) (c : StreamCause) (s : State) :
    Delivers s (closeAllForExchange r c s) := by
  unfold closeAllForExchange
  generalize allSlots = ns
  induction ns generalizing s with
  | nil => rfl
  | cons n ns ih => exact (closeForExchange_delivers r c s n).trans (ih _)

theorem abandonOrders_delivers (s : State) : Delivers s (abandonOrders s) := rfl

theorem enterBroken_delivers (s : State) : Delivers s (enterBroken s) := by
  unfold enterBroken
  exact (abandonOrders_delivers s).trans ((closeAllForExchange_delivers _ _ _).trans (modEx_only _ _).delivers)

/-! ## One posted item -/

/-- What one posted item can do: the exchange unit and memory alone change, or the exchange is BROKEN after it. -/
def Taken (s t : State) : Prop := OnlyExchange s t ∨ (t.ex.state = .broken ∧ Delivers s t)

theorem Taken.delivers {s t : State} (h : Taken s t) : Delivers s t := h.elim OnlyExchange.delivers And.right

theorem takeErrors_taken (s : State) (n : Notice) : Taken s (takeErrors s n) := by
  unfold takeErrors
  split
  · exact .inl rfl
  · have h := laneTake_only (s.modEx (fun e => { e with errorsPosted := e.errorsPosted + 1 })) errorsLane n
    have h0 : OnlyExchange s (s.modEx (fun e => { e with errorsPosted := e.errorsPosted + 1 })) := rfl
    split <;> rename_i e <;> rw [e] at h
    · exact .inl (h0.trans h)
    · exact .inr ⟨rfl, (h0.trans h).delivers.trans (enterBroken_delivers _)⟩

theorem Taken.after {s t u : State} (h : OnlyExchange s t) (k : Taken t u) : Taken s u :=
  k.elim (fun x => .inl (h.trans x)) (fun x => .inr ⟨x.1, h.delivers.trans x.2⟩)

theorem laneFault_taken {s : State} (k : NoticeIx) (r : State × Option Nat) (h : OnlyExchange s r.1) :
    Taken s (laneFault k r) := by
  obtain ⟨t, o⟩ := r
  cases o with
  | none => exact .inl h
  | some x =>
    unfold laneFault
    dsimp only
    split
    · exact .inr ⟨rfl, h.delivers.trans (enterBroken_delivers _)⟩
    · exact .after h (takeErrors_taken _ _)

theorem writeArea_taken (s : State) (w : What) (a : Nat) (bs : List Byte) : Taken s (writeArea s w a bs) := by
  unfold writeArea
  split
  · exact .inl rfl
  · split
    · exact .inl (writeHost_only ‹_›)
    · exact takeErrors_taken _ _

/-- Everything the delivery of one posted item can do. -/
theorem deliver_taken (s : State) (p : Post) : Taken s (deliver s p) := by
  cases p with
  | mirror m => exact writeArea_taken _ _ _ _
  | status n => exact writeArea_taken _ _ _ _
  | notice n =>
    simp only [deliver]
    unfold takeNotice
    dsimp only
    split
    · exact takeErrors_taken _ _
    · split
      · exact .inl rfl
      · exact laneFault_taken _ _ (laneTake_only _ _ _)

/-- In DETACHED and BROKEN whatever is posted is discarded (R168, R181). -/
theorem deliver_closed (s : State) (p : Post) (h : s.memOpen = false) : deliver s p = s := by
  cases p <;> simp [deliver, writeMirror, writeStatus, writeArea, takeNotice, takeErrors, h]

/-! ## The end of an act -/

theorem posts_delivers (ps : List Post) (s : State) : Delivers s (ps.foldl deliver s) := by
  induction ps generalizing s with
  | nil => rfl
  | cons p ps ih => exact (deliver_taken s p).delivers.trans (ih _)

theorem posts_closed (ps : List Post) (s : State) (h : s.memOpen = false) : ps.foldl deliver s = s := by
  induction ps with
  | nil => rfl
  | cons p ps ih => rw [List.foldl_cons, deliver_closed s p h]; exact ih

/-- With no LEAVE order in progress an act ends with the delivery alone. -/
theorem finish_no_leave (a : Act) (h : a.s.roster.leave = none) : finish a = a.posts.foldl deliver a.s := by
  unfold finish leaveCheck
  rw [h]

/-- The end of an act, with no LEAVE order in progress, touches what `Delivers` names alone. -/
theorem finish_delivers (a : Act) (h : a.s.roster.leave = none) : Delivers a.s (finish a) := by
  rw [finish_no_leave a h]
  exact posts_delivers _ _

/-- With no exchange attached and no LEAVE order in progress the state of an act is its next state. -/
theorem finish_closed (a : Act) (h : a.s.roster.leave = none) (hm : a.s.memOpen = false) : finish a = a.s := by
  rw [finish_no_leave a h]
  exact posts_closed _ _ hm

/-- With nothing posted and no LEAVE order in progress the state of an act is its next state. -/
theorem finish_quiet (s : State) (h : s.roster.leave = none) : finish ⟨s, []⟩ = s := finish_no_leave ⟨s, []⟩ h

end Sys2Proof.Machine
end

