-- ==== Sys2Proof/Laws/PerInstr.lean ====
section
/-! SUPPORT. A family of laws over every command: the cell that a well-formed received-cell command carries is good as
its own bytes on the line, by every test of R5 and R6. -/

namespace Sys2Proof.Laws.Received

open Sys2Proof Sys2Proof.Machine

/-- The cell a command carries, if it is a received cell. -/
def cellOf : Instr → Option (Kind × Rx)
  | .probe rx => some (.probe, rx)
  | .echo rx => some (.echo, rx)
  | .time rx => some (.time, rx)
  | .trig rx => some (.trig, rx)
  | .beacon rx => some (.beacon, rx)
  | .roll rx => some (.roll, rx)
  | .hello rx => some (.hello, rx)
  | .verdict rx => some (.verdict, rx)
  | .leaveCell rx => some (.leaveCell, rx)
  | .openCell rx => some (.openCell, rx)
  | .openAnswer rx => some (.openAnswer, rx)
  | .credit rx => some (.credit, rx)
  | .blockack rx => some (.blockack, rx)
  | .halt rx => some (.halt, rx)
  | .close rx => some (.close, rx)
  | .data rx => some (.data, rx)
  | .note rx => some (.note, rx)
  | .noteAnswer rx => some (.noteAnswer, rx)
  | .relay k rx => some (k, rx)
  | _ => none

/-- The family: a well-formed command that carries a cell carries one whose bytes pass the receive stage. -/
def Statement (i : Instr) : Prop :=
  ∀ k rx, cellOf i = some (k, rx) → i.wf = true → rawError ⟨lineBytes (rxCell k rx), .endDelimiter⟩ = none

theorem deviceReset : Statement .deviceReset := fun _ _ h => by cases h

theorem resetInputAsserted : Statement .resetInputAsserted := fun _ _ h => by cases h

theorem wakeInterval (p : PortIx) : Statement (.wakeInterval p) := fun _ _ h => by cases h

theorem wakeReceived (p : PortIx) : Statement (.wakeReceived p) := fun _ _ h => by cases h

theorem noise (p : PortIx) : Statement (.noise p) := fun _ _ h => by cases h

theorem quiet (p : PortIx) : Statement (.quiet p) := fun _ _ h => by cases h

theorem symbolLock (p : PortIx) : Statement (.symbolLock p) := fun _ _ h => by cases h

theorem lossOfSignal (p : PortIx) (what : LineLoss) : Statement (.lossOfSignal p what) := fun _ _ h => by cases h

theorem timeout (p : PortIx) : Statement (.timeout p) := fun _ _ h => by cases h

theorem probeTimer (p : PortIx) : Statement (.probeTimer p) := fun _ _ h => by cases h

theorem silent (p : PortIx) : Statement (.silent p) := fun _ _ h => by cases h

theorem erroneousCell (p : PortIx) (raw : RawCell) : Statement (.erroneousCell p raw) := fun _ _ h => by cases h

theorem probe (rx : Rx) : Statement (.probe rx) := by
  intro k rx' h w
  cases h
  exact rawError_rxCell _ _ w

theorem echo (rx : Rx) : Statement (.echo rx) := by
  intro k rx' h w
  cases h
  exact rawError_rxCell _ _ w

theorem time (rx : Rx) : Statement (.time rx) := by
  intro k rx' h w
  cases h
  exact rawError_rxCell _ _ w

theorem trig (rx : Rx) : Statement (.trig rx) := by
  intro k rx' h w
  cases h
  exact rawError_rxCell _ _ w

theorem beacon (rx : Rx) : Statement (.beacon rx) := by
  intro k rx' h w
  cases h
  exact rawError_rxCell _ _ w

theorem roll (rx : Rx) : Statement (.roll rx) := by
  intro k rx' h w
  cases h
  exact rawError_rxCell _ _ w

theorem hello (rx : Rx) : Statement (.hello rx) := by
  intro k rx' h w
  cases h
  exact rawError_rxCell _ _ w

theorem verdict (rx : Rx) : Statement (.verdict rx) := by
  intro k rx' h w
  cases h
  exact rawError_rxCell _ _ w

theorem leaveCell (rx : Rx) : Statement (.leaveCell rx) := by
  intro k rx' h w
  cases h
  exact rawError_rxCell _ _ w

theorem openCell (rx : Rx) : Statement (.openCell rx) := by
  intro k rx' h w
  cases h
  exact rawError_rxCell _ _ w

theorem openAnswer (rx : Rx) : Statement (.openAnswer rx) := by
  intro k rx' h w
  cases h
  exact rawError_rxCell _ _ w

theorem credit (rx : Rx) : Statement (.credit rx) := by
  intro k rx' h w
  cases h
  exact rawError_rxCell _ _ w

theorem blockack (rx : Rx) : Statement (.blockack rx) := by
  intro k rx' h w
  cases h
  exact rawError_rxCell _ _ w

theorem halt (rx : Rx) : Statement (.halt rx) := by
  intro k rx' h w
  cases h
  exact rawError_rxCell _ _ w

theorem close (rx : Rx) : Statement (.close rx) := by
  intro k rx' h w
  cases h
  exact rawError_rxCell _ _ w

theorem data (rx : Rx) : Statement (.data rx) := by
  intro k rx' h w
  cases h
  exact rawError_rxCell _ _ w

theorem note (rx : Rx) : Statement (.note rx) := by
  intro k rx' h w
  cases h
  exact rawError_rxCell _ _ w

theorem noteAnswer (rx : Rx) : Statement (.noteAnswer rx) := by
  intro k rx' h w
  cases h
  exact rawError_rxCell _ _ w

theorem relay (k : Kind) (rx : Rx) : Statement (.relay k rx) := by
  intro k' rx' h w
  cases h
  exact rawError_rxCell _ _ (Bool.and_eq_true_iff.1 w).1

theorem arbiterDecision (p : PortIx) : Statement (.arbiterDecision p) := fun _ _ h => by cases h

theorem dataCellSent (p : PortIx) : Statement (.dataCellSent p) := fun _ _ h => by cases h

theorem periodTimer : Statement .periodTimer := fun _ _ h => by cases h

theorem anchorSilence : Statement .anchorSilence := fun _ _ h => by cases h

theorem helloTimer : Statement .helloTimer := fun _ _ h => by cases h

theorem rollTimer : Statement .rollTimer := fun _ _ h => by cases h

theorem windowDeadline : Statement .windowDeadline := fun _ _ h => by cases h

theorem strayDeadline (f : FrameNo) : Statement (.strayDeadline f) := fun _ _ h => by cases h

theorem leaveLimit : Statement .leaveLimit := fun _ _ h => by cases h

theorem emissionTimer : Statement .emissionTimer := fun _ _ h => by cases h

theorem timeWatch : Statement .timeWatch := fun _ _ h => by cases h

theorem holdoverLimit : Statement .holdoverLimit := fun _ _ h => by cases h

theorem enabledEdge (k : LaneIx) : Statement (.enabledEdge k) := fun _ _ h => by cases h

theorem inputDeasserted (k : LaneIx) : Statement (.inputDeasserted k) := fun _ _ h => by cases h

theorem holdLimit (k : LaneIx) : Statement (.holdLimit k) := fun _ _ h => by cases h

theorem unmuteTimer (k : LaneIx) : Statement (.unmuteTimer k) := fun _ _ h => by cases h

theorem firing : Statement .firing := fun _ _ h => by cases h

theorem pulseEnd (k : LaneIx) : Statement (.pulseEnd k) := fun _ _ h => by cases h

theorem openRepeat (n : SlotIx) : Statement (.openRepeat n) := fun _ _ h => by cases h

theorem openLimit (n : SlotIx) : Statement (.openLimit n) := fun _ _ h => by cases h

theorem startGate (n : SlotIx) : Statement (.startGate n) := fun _ _ h => by cases h

theorem pacePoint (n : SlotIx) : Statement (.pacePoint n) := fun _ _ h => by cases h

theorem creditPeriod (n : SlotIx) : Statement (.creditPeriod n) := fun _ _ h => by cases h

theorem haltRepeat (n : SlotIx) : Statement (.haltRepeat n) := fun _ _ h => by cases h

theorem strandDeadline (n : SlotIx) : Statement (.strandDeadline n) := fun _ _ h => by cases h

theorem closeDeadline (n : SlotIx) : Statement (.closeDeadline n) := fun _ _ h => by cases h

theorem acknowledgementTimer (n : SlotIx) (block : BitVec 32) : Statement (.acknowledgementTimer n block) := fun _ _ h => by cases h

theorem blockRecordFetch (n : SlotIx) : Statement (.blockRecordFetch n) := fun _ _ h => by cases h

theorem blockStart (n : SlotIx) : Statement (.blockStart n) := fun _ _ h => by cases h

theorem answerTimer (number : BitVec 16) : Statement (.answerTimer number) := fun _ _ h => by cases h

theorem waitingNoteTaken : Statement .waitingNoteTaken := fun _ _ h => by cases h

theorem baseLo (value : BitVec 32) : Statement (.baseLo value) := fun _ _ h => by cases h

theorem baseHi (value : BitVec 32) : Statement (.baseHi value) := fun _ _ h => by cases h

theorem nudgeOrderChain : Statement .nudgeOrderChain := fun _ _ h => by cases h

theorem nudgeBlockChain (n : SlotIx) : Statement (.nudgeBlockChain n) := fun _ _ h => by cases h

theorem nudgeRescan : Statement .nudgeRescan := fun _ _ h => by cases h

theorem line (value : BitVec 32) : Statement (.line value) := fun _ _ h => by cases h

theorem ignoredRegisterWrite (offset : BitVec 8) (value : BitVec 32) : Statement (.ignoredRegisterWrite offset value) := fun _ _ h => by cases h

theorem orderFetch : Statement .orderFetch := fun _ _ h => by cases h

theorem nop : Statement .nop := fun _ _ h => by cases h

theorem readState : Statement .readState := fun _ _ h => by cases h

theorem armPort : Statement .armPort := fun _ _ h => by cases h

theorem holdPort : Statement .holdPort := fun _ _ h => by cases h

theorem join : Statement .join := fun _ _ h => by cases h

theorem leave : Statement .leave := fun _ _ h => by cases h

theorem admitFrame : Statement .admitFrame := fun _ _ h => by cases h

theorem refuse : Statement .refuse := fun _ _ h => by cases h

theorem setFilter : Statement .setFilter := fun _ _ h => by cases h

theorem scheduleTrigger : Statement .scheduleTrigger := fun _ _ h => by cases h

theorem cancelTrigger : Statement .cancelTrigger := fun _ _ h => by cases h

theorem openStream : Statement .openStream := fun _ _ h => by cases h

theorem closeStream : Statement .closeStream := fun _ _ h => by cases h

theorem haltStream : Statement .haltStream := fun _ _ h => by cases h

theorem resumeStream : Statement .resumeStream := fun _ _ h => by cases h

theorem sendNote : Statement .sendNote := fun _ _ h => by cases h

theorem setSettings : Statement .setSettings := fun _ _ h => by cases h

theorem storeSettings : Statement .storeSettings := fun _ _ h => by cases h

theorem badKind : Statement .badKind := fun _ _ h => by cases h

theorem storeEnd (verified : Bool) : Statement (.storeEnd verified) := fun _ _ h => by cases h

theorem resynchronisation (p : PortIx) : Statement (.resynchronisation p) := fun _ _ h => by cases h

theorem signalPresent (p : PortIx) : Statement (.signalPresent p) := fun _ _ h => by cases h

end Sys2Proof.Laws.Received
end

