-- ==== Sys2Proof/Laws/Ports.lean ====
section
/-! SUPPORT. What a change of a port's state makes of an act, by the states it goes from and to (R21, R39, R40). -/

namespace Sys2Proof.Machine

/-- The act of a change of port state before any other unit takes it: the record, the mirror entry, the notice. -/
def changed (p : PortIx) (st : PortState) (cause : PortCause) (a : Act) : Act :=
  ⟨a.s.modPort p (fun r => changeRecord a.s.now r st cause),
    a.posts ++ [.mirror (.port p), .notice (.port p st cause 1)]⟩

/-- Leaving UP is a port-loss event. -/
theorem changePort_from_up {p : PortIx} {st : PortState} {cause : PortCause} {a : Act} (h : (a.s.port p).state = .up) :
    changePort p st cause a = portLossEvent p (changed p st cause a) := by
  simp [changePort, changed, h, Act.on, Act.post]

/-- Entering UP is a port-gained event. -/
theorem changePort_to_up {p : PortIx} {cause : PortCause} {a : Act} (h : (a.s.port p).state ≠ .up) :
    changePort p .up cause a = portGainedEvent p (changed p .up cause a) := by
  simp [changePort, changed, h, Act.on, Act.post]

/-- A training that ends elsewhere than in UP loses the cell on the line. -/
theorem changePort_from_training {p : PortIx} {st : PortState} {cause : PortCause} {a : Act}
    (h : (a.s.port p).state = .training) (hs : st ≠ .up) :
    changePort p st cause a = (changed p st cause a).on (dropLine p) := by
  simp [changePort, changed, h, hs, Act.on, Act.post]

/-- Any other change reaches no other unit. -/
theorem changePort_still {p : PortIx} {st : PortState} {cause : PortCause} {a : Act} (hu : (a.s.port p).state ≠ .up)
    (ht : (a.s.port p).state ≠ .training) (hs : st ≠ .up) : changePort p st cause a = changed p st cause a := by
  simp [changePort, changed, hu, ht, hs, Act.on, Act.post]

end Sys2Proof.Machine
end

