-- ==== Sys2Proof/Laws/Snapshots.lean ====
section
/-! SUPPORT. Where the items of a snapshot end: by their widths alone, so that no snapshot outgrows its length (R194). -/

namespace Sys2Proof.Machine

/-- The alignment and the length of an item. -/
def Item.extent : Item → Nat × Nat
  | .num w _ => (w, w)
  | .record n r => (n, r.length)

/-- Where an item laid out behind `e` bytes ends. -/
def itemEnd (e : Nat) (x : Nat × Nat) : Nat := max e ((e + x.1 - 1) / x.1 * x.1) + x.2

theorem length_place (b : List Byte) (x : Item) : (place b x).length = itemEnd b.length x.extent := by
  cases x <;> simp [place, alignTo, padTo, itemEnd, Item.extent] <;> omega

theorem length_places (xs : List Item) (b : List Byte) :
    (xs.foldl place b).length = (xs.map Item.extent).foldl itemEnd b.length := by
  induction xs generalizing b with
  | nil => rfl
  | cons x xs ih => rw [List.foldl_cons, ih, List.map_cons, List.foldl_cons, length_place]

/-- Items that end within the kind's length are laid out whole, with zeros behind them. -/
theorem layout_whole (k : SnapshotKind) (xs : List Item)
    (h : (xs.foldl place (snapshotHead k)).length ≤ snapshotLength k) :
    layout k xs = padTo (snapshotLength k) (xs.foldl place (snapshotHead k)) := by
  unfold layout
  apply List.take_of_length_le
  simp only [padTo, List.length_append, zeros, List.length_replicate]
  omega

end Sys2Proof.Machine
end

