-- ==== Sys2Proof/Laws/Steps.lean ====
section
/-! SUPPORT. Every command answers a next state, and every command but the two reset commands keeps what `Keeps` names;
so every step keeps the invariant. -/

namespace Sys2Proof.Machine

variable {s t : State}

/-! ## The frame of a command -/

/-- Every command runs through one act or changes the reset input alone. -/
theorem run_next (f : Act → Act) (s : State) : ∃ t, run f s = .next t := by
  unfold run; split <;> exact ⟨_, rfl⟩

/-- A command is one act: its next state keeps what the act keeps. -/
theorem keeps_run {f : Act → Act} (h : run f s = .next t) (hf : ∀ a, Keeps s a.s → Keeps s (f a).s) : Keeps s t := by
  unfold run at h
  split at h <;> cases h
  · exact Keeps.refl s
  · exact keeps_finish _ (hf _ (Keeps.refl s))

theorem keeps_runState {f : State → State} (h : runState f s = .next t) (hf : ∀ u, Keeps s u → Keeps s (f u)) :
    Keeps s t := keeps_run h (fun a ha => hf a.s ha)

@[simp] theorem keeps_id {s₀ : State} (a : Act) (h : Keeps s₀ a.s) : Keeps s₀ (id a).s := h

theorem keeps_execWakeInterval (p : PortIx) (h : execWakeInterval p s = .next t) : Keeps s t := by
  refine keeps_run h (fun a ha => ?_)
  simp -implicitDefEqProofs (maxDischargeDepth := 30) +contextual [ha]

theorem keeps_execWakeReceived (p : PortIx) (h : execWakeReceived p s = .next t) : Keeps s t := by
  refine keeps_run h (fun a ha => ?_)
  (repeat' split) <;> simp -implicitDefEqProofs (maxDischargeDepth := 30) +contextual [ha]

theorem keeps_execNoise (p : PortIx) (h : execNoise p s = .next t) : Keeps s t := by
  refine keeps_run h (fun a ha => ?_)
  simp -implicitDefEqProofs (maxDischargeDepth := 30) +contextual [ha]

theorem keeps_execQuiet (p : PortIx) (h : execQuiet p s = .next t) : Keeps s t := by
  refine keeps_run h (fun a ha => ?_)
  simp -implicitDefEqProofs (maxDischargeDepth := 30) +contextual [ha]

theorem keeps_execSymbolLock (p : PortIx) (h : execSymbolLock p s = .next t) : Keeps s t := by
  refine keeps_run h (fun a ha => ?_)
  simp -implicitDefEqProofs (maxDischargeDepth := 30) +contextual [ha]

theorem keeps_execSignalPresent (p : PortIx) (h : execSignalPresent p s = .next t) : Keeps s t := by
  refine keeps_runState h (fun u hu => ?_)
  (repeat' split) <;> simp -implicitDefEqProofs (maxDischargeDepth := 30) +contextual [hu]

theorem keeps_execLossOfSignal (p : PortIx) (what : LineLoss) (h : execLossOfSignal p what s = .next t) :
    Keeps s t := by
  refine keeps_run h (fun a ha => ?_)
  dsimp only
  (repeat' split) <;> simp -implicitDefEqProofs (maxDischargeDepth := 30) +contextual [ha]

theorem keeps_execResynchronisation (p : PortIx) (h : execResynchronisation p s = .next t) : Keeps s t := by
  refine keeps_runState h (fun u hu => ?_)
  (repeat' split) <;> simp -implicitDefEqProofs (maxDischargeDepth := 30) +contextual [hu]

theorem keeps_execTimeout (p : PortIx) (h : execTimeout p s = .next t) : Keeps s t := by
  refine keeps_run h (fun a ha => ?_)
  simp -implicitDefEqProofs (maxDischargeDepth := 30) +contextual [ha]

theorem keeps_execProbeTimer (p : PortIx) (h : execProbeTimer p s = .next t) : Keeps s t := by
  refine keeps_run h (fun a ha => ?_)
  (repeat' split) <;> simp -implicitDefEqProofs (maxDischargeDepth := 30) +contextual [ha]

theorem keeps_execSilent (p : PortIx) (h : execSilent p s = .next t) : Keeps s t := by
  refine keeps_run h (fun a ha => ?_)
  simp -implicitDefEqProofs (maxDischargeDepth := 30) +contextual [ha]

theorem keeps_execErroneousCell (p : PortIx) (raw : RawCell) (h : execErroneousCell p raw s = .next t) :
    Keeps s t := by
  refine keeps_run h (fun a ha => ?_)
  (repeat' split) <;> simp -implicitDefEqProofs (maxDischargeDepth := 30) +contextual [ha]

theorem keeps_execProbe (rx : Rx) (h : execProbe rx s = .next t) : Keeps s t := by
  refine keeps_run h (fun a ha => ?_)
  simp -implicitDefEqProofs (maxDischargeDepth := 30) +contextual [ha]

theorem keeps_execEcho (rx : Rx) (h : execEcho rx s = .next t) : Keeps s t := by
  refine keeps_run h (fun a ha => ?_)
  simp -implicitDefEqProofs (maxDischargeDepth := 30) +contextual [ha]

theorem keeps_execTime (rx : Rx) (h : execTime rx s = .next t) : Keeps s t := by
  refine keeps_run h (fun a ha => ?_)
  simp -implicitDefEqProofs (maxDischargeDepth := 30) +contextual [ha]

theorem keeps_execTrig (rx : Rx) (h : execTrig rx s = .next t) : Keeps s t := by
  refine keeps_run h (fun a ha => ?_)
  simp -implicitDefEqProofs (maxDischargeDepth := 30) +contextual [ha]

theorem keeps_execBeacon (rx : Rx) (h : execBeacon rx s = .next t) : Keeps s t := by
  refine keeps_run h (fun a ha => ?_)
  simp -implicitDefEqProofs (maxDischargeDepth := 30) +contextual [ha]

theorem keeps_execRoll (rx : Rx) (h : execRoll rx s = .next t) : Keeps s t := by
  refine keeps_run h (fun a ha => ?_)
  simp -implicitDefEqProofs (maxDischargeDepth := 30) +contextual [ha]

theorem keeps_execHello (rx : Rx) (h : execHello rx s = .next t) : Keeps s t := by
  refine keeps_run h (fun a ha => ?_)
  simp -implicitDefEqProofs (maxDischargeDepth := 30) +contextual [ha]

theorem keeps_execVerdict (rx : Rx) (h : execVerdict rx s = .next t) : Keeps s t := by
  refine keeps_run h (fun a ha => ?_)
  simp -implicitDefEqProofs (maxDischargeDepth := 30) +contextual [ha]

theorem keeps_execLeaveCell (rx : Rx) (h : execLeaveCell rx s = .next t) : Keeps s t := by
  refine keeps_run h (fun a ha => ?_)
  simp -implicitDefEqProofs (maxDischargeDepth := 30) +contextual [ha]

theorem keeps_execOpenCell (rx : Rx) (h : execOpenCell rx s = .next t) : Keeps s t := by
  refine keeps_run h (fun a ha => ?_)
  simp -implicitDefEqProofs (maxDischargeDepth := 30) +contextual [ha]

theorem keeps_execOpenAnswer (rx : Rx) (h : execOpenAnswer rx s = .next t) : Keeps s t := by
  refine keeps_run h (fun a ha => ?_)
  simp -implicitDefEqProofs (maxDischargeDepth := 30) +contextual [ha]

theorem keeps_execCredit (rx : Rx) (h : execCredit rx s = .next t) : Keeps s t := by
  refine keeps_run h (fun a ha => ?_)
  simp -implicitDefEqProofs (maxDischargeDepth := 30) +contextual [ha]

theorem keeps_execBlockack (rx : Rx) (h : execBlockack rx s = .next t) : Keeps s t := by
  refine keeps_run h (fun a ha => ?_)
  simp -implicitDefEqProofs (maxDischargeDepth := 30) +contextual [ha]

theorem keeps_execHalt (rx : Rx) (h : execHalt rx s = .next t) : Keeps s t := by
  refine keeps_run h (fun a ha => ?_)
  simp -implicitDefEqProofs (maxDischargeDepth := 30) +contextual [ha]

theorem keeps_execClose (rx : Rx) (h : execClose rx s = .next t) : Keeps s t := by
  refine keeps_run h (fun a ha => ?_)
  simp -implicitDefEqProofs (maxDischargeDepth := 30) +contextual [ha]

theorem keeps_execData (rx : Rx) (h : execData rx s = .next t) : Keeps s t := by
  refine keeps_run h (fun a ha => ?_)
  simp -implicitDefEqProofs (maxDischargeDepth := 30) +contextual [ha]

theorem keeps_execNote (rx : Rx) (h : execNote rx s = .next t) : Keeps s t := by
  refine keeps_run h (fun a ha => ?_)
  simp -implicitDefEqProofs (maxDischargeDepth := 30) +contextual [ha]

theorem keeps_execNoteAnswer (rx : Rx) (h : execNoteAnswer rx s = .next t) : Keeps s t := by
  refine keeps_run h (fun a ha => ?_)
  simp -implicitDefEqProofs (maxDischargeDepth := 30) +contextual [ha]

theorem keeps_execRelay (k : Kind) (rx : Rx) (h : execRelay k rx s = .next t) : Keeps s t := by
  refine keeps_run h (fun a ha => ?_)
  simp -implicitDefEqProofs (maxDischargeDepth := 30) +contextual [ha]

theorem keeps_execArbiterDecision (p : PortIx) (h : execArbiterDecision p s = .next t) : Keeps s t := by
  refine keeps_runState h (fun u hu => ?_)
  (repeat' split) <;> simp -implicitDefEqProofs (maxDischargeDepth := 30) +contextual [hu]

theorem keeps_execDataCellSent (p : PortIx) (h : execDataCellSent p s = .next t) : Keeps s t := by
  refine keeps_run h (fun a ha => ?_)
  simp -implicitDefEqProofs (maxDischargeDepth := 30) +contextual [ha]

theorem keeps_execPeriodTimer (h : execPeriodTimer s = .next t) : Keeps s t := by
  refine keeps_run h (fun a ha => ?_)
  simp -implicitDefEqProofs (maxDischargeDepth := 30) +contextual [ha]

theorem keeps_execAnchorSilence (h : execAnchorSilence s = .next t) : Keeps s t := by
  refine keeps_run h (fun a ha => ?_)
  simp -implicitDefEqProofs (maxDischargeDepth := 30) +contextual [ha]

theorem keeps_execHelloTimer (h : execHelloTimer s = .next t) : Keeps s t := by
  refine keeps_run h (fun a ha => ?_)
  (repeat' split) <;> simp -implicitDefEqProofs (maxDischargeDepth := 30) +contextual [ha]

theorem keeps_execRollTimer (h : execRollTimer s = .next t) : Keeps s t := by
  refine keeps_run h (fun a ha => ?_)
  (repeat' split) <;> simp -implicitDefEqProofs (maxDischargeDepth := 30) +contextual [ha]

theorem keeps_execWindowDeadline (h : execWindowDeadline s = .next t) : Keeps s t := by
  refine keeps_run h (fun a ha => ?_)
  simp -implicitDefEqProofs (maxDischargeDepth := 30) +contextual [ha]

theorem keeps_execStrayDeadline (f : FrameNo) (h : execStrayDeadline f s = .next t) : Keeps s t := by
  refine keeps_run h (fun a ha => ?_)
  simp -implicitDefEqProofs (maxDischargeDepth := 30) +contextual [ha]

theorem keeps_execLeaveLimit (h : execLeaveLimit s = .next t) : Keeps s t := by
  refine keeps_run h (fun a ha => ?_)
  simp -implicitDefEqProofs (maxDischargeDepth := 30) +contextual [ha]

theorem keeps_execEmissionTimer (h : execEmissionTimer s = .next t) : Keeps s t := by
  refine keeps_run h (fun a ha => ?_)
  simp -implicitDefEqProofs (maxDischargeDepth := 30) +contextual [ha]

theorem keeps_execTimeWatch (h : execTimeWatch s = .next t) : Keeps s t := by
  refine keeps_run h (fun a ha => ?_)
  simp -implicitDefEqProofs (maxDischargeDepth := 30) +contextual [ha]

theorem keeps_execHoldoverLimit (h : execHoldoverLimit s = .next t) : Keeps s t := by
  refine keeps_run h (fun a ha => ?_)
  simp -implicitDefEqProofs (maxDischargeDepth := 30) +contextual [ha]

theorem keeps_execEnabledEdge (k : LaneIx) (h : execEnabledEdge k s = .next t) : Keeps s t := by
  refine keeps_run h (fun a ha => ?_)
  simp -implicitDefEqProofs (maxDischargeDepth := 30) +contextual [ha]

theorem keeps_execInputDeasserted (k : LaneIx) (h : execInputDeasserted k s = .next t) : Keeps s t := by
  refine keeps_runState h (fun u hu => ?_)
  (repeat' split) <;> simp -implicitDefEqProofs (maxDischargeDepth := 30) +contextual [hu]

theorem keeps_execHoldLimit (k : LaneIx) (h : execHoldLimit k s = .next t) : Keeps s t := by
  refine keeps_run h (fun a ha => ?_)
  simp -implicitDefEqProofs (maxDischargeDepth := 30) +contextual [ha]

theorem keeps_execUnmuteTimer (k : LaneIx) (h : execUnmuteTimer k s = .next t) : Keeps s t := by
  refine keeps_run h (fun a ha => ?_)
  simp -implicitDefEqProofs (maxDischargeDepth := 30) +contextual [ha]

theorem keeps_execFiring (h : execFiring s = .next t) : Keeps s t := by
  refine keeps_run h (fun a ha => ?_)
  (repeat' split) <;> simp -implicitDefEqProofs (maxDischargeDepth := 30) +contextual [ha]

theorem keeps_execPulseEnd (k : LaneIx) (h : execPulseEnd k s = .next t) : Keeps s t := by
  refine keeps_run h (fun a ha => ?_)
  simp -implicitDefEqProofs (maxDischargeDepth := 30) +contextual [ha]

theorem keeps_execAnswerTimer (number : BitVec 16) (h : execAnswerTimer number s = .next t) : Keeps s t := by
  refine keeps_run h (fun a ha => ?_)
  (repeat' split) <;> simp -implicitDefEqProofs (maxDischargeDepth := 30) +contextual [ha]

theorem keeps_execWaitingNoteTaken (h : execWaitingNoteTaken s = .next t) : Keeps s t := by
  refine keeps_run h (fun a ha => ?_)
  simp -implicitDefEqProofs (maxDischargeDepth := 30) +contextual [ha]

theorem keeps_execOpenRepeat (n : SlotIx) (h : execOpenRepeat n s = .next t) : Keeps s t := by
  refine keeps_run h (fun a ha => ?_)
  simp -implicitDefEqProofs (maxDischargeDepth := 30) +contextual [ha]

theorem keeps_execOpenLimit (n : SlotIx) (h : execOpenLimit n s = .next t) : Keeps s t := by
  refine keeps_run h (fun a ha => ?_)
  simp -implicitDefEqProofs (maxDischargeDepth := 30) +contextual [ha]

theorem keeps_execStartGate (n : SlotIx) (h : execStartGate n s = .next t) : Keeps s t := by
  refine keeps_run h (fun a ha => ?_)
  dsimp only
  (repeat' split) <;> simp -implicitDefEqProofs (maxDischargeDepth := 30) +contextual [ha]

theorem keeps_execPacePoint (n : SlotIx) (h : execPacePoint n s = .next t) : Keeps s t := by
  refine keeps_run h (fun a ha => ?_)
  simp -implicitDefEqProofs (maxDischargeDepth := 30) +contextual [ha]

theorem keeps_execCreditPeriod (n : SlotIx) (h : execCreditPeriod n s = .next t) : Keeps s t := by
  refine keeps_run h (fun a ha => ?_)
  simp -implicitDefEqProofs (maxDischargeDepth := 30) +contextual [ha]

theorem keeps_execHaltRepeat (n : SlotIx) (h : execHaltRepeat n s = .next t) : Keeps s t := by
  refine keeps_run h (fun a ha => ?_)
  simp -implicitDefEqProofs (maxDischargeDepth := 30) +contextual [ha]

theorem keeps_execStrandDeadline (n : SlotIx) (h : execStrandDeadline n s = .next t) : Keeps s t := by
  refine keeps_run h (fun a ha => ?_)
  simp -implicitDefEqProofs (maxDischargeDepth := 30) +contextual [ha]

theorem keeps_execCloseDeadline (n : SlotIx) (h : execCloseDeadline n s = .next t) : Keeps s t := by
  refine keeps_run h (fun a ha => ?_)
  simp -implicitDefEqProofs (maxDischargeDepth := 30) +contextual [ha]

theorem keeps_execAcknowledgementTimer (n : SlotIx) (b : BitVec 32) (h : execAcknowledgementTimer n b s = .next t) :
    Keeps s t := by
  refine keeps_run h (fun a ha => ?_)
  (repeat' split) <;> simp -implicitDefEqProofs (maxDischargeDepth := 30) +contextual [ha]

theorem keeps_execBlockRecordFetch (n : SlotIx) (h : execBlockRecordFetch n s = .next t) : Keeps s t := by
  refine keeps_run h (fun a ha => ?_)
  (repeat' split) <;> simp -implicitDefEqProofs (maxDischargeDepth := 30) +contextual [ha]

theorem keeps_execBlockStart (n : SlotIx) (h : execBlockStart n s = .next t) : Keeps s t := by
  refine keeps_run h (fun a ha => ?_)
  (repeat' split) <;> simp -implicitDefEqProofs (maxDischargeDepth := 30) +contextual [ha]

theorem keeps_execBaseLo (value : BitVec 32) (h : execBaseLo value s = .next t) : Keeps s t := by
  refine keeps_run h (fun a ha => ?_)
  simp -implicitDefEqProofs (maxDischargeDepth := 30) +contextual [ha]

theorem keeps_execBaseHi (value : BitVec 32) (h : execBaseHi value s = .next t) : Keeps s t := by
  refine keeps_runState h (fun u hu => ?_)
  (repeat' split) <;> simp -implicitDefEqProofs (maxDischargeDepth := 30) +contextual [hu]

theorem keeps_execNudgeOrderChain (h : execNudgeOrderChain s = .next t) : Keeps s t := by
  refine keeps_run h (fun a ha => ?_)
  simp -implicitDefEqProofs (maxDischargeDepth := 30) +contextual [ha]

theorem keeps_execNudgeBlockChain (n : SlotIx) (h : execNudgeBlockChain n s = .next t) : Keeps s t := by
  refine keeps_run h (fun a ha => ?_)
  simp -implicitDefEqProofs (maxDischargeDepth := 30) +contextual [ha]

theorem keeps_execNudgeRescan (h : execNudgeRescan s = .next t) : Keeps s t := by
  refine keeps_runState h (fun u hu => ?_)
  (repeat' split) <;> simp -implicitDefEqProofs (maxDischargeDepth := 30) +contextual [hu]

theorem keeps_execLine (value : BitVec 32) (h : execLine value s = .next t) : Keeps s t := by
  refine keeps_runState h (fun u hu => ?_)
  (repeat' split) <;> simp -implicitDefEqProofs (maxDischargeDepth := 30) +contextual [hu]

theorem keeps_execIgnoredRegisterWrite (_offset : BitVec 8) (_value : BitVec 32) (h : execIgnoredRegisterWrite _offset _value s = .next t) :
    Keeps s t := by
  cases h
  exact Keeps.refl s

theorem keeps_execOrderFetch (h : execOrderFetch s = .next t) : Keeps s t := by
  refine keeps_run h (fun a ha => ?_)
  simp -implicitDefEqProofs (maxDischargeDepth := 30) +contextual [ha]

theorem keeps_execStoreEnd (verified : Bool) (h : execStoreEnd verified s = .next t) : Keeps s t := by
  refine keeps_run h (fun a ha => ?_)
  simp -implicitDefEqProofs (maxDischargeDepth := 30) +contextual [ha]

theorem keeps_execNop (h : execNop s = .next t) : Keeps s t := by
  refine keeps_run h (fun a ha => ?_)
  simp -implicitDefEqProofs (maxDischargeDepth := 30) +contextual [ha]

theorem keeps_execReadState (h : execReadState s = .next t) : Keeps s t := by
  refine keeps_run h (fun a ha => ?_)
  simp -implicitDefEqProofs (maxDischargeDepth := 30) +contextual [ha]

theorem keeps_execBadKind (h : execBadKind s = .next t) : Keeps s t := by
  refine keeps_run h (fun a ha => ?_)
  simp -implicitDefEqProofs (maxDischargeDepth := 30) +contextual [ha]

theorem keeps_execArmPort (h : execArmPort s = .next t) : Keeps s t := by
  refine keeps_run h (fun a ha => ?_)
  simp -implicitDefEqProofs (maxDischargeDepth := 30) +contextual [ha]

theorem keeps_execHoldPort (h : execHoldPort s = .next t) : Keeps s t := by
  refine keeps_run h (fun a ha => ?_)
  simp -implicitDefEqProofs (maxDischargeDepth := 30) +contextual [ha]

theorem keeps_execJoin (h : execJoin s = .next t) : Keeps s t := by
  refine keeps_run h (fun a ha => ?_)
  simp -implicitDefEqProofs (maxDischargeDepth := 30) +contextual [ha]

theorem keeps_execLeave (h : execLeave s = .next t) : Keeps s t := by
  refine keeps_run h (fun a ha => ?_)
  simp -implicitDefEqProofs (maxDischargeDepth := 30) +contextual [ha]

theorem keeps_execAdmitFrame (h : execAdmitFrame s = .next t) : Keeps s t := by
  refine keeps_run h (fun a ha => ?_)
  simp -implicitDefEqProofs (maxDischargeDepth := 30) +contextual [ha]

theorem keeps_execRefuse (h : execRefuse s = .next t) : Keeps s t := by
  refine keeps_run h (fun a ha => ?_)
  simp -implicitDefEqProofs (maxDischargeDepth := 30) +contextual [ha]

theorem keeps_execSetFilter (h : execSetFilter s = .next t) : Keeps s t := by
  refine keeps_run h (fun a ha => ?_)
  simp -implicitDefEqProofs (maxDischargeDepth := 30) +contextual [ha]

theorem keeps_execScheduleTrigger (h : execScheduleTrigger s = .next t) : Keeps s t := by
  refine keeps_run h (fun a ha => ?_)
  simp -implicitDefEqProofs (maxDischargeDepth := 30) +contextual [ha]

theorem keeps_execCancelTrigger (h : execCancelTrigger s = .next t) : Keeps s t := by
  refine keeps_run h (fun a ha => ?_)
  simp -implicitDefEqProofs (maxDischargeDepth := 30) +contextual [ha]

theorem keeps_execSendNote (h : execSendNote s = .next t) : Keeps s t := by
  refine keeps_run h (fun a ha => ?_)
  simp -implicitDefEqProofs (maxDischargeDepth := 30) +contextual [ha]

theorem keeps_execSetSettings (h : execSetSettings s = .next t) : Keeps s t := by
  refine keeps_run h (fun a ha => ?_)
  simp -implicitDefEqProofs (maxDischargeDepth := 30) +contextual [ha]

theorem keeps_execStoreSettings (h : execStoreSettings s = .next t) : Keeps s t := by
  refine keeps_run h (fun a ha => ?_)
  simp -implicitDefEqProofs (maxDischargeDepth := 30) +contextual [ha]

theorem keeps_execOpenStream (h : execOpenStream s = .next t) : Keeps s t := by
  refine keeps_run h (fun a ha => ?_)
  simp -implicitDefEqProofs (maxDischargeDepth := 30) +contextual [ha]

theorem keeps_execCloseStream (h : execCloseStream s = .next t) : Keeps s t := by
  refine keeps_run h (fun a ha => ?_)
  simp -implicitDefEqProofs (maxDischargeDepth := 30) +contextual [ha]

theorem keeps_execHaltStream (h : execHaltStream s = .next t) : Keeps s t := by
  refine keeps_run h (fun a ha => ?_)
  simp -implicitDefEqProofs (maxDischargeDepth := 30) +contextual [ha]

theorem keeps_execResumeStream (h : execResumeStream s = .next t) : Keeps s t := by
  refine keeps_run h (fun a ha => ?_)
  simp -implicitDefEqProofs (maxDischargeDepth := 30) +contextual [ha]

/-! ## The reset commands -/

theorem keeps_deviceReset (s : State) : Keeps (resetUnits s) (finish (deviceReset s)) := by
  refine keeps_finish _ ?_
  have h := Keeps.refl (resetUnits s)
  unfold deviceReset
  simp -implicitDefEqProofs (maxDischargeDepth := 30) +contextual [h]

/-- A device reset empties every bounded store and leaves host memory as it is (R186). -/
theorem inv_resetUnits (h : Inv s) : Inv (resetUnits s) :=
  ⟨h.memory, ⟨fun p => by
    have : (resetUnits s).link p = Link.reset := by
      simp [State.link, resetUnits, State.reset, Vector.get]
    rw [this]
    exact ⟨Nat.zero_le _, Nat.zero_le _, Nat.zero_le _⟩, Nat.zero_le _, Nat.zero_le _, Nat.zero_le _⟩⟩

theorem inv_deviceReset (h : Inv s) : Inv (finish (deviceReset s)) := (keeps_deviceReset s).inv (inv_resetUnits h)

/-! ## Every command, every step -/

/-- Every command but the two reset commands keeps what `Keeps` names. -/
theorem keeps_exec {c : Instr} (h : exec c s = .next t) (h1 : c ≠ .deviceReset) (h2 : c ≠ .resetInputAsserted) :
    Keeps s t := by
  cases c
  case deviceReset => exact absurd rfl h1
  case resetInputAsserted => exact absurd rfl h2
  case wakeInterval p => exact keeps_execWakeInterval _ h
  case wakeReceived p => exact keeps_execWakeReceived _ h
  case noise p => exact keeps_execNoise _ h
  case quiet p => exact keeps_execQuiet _ h
  case symbolLock p => exact keeps_execSymbolLock _ h
  case lossOfSignal p what => exact keeps_execLossOfSignal _ _ h
  case timeout p => exact keeps_execTimeout _ h
  case probeTimer p => exact keeps_execProbeTimer _ h
  case silent p => exact keeps_execSilent _ h
  case erroneousCell p raw => exact keeps_execErroneousCell _ _ h
  case probe rx => exact keeps_execProbe _ h
  case echo rx => exact keeps_execEcho _ h
  case time rx => exact keeps_execTime _ h
  case trig rx => exact keeps_execTrig _ h
  case beacon rx => exact keeps_execBeacon _ h
  case roll rx => exact keeps_execRoll _ h
  case hello rx => exact keeps_execHello _ h
  case verdict rx => exact keeps_execVerdict _ h
  case leaveCell rx => exact keeps_execLeaveCell _ h
  case openCell rx => exact keeps_execOpenCell _ h
  case openAnswer rx => exact keeps_execOpenAnswer _ h
  case credit rx => exact keeps_execCredit _ h
  case blockack rx => exact keeps_execBlockack _ h
  case halt rx => exact keeps_execHalt _ h
  case close rx => exact keeps_execClose _ h
  case data rx => exact keeps_execData _ h
  case note rx => exact keeps_execNote _ h
  case noteAnswer rx => exact keeps_execNoteAnswer _ h
  case relay k rx => exact keeps_execRelay _ _ h
  case arbiterDecision p => exact keeps_execArbiterDecision _ h
  case dataCellSent p => exact keeps_execDataCellSent _ h
  case periodTimer => exact keeps_execPeriodTimer h
  case anchorSilence => exact keeps_execAnchorSilence h
  case helloTimer => exact keeps_execHelloTimer h
  case rollTimer => exact keeps_execRollTimer h
  case windowDeadline => exact keeps_execWindowDeadline h
  case strayDeadline f => exact keeps_execStrayDeadline _ h
  case leaveLimit => exact keeps_execLeaveLimit h
  case emissionTimer => exact keeps_execEmissionTimer h
  case timeWatch => exact keeps_execTimeWatch h
  case holdoverLimit => exact keeps_execHoldoverLimit h
  case enabledEdge k => exact keeps_execEnabledEdge _ h
  case inputDeasserted k => exact keeps_execInputDeasserted _ h
  case holdLimit k => exact keeps_execHoldLimit _ h
  case unmuteTimer k => exact keeps_execUnmuteTimer _ h
  case firing => exact keeps_execFiring h
  case pulseEnd k => exact keeps_execPulseEnd _ h
  case openRepeat n => exact keeps_execOpenRepeat _ h
  case openLimit n => exact keeps_execOpenLimit _ h
  case startGate n => exact keeps_execStartGate _ h
  case pacePoint n => exact keeps_execPacePoint _ h
  case creditPeriod n => exact keeps_execCreditPeriod _ h
  case haltRepeat n => exact keeps_execHaltRepeat _ h
  case strandDeadline n => exact keeps_execStrandDeadline _ h
  case closeDeadline n => exact keeps_execCloseDeadline _ h
  case acknowledgementTimer n block => exact keeps_execAcknowledgementTimer _ _ h
  case blockRecordFetch n => exact keeps_execBlockRecordFetch _ h
  case blockStart n => exact keeps_execBlockStart _ h
  case answerTimer number => exact keeps_execAnswerTimer _ h
  case waitingNoteTaken => exact keeps_execWaitingNoteTaken h
  case baseLo value => exact keeps_execBaseLo _ h
  case baseHi value => exact keeps_execBaseHi _ h
  case nudgeOrderChain => exact keeps_execNudgeOrderChain h
  case nudgeBlockChain n => exact keeps_execNudgeBlockChain _ h
  case nudgeRescan => exact keeps_execNudgeRescan h
  case line value => exact keeps_execLine _ h
  case ignoredRegisterWrite offset value => exact keeps_execIgnoredRegisterWrite offset value h
  case orderFetch => exact keeps_execOrderFetch h
  case nop => exact keeps_execNop h
  case readState => exact keeps_execReadState h
  case armPort => exact keeps_execArmPort h
  case holdPort => exact keeps_execHoldPort h
  case join => exact keeps_execJoin h
  case leave => exact keeps_execLeave h
  case admitFrame => exact keeps_execAdmitFrame h
  case refuse => exact keeps_execRefuse h
  case setFilter => exact keeps_execSetFilter h
  case scheduleTrigger => exact keeps_execScheduleTrigger h
  case cancelTrigger => exact keeps_execCancelTrigger h
  case openStream => exact keeps_execOpenStream h
  case closeStream => exact keeps_execCloseStream h
  case haltStream => exact keeps_execHaltStream h
  case resumeStream => exact keeps_execResumeStream h
  case sendNote => exact keeps_execSendNote h
  case setSettings => exact keeps_execSetSettings h
  case storeSettings => exact keeps_execStoreSettings h
  case badKind => exact keeps_execBadKind h
  case storeEnd verified => exact keeps_execStoreEnd _ h
  case resynchronisation p => exact keeps_execResynchronisation _ h
  case signalPresent p => exact keeps_execSignalPresent _ h

/-- No command faults or is refused. -/
theorem exec_next (c : Instr) (s : State) : ∃ t, exec c s = .next t := by
  cases c <;>
    simp only [exec, runState, execDeviceReset, execResetInputAsserted, execWakeInterval, execWakeReceived,
      execNoise, execQuiet, execSymbolLock, execLossOfSignal, execTimeout, execProbeTimer, execSilent,
      execErroneousCell, execProbe, execEcho, execTime, execTrig, execBeacon, execRoll, execHello, execVerdict,
      execLeaveCell, execOpenCell, execOpenAnswer, execCredit, execBlockack, execHalt, execClose, execData,
      execNote, execNoteAnswer, execRelay, execArbiterDecision, execDataCellSent, execPeriodTimer,
      execAnchorSilence, execHelloTimer, execRollTimer, execWindowDeadline, execStrayDeadline, execLeaveLimit,
      execEmissionTimer, execTimeWatch, execHoldoverLimit, execEnabledEdge, execInputDeasserted, execHoldLimit,
      execUnmuteTimer, execFiring, execPulseEnd, execOpenRepeat, execOpenLimit, execStartGate, execPacePoint,
      execCreditPeriod, execHaltRepeat, execStrandDeadline, execCloseDeadline, execAcknowledgementTimer,
      execBlockRecordFetch, execBlockStart, execAnswerTimer, execWaitingNoteTaken, execBaseLo, execBaseHi,
      execNudgeOrderChain, execNudgeBlockChain, execNudgeRescan, execLine, execIgnoredRegisterWrite,
      execOrderFetch, execNop, execReadState, execArmPort, execHoldPort, execJoin, execLeave, execAdmitFrame,
      execRefuse, execSetFilter, execScheduleTrigger, execCancelTrigger, execOpenStream, execCloseStream,
      execHaltStream, execResumeStream, execSendNote, execSetSettings, execStoreSettings, execBadKind,
      execStoreEnd, execResynchronisation, execSignalPresent] <;>
    first
    | exact run_next _ _
    | exact ⟨_, rfl⟩

theorem inv_exec {c : Instr} (h : exec c s = .next t) (hi : Inv s) : Inv t := by
  by_cases h1 : c = .deviceReset
  · subst h1; cases h; exact inv_deviceReset hi
  · by_cases h2 : c = .resetInputAsserted
    · subst h2; cases h; exact ⟨hi.memory, ⟨hi.capacity.queues, hi.capacity.orders, hi.capacity.schedule, hi.capacity.notes⟩⟩
    · exact (keeps_exec h h1 h2).inv hi

end Sys2Proof.Machine
end

