-- ==== Sys2Proof/Laws/Writes.lean ====
section
/-! SUPPORT. What a read and a write of host memory do where nothing faults, and where something does. -/

namespace Sys2Proof.Machine

theorem minFault_eq_none {x y : Option Nat} : minFault x y = none ↔ x = none ∧ y = none := by
  cases x <;> cases y <;> simp [minFault]

/-- A region touches no part of a range it does not touch. -/
theorem regionFault_sub {r : Region} {a len b m : Nat} (h : regionFault r a len = none) (h1 : a ≤ b)
    (h2 : b + m ≤ a + len) : regionFault r b m = none := by
  unfold regionFault at *
  split at h
  · simp at h
  · rw [if_neg (by omega)]

theorem foldl_minFault_none {rs : List Region} {a len : Nat} {x : Option Nat} :
    rs.foldl (fun f r => minFault f (regionFault r a len)) x = none ↔ x = none ∧ ∀ r ∈ rs, regionFault r a len = none := by
  induction rs generalizing x with
  | nil => simp
  | cons r rs ih => rw [List.foldl_cons, ih, minFault_eq_none]; simp [and_assoc]

/-- An access inside a run that does not fault does not fault. -/
theorem firstFault_sub {rs : List Region} {a len b m : Nat} (h : firstFault rs a len = none) (h1 : a ≤ b)
    (h2 : b + m ≤ a + len) : firstFault rs b m = none := by
  have hs := firstFault_none_space rs a len h
  unfold firstFault at *
  rw [foldl_minFault_none] at *
  exact ⟨by rw [if_neg (by omega)], fun r hr => regionFault_sub (h.2 r hr) h1 h2⟩

theorem memRead_ok {m : Memory} {a len : Nat} (h : firstFault m.readFaults a len = none) :
    memRead m a len = .ok ((List.range len).map (fun i => memByte m (a + i))) := by
  unfold memRead
  rw [h]

theorem memRead_error {m : Memory} {a len x : Nat} (h : firstFault m.readFaults a len = some x) :
    memRead m a len = .error x := by
  unfold memRead
  rw [h]

theorem memWrite_ok {m : Memory} {a : Nat} {bs : List Byte} (h : firstFault m.writeFaults a bs.length = none) :
    memWrite m a bs = .ok { m with cells := storeCells m.cells a bs } := by
  unfold memWrite
  rw [h]

theorem writeHost_ok {s : State} {a : Nat} {bs : List Byte} (h : firstFault s.mem.writeFaults a bs.length = none) :
    writeHost s a bs = .ok { s with mem := { s.mem with cells := storeCells s.mem.cells a bs } } := by
  unfold writeHost
  rw [memWrite_ok h]

theorem writeHost_error {s : State} {a x : Nat} {bs : List Byte}
    (h : firstFault s.mem.writeFaults a bs.length = some x) : writeHost s a bs = .error x := by
  unfold writeHost memWrite
  rw [h]

/-! ## The lowest faulting address -/

theorem minFault_eq_some {x y : Option Nat} {z : Nat} (h : minFault x y = some z) :
    (x = some z ∨ y = some z) ∧ (∀ w, x = some w → z ≤ w) ∧ ∀ w, y = some w → z ≤ w := by
  cases x <;> cases y <;> simp [minFault] at h ⊢ <;> omega

theorem foldl_minFault_some {rs : List Region} {a len z : Nat} {f : Option Nat}
    (h : rs.foldl (fun f r => minFault f (regionFault r a len)) f = some z) :
    (f = some z ∨ ∃ r ∈ rs, regionFault r a len = some z) ∧ (∀ w, f = some w → z ≤ w) ∧
      ∀ r ∈ rs, ∀ w, regionFault r a len = some w → z ≤ w := by
  induction rs generalizing f with
  | nil => simp_all
  | cons r rs ih =>
    obtain ⟨h1, h2, h3⟩ := ih h
    constructor
    · rcases h1 with h1 | ⟨r', hr, h1⟩
      · rcases (minFault_eq_some h1).1 with h1 | h1
        · exact .inl h1
        · exact .inr ⟨r, by simp, h1⟩
      · exact .inr ⟨r', by simp [hr], h1⟩
    · cases hm : minFault f (regionFault r a len) with
      | none =>
        rw [minFault_eq_none] at hm
        simp [hm.1, hm.2]
        exact h3
      | some y =>
        have := minFault_eq_some hm
        have hy := h2 y hm
        refine ⟨fun w hw => Nat.le_trans hy (this.2.1 w hw), fun r' hr w hw => ?_⟩
        rcases List.mem_cons.1 hr with rfl | hr
        · exact Nat.le_trans hy (this.2.2 w hw)
        · exact h3 r' hr w hw

/-- The faulting address of an access inside the address space is the lowest one: the part of the run below it does not
fault. -/
theorem firstFault_some {rs : List Region} {a len x : Nat} (ha : a ≤ addressSpace)
    (h : firstFault rs a len = some x) :
    a ≤ x ∧ firstFault rs a (x - a) = none := by
  unfold firstFault at h
  obtain ⟨h1, h2, h3⟩ := foldl_minFault_some h
  have hr : a ≤ x ∧ x ≤ a + len := by
    rcases h1 with h1 | ⟨r, _, h1⟩
    · split at h1 <;> simp at h1
      rename_i hs
      exact h1 ▸ ⟨Nat.le_max_left .., Nat.max_le.2 ⟨Nat.le_add_right .., Nat.le_of_lt hs⟩⟩
    · unfold regionFault at h1
      split at h1 <;> simp at h1
      omega
  refine ⟨hr.1, ?_⟩
  unfold firstFault
  rw [foldl_minFault_none]
  constructor
  · rw [if_neg]
    intro hs
    have := h2 (max a addressSpace) (if_pos (by omega))
    rw [Nat.max_eq_right ha] at this
    omega
  · intro r hm
    unfold regionFault
    rw [if_neg]
    intro hs
    have := h3 r hm (max a r.base) (by unfold regionFault; rw [if_pos (by omega)])
    omega

/-- A write that faults leaves the bytes below the faulting address written, and nothing else. -/
theorem writeUpTo_eq {s : State} {a x : Nat} {bs : List Byte} (ha : a ≤ addressSpace)
    (h : firstFault s.mem.writeFaults a bs.length = some x) :
    writeUpTo s a bs x = { s with mem := { s.mem with cells := storeCells s.mem.cells a (bs.take (x - a)) } } := by
  unfold writeUpTo
  rw [writeHost_ok (firstFault_sub (firstFault_some ha h).2 (Nat.le_refl a) (by rw [List.length_take]; omega))]

end Sys2Proof.Machine
end

