-- ==== Sys2Proof/Tests/Slice0.lean ====
section
/-! SUPPORT. The model's own tests: ill-formed terms refused, concrete states that meet the hypotheses of every
statement, and what some commands do on them. -/

open Sys2Proof Sys2Proof.Machine Sys2Proof.Statements

namespace Sys2Proof.Tests

set_option Elab.async false

/-! ## Small states -/

/-- The state a command leaves. -/
def after (c : Instr) (s : State) : State := match exec c s with | .next t => t | .fault _ | .refused _ => s

/-- Every port's record replaced. -/
def withPorts (s : State) (r : Port) : State := { s with ports := Vector.replicate 4 r }

/-- A port in a state, its receive stage ready, its timers running from 5. -/
def portIn (st : PortState) : Port :=
  { Port.reset with
    state := st, rxStage := .ready, signal := true, lock := true, partnerSerial := 107, partnerFrame := 7
    partnerIncarnation := 3, samples := [10, 12, 10, 12], noiseSince := some 5, quietSince := some 5
    trainingSince := some 5, lastProbe := some 5, silenceSince := some 5 }

/-- Every port in a state. -/
def portsIn (st : PortState) : State := withPorts State.reset (portIn st)

/-- What frame `f` says of itself. -/
def contentsOfFrame (f : Nat) : Contents :=
  { frame := BitVec.ofNat 8 f, anchorRank := 4, timeRank := 4, timeState := 1, serial := BitVec.ofNat 48 (100 + f)
    incarnation := 3, generation := 2, followedAnchor := 7, followedMaster := 7, standing := 4, leaving := 0 }

/-- A neighbour reached through a port. -/
def routeTo (f : Nat) (p : PortIx) (hops : Nat := 1) : Route :=
  { hops := hops, port := p, incarnation := 3, sequence := 10, age := 0, refreshed := false, contents := contentsOfFrame f }

/-- An entry of the roster copy. -/
def entryOf (st : EntryState) (serial : Nat) : RosterEntry :=
  ⟨st, BitVec.ofNat 48 serial, some ⟨2, 1, false, 5, 1⟩, some 9⟩

/-- Frame 5, MEMBER under anchor and master 7, LOCKED, with every port UP and an exchange attached at 0x10000: frames 7
and 9 are members reached through ports 0 and 1. -/
def node : State :=
  { portsIn .up with
    store := { SettingsStore.reset with working := { Settings.defaults with
      frame := 5, anchorRank := 3, timeRank := 3, lanes := upd Settings.defaults.lanes 0 (fun _ => ⟨true, false, true, 100, 1⟩) } }
    reach := { Reach.reset with
      portSet := Vector.replicate 4 true
      table := upd (upd Reach.reset.table 7 (fun _ => some (routeTo 7 0))) 9 (fun _ => some (routeTo 9 1)) }
    roster := { Roster.reset with
      standing := .member, anchor := 7, generation := 2, issuer := 7
      entries := upd (upd (upd Roster.reset.entries 5 (fun _ => ⟨.member, 1, none, none⟩)) 7
        (fun _ => entryOf .member 107)) 9 (fun _ => entryOf .member 109) }
    tb := { Timebase.reset with state := .locked, master := 7, distance := some 1, watchSince := some 5, rackTime := 1000 }
    ex := { Exchange.reset with state := .attached, area := some 0x10000, lastSequence := some 3 } }

/-- The node as anchor. -/
def anchorNode : State := { node with roster := { node.roster with anchor := 5, issuer := 5 } }

/-- A cell received on port 0 from frame 7. -/
def cellFrom (dest : Byte) (payload : List Byte) (origin : FrameNo := 7) : Rx :=
  { port := 0, stamp := 2000, steps := 0, origin := origin, dest := dest, hops := 0, incarnation := 3, floodSeq := 11
    word := 0, payload := payload }

/-- An order of a kind with parameter bytes. -/
def anOrder (k : OrderKind) (parameters : List Byte := []) : Order :=
  ⟨0x20000, 3, BitVec.ofNat 8 (orderKindCode k), padTo 48 parameters, .dispatched⟩

/-- An order in the window. -/
def ordered (s : State) (o : Order) : State := { s with ex := { s.ex with window := [o] } }

/-- A slot's record replaced. -/
def slotted (n : SlotIx) (x : Slot) (s : State := node) : State := s.modSlot n (fun _ => x)

/-- Bytes placed in host memory. -/
def placed (s : State) (a : Nat) (bs : List Byte) : State :=
  { s with mem := { s.mem with cells := storeCells s.mem.cells a bs } }

/-- A state in which reads and writes of `size` bytes from an address on fault. -/
def faulting (s : State) (a size : Nat) : State :=
  { s with mem := { s.mem with readFaults := [⟨a, size⟩], writeFaults := [⟨a, size⟩] } }

/-- An order run on the node. -/
def ran (c : Instr) (k : OrderKind) (parameters : List Byte) (s : State := node) : State :=
  after c (ordered s (anOrder k parameters))

/-- The outcome and detail an order left in its record. -/
def answerIn (s : State) : List Nat := (bytesIn s.mem 0x2000D 3).map (·.toNat)

/-- A slot of a role in a state. -/
def slotIn (r : Role) (st : StreamState) : Slot :=
  { Slot.reset with
    role := r, state := st, tag := 6, peer := 7, openNumber := 2, peerIncarnation := some 3, blockSize := 256
    interval := 1, creditLimit := 4, expBlock := 2, nextBlock := 2 }

/-- The node with its roster record changed. -/
def rosterNode (f : Roster → Roster) (s : State := node) : State := { s with roster := f s.roster }

/-- The node in a timebase state. -/
def timeIn (st : TimeState) (f : Timebase → Timebase := id) (s : State := node) : State :=
  { s with tb := f { s.tb with state := st } }

/-- The hypotheses of a received cell, as one test. -/
def arrives (k : Kind) (rx : Rx) (st : PortState) (s : State) : Bool :=
  !s.inReset && decide ((s.port rx.port).state = st) && decide ((s.port rx.port).rxStage = .ready) && cellWf k rx

theorem arrives_of {k : Kind} {rx : Rx} {st : PortState} {s : State} (h : arrives k rx st s = true) :
    Arrives k rx st s := by
  simp only [arrives, Bool.and_eq_true, Bool.not_eq_true', decide_eq_true_eq] at h
  exact ⟨h.1.1.1, h.1.1.2, h.1.2, h.2⟩

/-- An order put in the window of a running part is its owner's oldest. -/
theorem oldest_of (k : OrderKind) (parameters : List Byte) {s : State} (h : s.inReset = false) :
    Oldest k (anOrder k parameters) (ordered s (anOrder k parameters)) := by
  refine ⟨h, ?_, ?_⟩ <;> cases k <;> rfl

/-! ## Well-formedness: an ill-formed term for each check -/

theorem test_goodCell_refused : Instr.wf (.erroneousCell 0 ⟨lineBytes (rxCell .probe (cellFrom 0 [])), .endDelimiter⟩) = false := by
  decide +kernel

theorem test_cutCell_refused : (Instr.erroneousCell 0 ⟨zeros 276, .noDelimiter⟩).wf = false ∧
    (Instr.erroneousCell 0 ⟨zeros 277, .noDelimiter⟩).wf = true := by decide +kernel

theorem test_longPayload_refused : ∀ c ∈ [Instr.time, .note, .data, .beacon], (c (cellFrom 0 (zeros 257))).wf = false := by
  decide +kernel

theorem test_destination_refused : ([Instr.probe, .echo, .time, .trig, .beacon, .roll].map (fun c => c (cellFrom 7 []))).any Instr.wf = false ∧
    ([Instr.hello, .verdict, .leaveCell, .openCell, .openAnswer, .credit, .blockack, .halt, .close, .data, .note, .noteAnswer].map
      (fun c => c (cellFrom 63 []))).any Instr.wf = false ∧
    (Instr.note (cellFrom 5 [] 0)).wf = false := by
  decide +kernel

theorem test_relay_refused : (Instr.relay .probe (cellFrom 0 [])).wf = false ∧ (Instr.relay .trig (cellFrom 63 [])).wf = false := by
  decide +kernel

theorem test_frameZero_refused : (Instr.strayDeadline 0).wf = false := by decide

theorem test_registerWrite_refused : (Instr.ignoredRegisterWrite 0x10 0x13F).wf = false ∧
    (Instr.ignoredRegisterWrite 0x10 0).wf = false ∧ (Instr.ignoredRegisterWrite 0x14 1).wf = false ∧
    (Instr.ignoredRegisterWrite 0x10 0x140).wf = true ∧ (Instr.ignoredRegisterWrite 0x04 1).wf = true := by
  decide +kernel

/-! ## The machine and reset -/

theorem test_step_hypotheses : ({ node with pending := [Instr.nudgeRescan] } : State).pending = Instr.nudgeRescan :: [] := rfl

theorem test_idle_hypotheses : node.pending = [] ∧ node.inReset = false ∧ node.tb.correction = 0 ∧ node.tb.slewResidue + 1 < 100000
    ∧ ({ node with inReset := true } : State).inReset = true := by decide +kernel

theorem test_slew_hypotheses : node.tb.slewResidue < 100000 ∧ (2000 : Time).toNat + 1 < 2 ^ 64 ∧
    node.now + 0 < (advanceToRack node 2000).now ∧ (advanceToRack node 2000).tb.rackTime = 2000 := by decide +kernel

theorem test_inv_hypotheses : Inv node :=
  ⟨by unfold MemoryOk; decide +kernel, by constructor <;> (try unfold LinkOk) <;> decide +kernel⟩

theorem test_cellBytes_hypotheses : (zeros 256).length ≤ 256 ∧ headerFits .data 5 7 = true := by decide +kernel

theorem test_reset_hypotheses : ({ node with inReset := true } : State).inReset = true ∧ node.inReset = false := ⟨rfl, rfl⟩

theorem test_reset :
    (after .resetInputAsserted node).inReset = true ∧ (after .deviceReset (after .resetInputAsserted node)).inReset = false ∧
    (after .nudgeRescan (after .resetInputAsserted node)) = after .resetInputAsserted node ∧
    (after .deviceReset node).store.incarnation = node.store.incarnation + 1 := by decide +kernel
/-! ## Port units -/

theorem test_darkTimers_hypotheses :
    State.reset.inReset = false ∧ (State.reset.port 3).state = .dark ∧
    ((portsIn .dark).port 0).noiseSince = some 5 ∧ ((portsIn .lockout).port 3).quietSince = some 5 ∧
    ((portsIn .lockout).port 3).state = .lockout := by decide +kernel

theorem test_darkTimers :
    ((after (.wakeInterval 3) State.reset).port 3).bursts = 2 ∧ (after (.wakeInterval 3) State.reset).now = 1000000000 ∧
    ((after (.noise 0) (portsIn .dark)).port 0).state = .lockout ∧ (after (.noise 0) (portsIn .dark)).now = 10000005 ∧
    ((after (.quiet 0) (portsIn .lockout)).port 0).cause = .quiet := by decide +kernel

/-- A TRAINING port that has signal and no lock. -/
def unlocked : State := withPorts State.reset { portIn .training with lock := false }

theorem test_receiver_hypotheses :
    (∀ st ∈ [PortState.dark, .up, .lockout, .held, .training, .faulted], ((portsIn st).port 3).state = st) ∧
    (unlocked.port 0).lock = false ∧ (unlocked.port 0).state = .training := by decide +kernel

theorem test_receiver :
    ((after (.wakeReceived 0) State.reset).port 0).state = .training ∧
    ((after (.symbolLock 0) unlocked).link 0).tQueue.length = 1 ∧
    ((after (.signalPresent 0) State.reset).port 0).noiseSince = some 0 ∧
    ((after (.resynchronisation 0) (portsIn .up)).port 0).rxStage = .ready := by decide +kernel

theorem test_lockProbes : ((after (.symbolLock 0) unlocked).link 0).tQueue.map (·.cell.kind) = [.probe] ∧
    ((after (.symbolLock 0) unlocked).port 0).probeNumber = 1 := by decide +kernel

theorem test_loss_hypotheses :
    hadLine .lock ((portsIn .up).port 3) = true ∧ hadLine .signal ((portsIn .training).port 0) = true ∧
    hadLine .signal (unlocked.port 0) = true ∧ hadLine .lock ((portsIn .dark).port 0) = true := by decide +kernel

theorem test_loss :
    ((after (.lossOfSignal 0 .signal) (portsIn .training)).port 0).attempts = 1 ∧
    ((after (.lossOfSignal 0 .signal) (portsIn .training)).port 0).cause = .lost ∧
    ((after (.lossOfSignal 0 .signal) unlocked).port 0).state = .training := by decide +kernel

theorem test_trainingTimers_hypotheses :
    ((portsIn .training).port 0).trainingSince = some 5 ∧ ((portsIn .up).port 3).silenceSince = some 5 ∧
    ((portsIn .training).port 0).lastProbe = some 5 ∧ ((portsIn .training).port 0).lock = true ∧
    ((portsIn .up).port 3).lastProbe = some 5 := by decide +kernel

theorem test_trainingTimers :
    ((after (.timeout 0) (portsIn .training)).port 0).state = .dark ∧ (after (.timeout 0) (portsIn .training)).now = 100000005 ∧
    ((after (.probeTimer 0) (portsIn .up)).port 0).probeNumber = 1 ∧
    ((after (.probeTimer 0) (portsIn .up)).port 0).lastProbe = some 100000005 ∧
    ((after (.probeTimer 0) ((portsIn .up).modLink 0 (fun l =>
      { l with tQueue := List.replicate 8 ⟨ownCell node .echo 0 [], none⟩ }))).port 0).probeNumber = 0 := by decide +kernel

theorem test_queues_hypotheses :
    capacityOf .tq ≤ (queueOf { Link.reset with tQueue := List.replicate 8 ⟨ownCell node .echo 0 [], none⟩ } .tq).length ∧
    ¬ capacityOf .cq ≤ (queueOf Link.reset .cq).length ∧ State.reset.route 7 = none := by decide +kernel

/-- Symbols with a null DELIMIT error, and with a CHECK error. -/
def nullRaw : RawCell := ⟨[0, 0], .otherSymbol⟩
def checkRaw : RawCell := ⟨zeros 20, .endDelimiter⟩

/-- An UP port with a health count and settling cells, whose last cell was a null error where asked. -/
def upWith (health settling : Nat) (lastNull : Bool) : State :=
  withPorts State.reset { portIn .up with health := health, settling := settling, lastNull := lastNull }

theorem test_erroneous_hypotheses :
    rawError nullRaw = some .delimit ∧ rawNull nullRaw = true ∧ rawError checkRaw = some .check ∧ rawNull checkRaw = false ∧
    rawError ⟨zeros 277, .endDelimiter⟩ = some .delimit ∧ rawError ⟨zeros 19, .endDelimiter⟩ = some .length ∧
    (256 < (cellFrom 5 (zeros 257)).payload.length ∧ rawNull ⟨zeros 276 ++ [1], .endDelimiter⟩ = false ∧ rawError ⟨zeros 276 ++ [1], .endDelimiter⟩ = some .delimit) ∧
    headerFits .data 0 7 = false ∧ headerFits .data 31 7 = true ∧ headerFits .trig 63 7 = true ∧ headerFits .note 5 0 = false ∧
    rawError ⟨lineBytes ⟨.data, 7, 0, 0, 0, 0, 0, []⟩, .endDelimiter⟩ = some .kind ∧
    ((upWith 31 1 true).port 0).lastNull = true ∧ 0 < ((upWith 31 1 false).port 0).settling ∧
    ((upWith 30 0 false).port 0).health + 1 ≤ State.reset.store.working.threshold ∧
    ¬ ((upWith 31 0 false).port 0).health + 1 ≤ State.reset.store.working.threshold := by decide +kernel

theorem test_erroneous :
    ((after (.erroneousCell 0 checkRaw) (upWith 30 0 false)).port 0).health = 31 ∧
    ((after (.erroneousCell 0 checkRaw) (upWith 30 0 false)).link 0).counters.check = 1 ∧
    ((after (.erroneousCell 0 nullRaw) (upWith 31 1 false)).port 0).settling = 0 ∧
    ((after (.erroneousCell 0 nullRaw) (upWith 31 1 false)).port 0).rxStage = .ignoring 0 := by decide +kernel

/-- A cell the signal's end cuts short is not reported; one the symbol limit ends is (R4, R5). -/
theorem test_cutCell : rawError ⟨zeros 276, .noDelimiter⟩ = none ∧ rawError ⟨zeros 277, .noDelimiter⟩ = some .delimit ∧
    after (.erroneousCell 0 ⟨zeros 276, .noDelimiter⟩) (upWith 30 0 true) = upWith 30 0 true := by decide +kernel

/-! ## Received cells -/

theorem test_notUp_hypotheses : Arrives .time (cellFrom 0 []) .training (portsIn .training) ∧
    Arrives .note (cellFrom 9 []) .training (portsIn .training) ∧ (portsIn .training).own = 0 ∧
    ((portsIn .lockout).port 0).state ≠ .training ∧ (State.reset.port 0).rxStage ≠ .ready :=
  ⟨arrives_of (by decide +kernel), arrives_of (by decide +kernel), by decide +kernel⟩

theorem test_notUp : ((after (.time (cellFrom 0 [])) (portsIn .training)).link 0).counters.trainingDiscard = 1 ∧
    ((after (.relay .note (cellFrom 9 [])) (portsIn .training)).link 0).counters.trainingDiscard = 1 ∧
    after (.relay .note (cellFrom 9 [])) State.reset = State.reset ∧
    after (.time (cellFrom 0 [])) State.reset = State.reset := by decide +kernel

/-- The node as an unnumbered part. -/
def unnumberedNode : State :=
  { node with store := { node.store with working := { node.store.working with frame := 0 } } }

theorem test_relay_hypotheses :
    Arrives .note (cellFrom 9 []) .up node ∧ Arrives .note (cellFrom 9 []) .up unnumberedNode ∧
    (9 : FrameNo) ≠ node.own ∧ node.route 9 = some (routeTo 9 1) ∧ node.route 7 = some (routeTo 7 0) ∧
    node.route 31 = none ∧ unnumberedNode.own = 0 ∧ ¬ ({ cellFrom 9 [] with hops := 7 } : Rx).hops.val < 7 ∧
    ({ cellFrom 9 [] with hops := 6 } : Rx).hops.val < 7 :=
  ⟨arrives_of (by decide +kernel), arrives_of (by decide +kernel), by decide +kernel⟩

theorem test_relay :
    ((after (.relay .note { cellFrom 9 [] with hops := 6 }) node).link 1).cQueue.map (·.cell.hops) = [7] ∧
    ((after (.relay .note { cellFrom 9 [] with hops := 7 }) node).link 0).counters.hops = 1 ∧
    ((after (.relay .note (cellFrom 7 [])) node).link 0).counters.reflect = 1 ∧
    ((after (.relay .note (cellFrom 31 [])) node).link 0).counters.noroute = 1 := by decide +kernel

/-- The node with the TRIG and ROLL records of frame 7 filled with sequence `q`. -/
def floodedNode (q : BitVec 16) : State :=
  { node with flood := upd node.flood 7 (fun _ => ⟨some ⟨3, q⟩, none, some ⟨3, q⟩⟩) }

theorem test_flood_hypotheses :
    Arrives .trig (cellFrom 63 [] 5) .up node ∧ Arrives .roll (cellFrom 63 []) .up (floodedNode 11) ∧
    floodRecord ((floodedNode 11).flood.get 7) .roll = some ⟨3, 11⟩ ∧ newer (11 : BitVec 16) 11 = false ∧
    newer (32778 : BitVec 16) 11 = true ∧ newer (32779 : BitVec 16) 11 = false ∧ (cellFrom 63 [] 5).origin = node.own :=
  ⟨arrives_of (by decide +kernel), arrives_of (by decide +kernel), by decide +kernel⟩

theorem test_flood : ((after (.trig (cellFrom 63 [] 5)) node).link 0).counters.own = 1 ∧
    (after (.roll (cellFrom 63 [])) (floodedNode 11)).roster.counters.rollIgnored = 0 ∧
    (after (.roll (cellFrom 63 [])) (floodedNode 10)).roster.counters.rollIgnored = 1 := by decide +kernel

theorem test_floodCopies :
    (let s := after (.trig (cellFrom 63 [])) (floodedNode 10)
     floodRecord (s.flood.get 7) .trig = some ⟨3, 11⟩ ∧ (s.link 0).tQueue = [] ∧ (s.link 3).tQueue.map (·.cell.hops) = [1]) ∧
    ((after (.trig { cellFrom 63 [] with hops := 7 }) (floodedNode 10)).link 3).tQueue = [] := by decide +kernel

/-- PROBE payloads: of the neighbour, of the own serial, of another serial. -/
def probeOf (serial : Serial) : Rx := cellFrom 0 (probePayload serial 3 9)

theorem test_probe_hypotheses :
    Arrives .probe (probeOf 107) .training (portsIn .training) ∧ Arrives .probe (probeOf 107) .up node ∧
    (probeOf 107).payload.length = 8 ∧ beAt (probeOf 107).payload 0 6 = (107 : Serial).toNat ∧
    beAt (probeOf 107).payload 6 1 = (3 : PortIx).val ∧ beAt (probeOf 107).payload 7 1 = (9 : BitVec 8).toNat ∧
    (1 : Serial) = node.serial ∧ (107 : Serial) = (node.port 0).partnerSerial ∧ (108 : Serial) ≠ (node.port 0).partnerSerial :=
  ⟨arrives_of (by decide +kernel), arrives_of (by decide +kernel), by decide +kernel⟩

/-- A PROBE and an ECHO whose payload form does not fit leave a TRAINING port with the report alone. -/
theorem test_unfitTraining :
    (∀ x ∈ [(Kind.probe, probeOf 0), (.echo, cellFrom 0 [])], arrives x.1 x.2 .training (portsIn .training) = true) ∧
    after (.probe (probeOf 0)) (portsIn .training) = portsIn .training ∧
    after (.echo (cellFrom 0 [])) (portsIn .training) = portsIn .training := by decide +kernel

theorem test_probe :
    ((after (.probe (probeOf 107)) node).link 0).tQueue.map (·.answers) = [some 2000] ∧
    ((after (.probe (probeOf 1)) (portsIn .training)).port 0).cause = .loopback ∧
    ((after (.probe (probeOf 108)) (portsIn .training)).port 0).partnerSerial = 108 := by decide +kernel

/-- The ports of a state with probe 4 outstanding and one round trip made. -/
def probing (st : PortState) : State :=
  withPorts State.reset { portIn st with outstanding := some ⟨4, 1000, 0⟩, trips := 1 }

def echoOf (number : BitVec 8) : Rx := cellFrom 0 (echoPayload number 980)

theorem test_echo_hypotheses :
    Arrives .echo (echoOf 4) .up (probing .up) ∧ Arrives .echo (echoOf 4) .training (probing .training) ∧
    (echoOf 4).payload.length = 12 ∧ beAt (echoOf 4).payload 0 1 = (4 : BitVec 8).toNat ∧
    beAt (echoOf 4).payload 4 8 = (980 : Time).toNat ∧ ((probing .training).port 0).outstanding = some ⟨4, 1000, 0⟩ ∧
    (portIn .up).samples.length = 4 ∧ ((111 : Int) - ((portIn .up).samples.sum / 4 : Nat)).natAbs ≤ 100 ∧
    100 < ((112 : Int) - ((portIn .up).samples.sum / 4 : Nat)).natAbs ∧ Port.reset.samples.length < 4 :=
  ⟨arrives_of (by decide +kernel), arrives_of (by decide +kernel), by decide +kernel⟩

theorem test_echo :
    ((after (.echo (echoOf 4)) (probing .up)).port 0).samples = [12, 10, 12, 10] ∧
    ((after (.echo (echoOf 5)) (probing .up)).port 0).trips = 1 ∧
    ((after (.echo (echoOf 4)) (probing .training)).port 0).state = .up ∧
    (offerMeasurement (portIn .up) (-1)).outliers = 1 := by decide +kernel

/-- R26, R28: a STEP leaves the departure time of an outstanding probe, and the round trip is less by it. -/
theorem test_step_probe :
    ((portsStep 500 (probing .up)).port 0).outstanding = some ⟨4, 1000, 500⟩ ∧
    ((portsStep (-500) (probing .up)).port 0).outstanding = some ⟨4, 1000, -500⟩ ∧
    measurement ⟨4, 1000, 500⟩ 2500 980 = 10 ∧ measurement ⟨4, 1000, -500⟩ 1500 980 = 10 := by decide +kernel

theorem test_trained_hypotheses :
    ((probing .training).port 0).state = .training ∧ ((probing .training).port 0).trainingSince = some 5 ∧
    ({ probing .training with now := 5 + trainingLimit } : State).now ≤ 5 + trainingLimit := by decide +kernel
/-! ## Exchange unit -/

/-- The node with a lane believed FULL. -/
def fullLane (k : NoticeIx) (p : Option PendingNotice) : State := setLane node k ⟨true, p⟩

theorem test_lanes_hypotheses :
    State.reset.memOpen = false ∧ (fullLane 11 none).memOpen = true ∧ ((fullLane 11 none).ex.lanes.get 11).full = true ∧
    (node.ex.lanes.get 0).full = false ∧ firstFault node.mem.writeFaults (areaBase node + 0x400 + 0x40 * 11) 64 = none ∧
    firstFault (faulting node 0x10401 1).mem.writeFaults (areaBase node + 0x401) 63 = some 0x10401 ∧
    firstFault (faulting node 0x106FF 1).mem.writeFaults (areaBase node + 0x400 + 0x40 * 11 + 1) 63 = some 0x106FF := by
  decide +kernel

theorem test_lanes :
    memByte (takeNotice node (.streams 5)).mem 0x10608 = 5 ∧ memByte (takeNotice node (.streams 5)).mem 0x10600 = 1 ∧
    ((takeNotice (fullLane 8 (some ⟨.streams 4, 255⟩)) (.streams 3)).ex.lanes.get 8).pending = some ⟨.streams 7, 255⟩ := by
  decide +kernel

/-- BROKEN: the slots closed for it, their orders and the notes let go, the lanes and the mask kept (R182). -/
theorem test_broken :
    let s := slotted 63 (slotIn .source .flowing) (ordered (fullLane 1 none) (anOrder .nop))
    let t := enterBroken { s with notes := { s.notes with waiting := [3] }, ex := { s.ex with mask := 5 } }
    t.ex.state = .broken ∧ t.ex.window = [] ∧ t.notes.waiting = [] ∧ t.ex.mask = 5 ∧ t.ex.lanes = s.ex.lanes ∧
    (t.slot 63).state = .closed ∧ (t.slot 63).cause = .exchangeBroken ∧
    (t.link 0).cQueue.map (fun q => (q.cell.kind, beAt q.cell.payload 8 1)) = [(.close, 4)] := by decide +kernel

/-- An act's posts are delivered in their order, the later word on top. -/
theorem test_delivered :
    memByte (finish ⟨node, [.notice (.streams 5), .notice (.streams 2)]⟩).mem 0x10608 = 5 ∧
    ((finish ⟨node, [.notice (.streams 5), .notice (.streams 2)]⟩).ex.lanes.get 8).pending = some ⟨.streams 2, 0⟩ := by
  decide +kernel

theorem test_posts_hypotheses : node.roster.leave = none ∧ State.reset.memOpen = false ∧ State.reset.roster.leave = none := by
  decide +kernel

theorem test_registers_hypotheses : node.inReset = false ∧ writeIgnored 0x10 0x201 = true ∧ writeIgnored 0x10 0xFF = true ∧
    writeIgnored 0x18 0 = true := by decide +kernel

theorem test_registers : readRegister node 0 = 0x004447D3 ∧ (after (.line 0xFFFFF) node).ex.mask = 0xFFF ∧
    lineAsserted (after (.line 2) (fullLane 1 none)).ex = true ∧ lineAsserted (after (.line 4) (fullLane 1 none)).ex = false ∧
    readRegister (after (.line 2) (fullLane 1 none)) 0x14 = 0x30002 ∧ after (.ignoredRegisterWrite 0x18 1) node = node := by
  decide +kernel

/-- A detached part with an Exchange Area header at 0x30000: a format and a chain head field. -/
def headed (format : Nat) : State := placed State.reset 0x30000 (leBytes 4 format ++ zeros 4 ++ leBytes 8 0x20000)

theorem test_baseLo_hypotheses :
    (State.reset.ex.baseHi ++ (0 : BitVec 32) : BitVec 64) = 0 ∧
    (State.reset.ex.baseHi ++ (0x30800 : BitVec 32) : BitVec 64).toNat % 4096 ≠ 0 ∧
    (State.reset.ex.baseHi ++ (0x30000 : BitVec 32) : BitVec 64).toNat = 0x30000 ∧
    leAt (bytesIn (headed 1).mem 0x30000 16) 0 4 = 1 ∧ leAt (bytesIn (headed 2).mem 0x30000 16) 0 4 ≠ 1 ∧
    firstFault (headed 1).mem.readFaults 0x30000 16 = none ∧
    firstFault (faulting State.reset 0x3000F 1).mem.readFaults 0x30000 16 = some 0x3000F ∧ node.ex.state ≠ .detached := by
  decide +kernel

theorem test_baseLo :
    (after (.baseLo 0x30000) (headed 1)).ex.state = .attached ∧
    (after (.baseLo 0x30000) (headed 1)).ex.chain = .headField 0x20000 ∧
    (after (.baseLo 0x30000) (headed 2)).ex.stallCause = some .badHeader ∧
    (after (.baseLo 0x30800) (headed 1)).ex.attachFault = true ∧ (after (.baseLo 0) node).ex.state = .detached ∧
    (after (.baseHi 3) node).ex.baseHi = 3 := by decide +kernel

/-- The node with a chain position and a not-posted stop where asked. -/
def chained (c : ChainPosition) (stop : Bool) : State := { node with ex := { node.ex with chain := c, notPosted := stop } }

/-- The node stalled with accesses to retry. -/
def stalledNode (xs : List StallAccess) : State := { node with ex := { node.ex with state := .stalled, stalls := xs } }

/-- An Order Record: link, sequence, kind, state. -/
def recordBytes (link sequence kind state : Nat) : List Byte :=
  leBytes 8 link ++ leBytes 4 sequence ++ leBytes 1 kind ++ leBytes 1 state

theorem test_nudgeOrders_hypotheses :
    nextOrderAddress (chained (.headField 0x20000) true).ex = some 0x20000 ∧
    nextOrderAddress (chained (.last 0x20000 0x20040) false).ex = some 0x20040 ∧
    (chained (.headField 0x20000) true).ex.notPosted = true ∧ (chained (.headField 0) false).ex.chain = .headField 0 ∧
    firstFault node.mem.readFaults (areaBase node + 8) 8 = none ∧ (chained (.last 0x20000 0) false).ex.chain = .last 0x20000 0 ∧
    (stalledNode [.linkRead]).ex.state = .stalled ∧ State.reset.ex.state = .detached := by decide +kernel

/-- The node with an order that waits for its completion write. -/
def completingNode : State := ordered (stalledNode [.completion 3]) { anOrder .nop with status := .completing ⟨.done, 0, []⟩ }

theorem test_retries_hypotheses :
    firstFault (faulting (chained (.headField 0) false) 0x1000F 1).mem.readFaults (areaBase node + 8) 8 = some 0x1000F ∧
    firstFault (faulting (chained (.last 0x20000 0) false) 0x20007 1).mem.readFaults 0x20000 8 = some 0x20007 ∧
    (windowOrder completingNode 3).map (·.status) = some (.completing ⟨.done, 0, []⟩) ∧ (windowOrder completingNode 4).isNone = true ∧
    node.ex.window.length < 16 ∧ leAt (recordBytes 0 4 1 1) 0x0D 1 = 1 ∧ node.ex.lastSequence = some 3 ∧
    leAt (bytesIn (headed 1).mem 0x30000 16) 0 4 = 1 ∧ firstFault (headed 1).mem.readFaults 0x30000 16 = none ∧
    areaBase node = 0x10000 ∧ leAt (bytesIn node.mem 0x10000 16) 0 4 ≠ 1 := by decide +kernel

theorem test_retries :
    (after .nudgeOrderChain completingNode).ex.window = [] ∧ (after .nudgeOrderChain completingNode).ex.state = .attached ∧
    (after .nudgeOrderChain (faulting (chained (.last 0x20000 0) false) 0x20007 1)).ex.stalls = [.linkRead] ∧
    (after .nudgeOrderChain (stalledNode [.header])).ex.stallCause = some .badHeader := by decide +kernel

theorem test_nudgeOrders :
    (after .nudgeOrderChain (placed (chained (.headField 0) false) 0x10008 (leBytes 8 0x20000))).ex.chain = .headField 0x20000 ∧
    (after .nudgeOrderChain (placed (chained (.headField 0x20000) true) 0x20000 (recordBytes 0 4 1 1))).ex.window.length = 1 ∧
    (after .nudgeOrderChain (stalledNode [.linkRead])).ex.state = .attached := by decide +kernel

/-- A slot stopped at the tail record at 0x40000, DONE. -/
def tailSlot : Slot :=
  { slotIn .source .flowing with stop := some .tail, lastRecord := some ⟨0x40000, true, true, some 1⟩ }

/-- A slot stopped where it may read on. -/
def stoppedAt (stop : FetchStop) (next : Option (BitVec 64)) (ended : Bool) : Slot :=
  { slotIn .source .flowing with stop := some stop, nextRecord := next, fetchEnded := ended, lastRecord := some ⟨0x40000, true, false, some 1⟩ }

theorem test_nudgeStops_hypotheses :
    (∀ st ∈ [FetchStop.notPosted, .memoryFault], (stoppedAt st (some 0x40040) false).stop = some st ∧
      (stoppedAt st (some 0x40040) true).fetchEnded = true ∧ (stoppedAt st (some 0x40040) false).fetched.length < 16) ∧
    (stoppedAt .memoryFault none true).nextRecord = none ∧ (stoppedAt .memoryFault none true).lastRecord.map (·.done) = some false ∧
    { tailSlot with writeStop := true }.writeStop = true ∧ (slotIn .source .flowing).stop = none ∧
    firstFault (faulting node 0x40007 1).mem.readFaults 0x40000 8 = some 0x40007 ∧
    leNat (bytesIn node.mem 0x40000 8) = 0 := by decide +kernel

theorem test_nudgeBlocks_hypotheses :
    State.reset.memOpen = false ∧ (node.slot 63).state = .closed ∧ node.memOpen = true ∧
    ((slotted 63 tailSlot).slot 63).state ≠ .closed ∧ ((slotted 63 tailSlot).slot 63).writeStop = false ∧
    ((slotted 63 tailSlot).slot 63).stop = some .tail ∧ ((slotted 63 tailSlot).slot 63).lastRecord.isSome = true ∧
    firstFault node.mem.readFaults 0x40000 8 = none ∧
    leNat (bytesIn (placed (slotted 63 tailSlot) 0x40000 (leBytes 8 0x40040)).mem 0x40000 8) ≠ 0 ∧
    firstFault node.mem.readFaults (areaBase node) 0x1800 = none ∧
    firstFault node.mem.writeFaults (areaBase node) 0x1800 = none := by decide +kernel

theorem test_nudgeBlocks :
    ((after (.nudgeBlockChain 63) (placed (slotted 63 tailSlot) 0x40000 (leBytes 8 0x40040))).slot 63).nextRecord = some 0x40040 ∧
    ((after (.nudgeBlockChain 63) (placed (slotted 63 tailSlot) 0x40000 (leBytes 8 0x40040))).slot 63).released = 1 ∧
    ((after .nudgeRescan (fullLane 1 none)).ex.lanes.get 1).full = false ∧
    ((after .nudgeRescan (placed (fullLane 1 none) 0x10440 [1])).ex.lanes.get 1).full = true ∧
    ((after .nudgeRescan (fullLane 8 (some ⟨.streams 7, 0⟩))).ex.lanes.get 8) = ⟨true, none⟩ := by decide +kernel

/-- A notice pending on the ERRORS lane. -/
def pendingError : PendingNotice := ⟨.errors .badHeader .badHeader .none 0 1, 0⟩

theorem test_rescanFaults_hypotheses :
    firstFault (faulting node 0x10400 1).mem.readFaults (areaBase node + 0x400) 1 = some 0x10400 ∧
    firstFault (faulting node 0x106C0 1).mem.readFaults (areaBase node + 0x6C0) 1 = some 0x106C0 ∧
    firstFault (faulting node 0x10F00 1).mem.readFaults (areaBase node + 0xF00) 1 = some 0x10F00 ∧
    firstFault node.mem.readFaults (areaBase node + 0x800) 1 = none ∧ memByte node.mem (areaBase node + 0x800) = 0 ∧
    memByte (placed node 0x10F00 [1]).mem (areaBase node + 0xF00) ≠ 0 ∧ (fullLane 8 none).memOpen = true ∧
    ((fullLane 8 (some ⟨.streams 7, 0⟩)).ex.lanes.get 8).pending = some ⟨.streams 7, 0⟩ ∧
    ((fullLane 11 none).ex.lanes.get 11).full = true ∧ memByte (placed node 0x10600 [1]).mem 0x10600 ≠ 0 ∧
    firstFault node.mem.writeFaults (areaBase node + 0x600) 64 = none ∧
    firstFault (faulting node 0x10601 1).mem.readFaults (areaBase node + 0x600) 1 = none ∧
    firstFault (faulting node 0x10601 1).mem.writeFaults (areaBase node + 0x600 + 1) 63 = some 0x10601 ∧
    firstFault [⟨0x10600, 1⟩] (areaBase node + 0x600 + 1) 63 = none ∧
    firstFault [⟨0x10600, 1⟩] (areaBase node + 0x600) 1 = some 0x10600 := by decide +kernel

/-- R178, R180, R181: a flag that cannot be read leaves its lane as it was held, a lane write that faults leaves the notice
pending, and on the ERRORS lane ends in BROKEN; a mirror that faults is reported. -/
theorem test_rescanFaults :
    (after .nudgeRescan (faulting (fullLane 1 none) 0x10440 1)).ex.lanes.get 1 = ⟨true, none⟩ ∧
    memByte (after .nudgeRescan (faulting (fullLane 1 none) 0x10440 1)).mem 0x106CA = 9 ∧
    (after .nudgeRescan (faulting (fullLane 8 (some ⟨.streams 7, 0⟩)) 0x10601 1)).ex.lanes.get 8 =
      ⟨false, some ⟨.streams 7, 0⟩⟩ ∧
    (after .nudgeRescan (faulting (fullLane 11 (some pendingError)) 0x106C1 1)).ex.state = .broken ∧
    (after .nudgeRescan (faulting node 0x10040 1)).ex.errorsPosted = 1 := by decide +kernel

/-- A node about to read the record at 0x20000, the last sequence fetched as given. -/
def fetching (last : Option (BitVec 32)) (state : Nat) : State :=
  placed { node with ex := { node.ex with chain := .headField 0x20000, lastSequence := last } } 0x20000
    (recordBytes 0x20040 4 1 state)

theorem test_orderFetch_hypotheses :
    State.reset.ex.state ≠ .attached ∧ (fetching (some 3) 1).ex.window.length < 16 ∧
    nextOrderAddress (fetching (some 3) 1).ex = some 0x20000 ∧ (fetching (some 3) 1).ex.notPosted = false ∧
    firstFault (faulting node 0x2003F 1).mem.readFaults 0x20000 64 = some 0x2003F ∧
    firstFault node.mem.readFaults 0x20000 64 = none ∧ leAt (bytesIn (fetching (some 3) 2).mem 0x20000 64) 0x0D 1 ≠ 1 ∧
    leAt (bytesIn (fetching (some 3) 1).mem 0x20000 64) 0x0D 1 = 1 ∧
    (leAt (bytesIn (fetching (some 3) 1).mem 0x20000 64) 8 4) = 4 ∧ (fetching none 1).ex.lastSequence = none := by
  decide +kernel

/-- R171, R172: the next record of each chain position, and the order an owner takes next, behind one it holds and one of
another owner. -/
theorem test_nextOrder :
    ([.absent, .head, .headField 0, .headField 0x20000, .last 0x20000 0, .last 0x20000 0x20040].map
      (fun c => nextOrderAddress { node.ex with chain := c })) = [none, none, none, some 0x20000, none, some 0x20040] ∧
    (let held : Order := { anOrder .leave with status := .held }
     let other : Order := { anOrder .nop with sequence := 4 }
     let next : Order := { anOrder .join with sequence := 5 }
     let s : State := { node with ex := { node.ex with window := [held, other, next] } }
     nextOrder s .roster = some next ∧ nextOrder s .exchange = some other ∧ nextOrder s .stream = none) := by decide +kernel

theorem test_orderFetch :
    (after .orderFetch (fetching (some 3) 1)).ex.window.map (·.sequence) = [4] ∧
    (after .orderFetch (fetching (some 3) 2)).ex.notPosted = true ∧
    (after .orderFetch (fetching (some 2) 1)).ex.stallCause = some .brokenChain ∧
    (after .orderFetch (fetching none 1)).ex.mark = some 3 ∧
    memByte (after .orderFetch (fetching none 1)).mem 0x10010 = 3 := by decide +kernel

/-! ## Orders -/

/-- An order of a kind value that names none. -/
def badOrderNode : State := ordered node { anOrder .nop with kind := 0xFF }

/-- A node with a reclaim mark, a last sequence and orders in the window. -/
def markedNode (mark : BitVec 32) (os : List Order) (chain : ChainPosition) : State :=
  { node with ex := { node.ex with mark := some mark, lastSequence := some 3, window := os, chain := chain } }

theorem test_mark_hypotheses :
    (markedNode 1 [anOrder .nop] .head).ex.window = anOrder .nop :: [] ∧ (anOrder .nop).sequence - 1 = 2 ∧
    newer 2 (1 : BitVec 32) = true ∧ newer 2 (2 : BitVec 32) = false ∧ (markedNode 1 [] (.last 0x20000 0)).ex.window = [] ∧
    (markedNode 1 [] (.last 0x20000 0)).ex.lastSequence = some 3 ∧ (markedNode 1 [] (.last 0x20000 0)).ex.chain = .last 0x20000 0 ∧
    node.ex.mark = none ∧ node.memOpen = true ∧ State.reset.memOpen = false ∧
    firstFault node.mem.writeFaults (areaBase node + 0x10) 4 = none ∧
    firstFault (faulting node 0x10013 1).mem.writeFaults (areaBase node + 0x10) 4 = some 0x10013 := by decide +kernel

theorem test_completion_hypotheses :
    windowOrder (ordered node (anOrder .nop)) 3 = some (anOrder .nop) ∧
    firstFault node.mem.writeFaults (0x20000 + 0x0D) 51 = none ∧
    firstFault (faulting node 0x2000F 1).mem.writeFaults (0x20000 + 0x0E) 2 = some 0x2000F ∧ windowOrder node 3 = none ∧
    firstFault (faulting node 0x2003F 1).mem.writeFaults (0x20000 + 0x0E) 2 = none ∧
    firstFault (faulting node 0x2003F 1).mem.writeFaults (0x20000 + 0x30) 16 = some 0x2003F ∧
    firstFault (faulting node 0x2000D 1).mem.writeFaults (0x20000 + 0x0E) 2 = none ∧
    firstFault (faulting node 0x2000D 1).mem.writeFaults (0x20000 + 0x30) 16 = none ∧
    firstFault (faulting node 0x2000D 1).mem.writeFaults (0x20000 + 0x0D) 1 = some 0x2000D ∧
    Oldest .nop (anOrder .nop) (ordered node (anOrder .nop)) ∧ (nextOrder badOrderNode .exchange).isSome = true ∧
    orderKindOfCode (0xFF : Byte).toNat = none := by
  refine ⟨?_, ?_, ?_, ?_, ?_, ?_, ?_, ?_, ?_, oldest_of _ _ rfl, ?_⟩ <;> decide +kernel

/-- R173: a fault on the results, and one on the state DONE, leave the order in the window with what was written before. -/
theorem test_completion_faults :
    (∀ a ∈ [0x2003F, 0x2000D], answerIn (after .badKind (faulting badOrderNode a 1)) = [0, outcomeCode .badKind, 0] ∧
      (after .badKind (faulting badOrderNode a 1)).ex.stalls = [.completion 3] ∧
      (after .badKind (faulting badOrderNode a 1)).ex.window.length = 1 ∧
      ((after .badKind (faulting badOrderNode a 1)).ex.lanes.get 0).full = false) := by decide +kernel

theorem test_completion :
    answerIn (ran .nop .nop []) = [2, 0, 0] ∧ (ran .nop .nop []).ex.window = [] ∧ (ran .nop .nop []).ex.ordersDone = 1 ∧
    answerIn (after .badKind badOrderNode) = [2, outcomeCode .badKind, 0] ∧
    (after .nop (ordered (faulting node 0x2000F 1) (anOrder .nop))).ex.stalls = [.completion 3] := by decide +kernel

/-- READ_STATE parameters: kind, pointer, length, slot. -/
def readParameters (k a len slot : Nat) : List Byte := leBytes 8 k ++ leBytes 8 a ++ leBytes 8 len ++ leBytes 8 slot

theorem test_readState_hypotheses :
    Oldest .readState (anOrder .readState (readParameters 7 0x50000 4096 63))
      (ordered node (anOrder .readState (readParameters 7 0x50000 4096 63))) ∧
    snapshotKindOfCode (readStateKind (anOrder .readState (readParameters 7 0x50000 4096 63))) = some .streamSlot ∧
    snapshotKindOfCode 8 = none ∧ snapshotKindOfCode 0xFF = none ∧ snapshotKindOfCode 0 = some .roster ∧
    readStateSlot (anOrder .readState (readParameters 7 0x50000 4096 63)) ≤ 63 ∧
    63 < readStateSlot (anOrder .readState (readParameters 7 0x50000 4096 64)) ∧
    readStatePointer (anOrder .readState (readParameters 7 0 4096 63)) = 0 ∧
    readStateLength (anOrder .readState (readParameters 0 0x50000 (snapshotLength .roster - 1) 0)) < snapshotLength .roster ∧
    snapshotLength .roster ≤ readStateLength (anOrder .readState (readParameters 0 0x50000 (snapshotLength .roster) 0)) ∧
    firstFault node.mem.writeFaults 0x50000 (snapshotLength .roster) = none ∧
    firstFault (faulting node 0x50001 1).mem.writeFaults 0x50000 (snapshotLength .roster) = some 0x50001 :=
  ⟨oldest_of _ _ rfl, by decide +kernel⟩

theorem test_readState :
    answerIn (ran .readState .readState (readParameters 8 0x50000 4096 0)) = [2, outcomeCode .badOrder, 0] ∧
    answerIn (ran .readState .readState (readParameters 7 0x50000 4096 64)) = [2, outcomeCode .badOrder, 3] ∧
    answerIn (ran .readState .readState (readParameters 7 0x50000 4096 0)) = [2, 0, 0] ∧
    memByte (ran .readState .readState (readParameters 7 0x50000 4096 0)).mem 0x50000 = 7 := by decide +kernel

/-- R175: a fault leaves the snapshot's bytes below it written, and those from it on as they were. -/
theorem test_readState_fault :
    (let s := ran .readState .readState (readParameters 7 0x50000 4096 0) (faulting node 0x50001 1)
     answerIn s = [2, outcomeCode .memoryFault, 0] ∧ memByte s.mem 0x50000 = 7 ∧ memByte s.mem 0x50001 = 0) := by
  decide +kernel

/-- The node with its ports in a state, and their enable settings off where asked. -/
def nodePorts (st : PortState) (on : Bool) : State :=
  { withPorts node (portIn st) with
    store := { node.store with working := { node.store.working with enable := Vector.replicate 4 on } } }

theorem test_portOrders_hypotheses :
    Oldest .armPort (anOrder .armPort [3]) (ordered (nodePorts .faulted true) (anOrder .armPort [3])) ∧
    Oldest .holdPort (anOrder .holdPort [3, 1]) (ordered (nodePorts .held true) (anOrder .holdPort [3, 1])) ∧
    3 < portParameter (anOrder .armPort [4]) ∧ portParameter (anOrder .armPort [3]) = (3 : PortIx).val ∧
    ((nodePorts .faulted true).port 3).state = .faulted ∧ (nodePorts .faulted true).store.working.enable.get 3 = true ∧
    (nodePorts .faulted false).store.working.enable.get 3 = false ∧ 3 < portParameter (anOrder .holdPort [4]) ∧
    1 < holdAction (anOrder .holdPort [3, 2]) ∧ holdAction (anOrder .holdPort [3, 1]) = 1 ∧
    holdAction (anOrder .holdPort [3]) = 0 ∧
    (∀ st ∈ [PortState.dark, .up, .lockout, .held, .training, .faulted], ((nodePorts st true).port 3).state = st) :=
  ⟨oldest_of _ _ rfl, oldest_of _ _ rfl, by decide +kernel⟩

theorem test_portOrders :
    ((ran .armPort .armPort [3] (nodePorts .faulted true)).port 3).state = .training ∧
    ((ran .armPort .armPort [3] (nodePorts .faulted false)).port 3).state = .held ∧
    answerIn (ran .armPort .armPort [3]) = [2, outcomeCode .wrongState, 0] ∧
    ((ran .holdPort .holdPort [3] (nodePorts .dark true)).port 3).state = .held ∧
    ((ran .holdPort .holdPort [3, 1] (nodePorts .held true)).port 3).state = .dark := by decide +kernel

/-! ## Roster -/

/-- The node with its own entry in a state and a standing. -/
def ownIn (e : EntryState) (st : Standing) : State :=
  rosterNode (fun r => { r with standing := st, entries := upd r.entries 5 (fun _ => ⟨e, 1, none, none⟩) })

theorem test_standing_hypotheses :
    State.reset.own = 0 ∧ node.own ≠ 0 ∧ (rosterNode (fun r => { r with leavingLatch := true })).roster.leavingLatch = true ∧
    anchorNode.roster.anchor = anchorNode.own ∧ ((node.entry 5).serial = node.serial ∧ (node.entry 5).state = .member) ∧
    (ownIn .quarantined .held).roster.refusedLatch = false ∧ ((ownIn .quarantined .held).entry 5).state = .quarantined ∧
    ((ownIn .refused .seeking).entry 5).state ≠ .quarantined ∧
    (rosterNode (fun r => { r with anchor := 0 })).roster.anchor = 0 := by decide +kernel

/-- The anchor rank a frame shows, in the node. -/
theorem ready_rank {s : State} {f : FrameNo} {n : Nat} (h : AnchorReady s f n) :
    (s.route f).map (fun r => r.contents.anchorRank.toNat) = some n := by
  obtain ⟨r, hr, -, hn, -⟩ := h
  rw [hr, ← hn]
  rfl

theorem test_anchorElects_hypotheses :
    Best (fun f n => f ≠ 0 ∧ (f = node.own ∧ OwnEntry node .member ∧ n = actingRank node node.store.working.anchorRank ∧ n ≠ 0 ∨
      f ≠ node.own ∧ (node.entry f).state = .member ∧ AnchorReady node f n)) 7 4 := by
  have all : ∀ g : FrameNo, ((node.route g).map (fun r => r.contents.anchorRank.toNat)).all
      (fun m => decide (g = 7 ∨ m < 4 ∨ m = 4 ∧ 7 < g.val)) = true := by decide +kernel
  refine ⟨⟨by decide, .inr ⟨by decide +kernel, by decide +kernel, routeTo 7 0, by decide +kernel, by decide +kernel, by decide +kernel,
    by decide⟩⟩, fun g m h => ?_⟩
  rcases h.2 with ⟨-, -, hm, -⟩ | ⟨-, -, hr⟩
  · rw [show actingRank node node.store.working.anchorRank = 3 by decide +kernel] at hm
    exact .inr (.inl (by omega))
  · have := all g
    rw [ready_rank hr] at this
    exact of_decide_eq_true this

/-- The node where nothing is reached. -/
def lonely : State := { node with reach := Reach.reset }

theorem test_selfElects_hypotheses :
    Best (fun f n => f ≠ 0 ∧ (f = lonely.own ∧ OwnEntry lonely .member ∧ n = actingRank lonely lonely.store.working.anchorRank ∧ n ≠ 0 ∨
      f ≠ lonely.own ∧ (lonely.entry f).state = .member ∧ AnchorReady lonely f n)) 5 3 ∧
    lonely.roster.anchor ≠ lonely.own ∧ lonely.route lonely.roster.anchor = none := by
  refine ⟨⟨⟨by decide, .inl ⟨by decide +kernel, ⟨by decide +kernel, by decide +kernel, by decide +kernel, by decide⟩, by decide +kernel,
    by decide⟩⟩, fun g m h => ?_⟩, by decide +kernel, by decide +kernel⟩
  rcases h.2 with ⟨hg, -⟩ | ⟨-, -, r, hr, -⟩
  · exact .inl hg
  · have : ∀ f : FrameNo, lonely.route f = none := by decide +kernel
    rw [this] at hr
    cases hr

theorem test_anchorNamed_hypotheses :
    Best (fun f n => f ≠ 0 ∧ f ≠ node.own ∧ AdvertisesAnchor node f n ∧
      ∃ g r, g ≠ 0 ∧ node.route g = some r ∧ r.contents.followedAnchor.toNat = f.val) 7 4 ∧
    ((rosterNode (fun r => { r with anchor := 0 })).own ≠ 0 ∧ (rosterNode (fun r => { r with anchor := 0 })).roster.refusedLatch = false) := by
  have all : ∀ g : FrameNo, (node.route g).all (fun r => r.contents.followedAnchor.toNat != g.val || decide (g = 7)) = true := by
    decide +kernel
  have reach : node.route 7 = some (routeTo 7 0) := by decide +kernel
  refine ⟨⟨⟨by decide, by decide +kernel, ⟨⟨routeTo 7 0, reach, by decide +kernel, by decide +kernel, by decide⟩, routeTo 7 0, reach,
    by decide +kernel⟩, 7, routeTo 7 0, by decide, reach, by decide +kernel⟩, fun g m h => ?_⟩, by decide +kernel⟩
  obtain ⟨r, hr, hf⟩ := h.2.2.1.2
  have := all g
  rw [hr] at this
  simp only [Option.all_some, Bool.or_eq_true, bne_iff_ne, ne_eq, decide_eq_true_eq] at this
  exact .inl (this.resolve_left (fun k => k hf))

theorem test_standing :
    standingOf (ownIn .quarantined .held) = .held ∧ standingOf (ownIn .refused .seeking) = .seeking ∧
    (evaluateStanding (ownIn .member .held)).roster.rejoin = true ∧
    (evaluateStanding (rosterNode (fun r => { r with heldLatch := true, refusedLatch := true }) (ownIn .quarantined .member))).roster.standing
      = .refused := by decide +kernel

theorem test_joinLeave_hypotheses :
    Oldest .join (anOrder .join) (ordered (ownIn .refused .refused) (anOrder .join)) ∧
    Oldest .leave (anOrder .leave) (ordered node (anOrder .leave)) ∧ (ownIn .refused .leaving).roster.standing = .leaving ∧
    node.roster.standing = .member ∧ State.reset.roster.standing = .unnumbered ∧
    (beginLeave 3 node).roster.leave = some ⟨3, 0⟩ ∧ node.inReset = false ∧
    (∀ n, ((beginLeave 3 (ownIn .leaving .leaving)).slot n).state = .closed) ∧
    ((beginLeave 3 (ownIn .leaving .leaving)).entry 5).state = .leaving ∧
    ((beginLeave 3 node).entry 5).state ≠ .leaving ∧ ¬ 0 + leaveLimit ≤ node.now :=
  ⟨oldest_of _ _ rfl, oldest_of _ _ rfl, by decide +kernel⟩

theorem test_joinLeave :
    answerIn (ran .join .join []) = [2, 0, 0] ∧
    answerIn (ran .join .join [] (ownIn .refused .held)) = [2, outcomeCode .wrongState, 0] ∧
    answerIn (ran .leave .leave [] (ownIn .leaving .leaving)) = [2, outcomeCode .wrongState, 0] ∧
    (after .leaveLimit (ordered (beginLeave 3 (rosterNode (fun r => { r with standing := .leaving, leavingLatch := true })))
      { anOrder .leave with status := .held })).roster.leave = none := by decide +kernel

/-- An anchor with frame 9 in a state. -/
def anchorWith (st : EntryState) : State :=
  rosterNode (fun r => { r with entries := upd r.entries 9 (fun _ => entryOf st 109) }) anchorNode

/-- ADMIT or REFUSE parameters. -/
def frameParameters (f serial : Nat) : List Byte := leBytes 8 f ++ leBytes 8 serial

theorem test_admit_hypotheses :
    Oldest .admitFrame (anOrder .admitFrame (frameParameters 31 109)) (ordered anchorNode (anOrder .admitFrame (frameParameters 31 109))) ∧
    Oldest .refuse (anOrder .refuse (frameParameters 9 109)) (ordered anchorNode (anOrder .refuse (frameParameters 9 109))) ∧
    decideFrame (anOrder .admitFrame (frameParameters 31 109)) = (31 : FrameNo).val ∧ 31 < decideFrame (anOrder .admitFrame (frameParameters 32 109)) ∧
    decideFrame (anOrder .refuse) = 0 ∧ decideSerial (anOrder .refuse (frameParameters 9 109)) = 109 ∧
    isAnchor anchorNode = true ∧ isAnchor node = false ∧ (∀ st ∈ [EntryState.quarantined, .refused, .member, .stray],
      ((anchorWith st).entry 9).state = st ∧ ((anchorWith st).entry 9).serial.toNat = 109) :=
  ⟨oldest_of _ _ rfl, oldest_of _ _ rfl, by decide +kernel⟩

theorem test_admit :
    answerIn (ran .admitFrame .admitFrame (frameParameters 32 109) anchorNode) = [2, outcomeCode .badOrder, 0] ∧
    answerIn (ran .admitFrame .admitFrame (frameParameters 9 109)) = [2, outcomeCode .notAnchor, 0] ∧
    answerIn (ran .admitFrame .admitFrame (frameParameters 9 110) (anchorWith .quarantined)) = [2, outcomeCode .notHeld, 0] ∧
    answerIn (ran .refuse .refuse (frameParameters 5 1) anchorNode) = [2, outcomeCode .wrongState, 0] ∧
    answerIn (ran .refuse .refuse (frameParameters 9 109) (anchorWith .refused)) = [2, outcomeCode .notHeld, 0] := by
  decide +kernel

/-- A node of the roster generation and issuer given. -/
def rollCell (generation : BitVec 32) : Rx :=
  cellFrom 63 (rollPayload { node.roster with generation := generation, issuer := 7 })

theorem test_roll_hypotheses :
    Arrives .roll (rollCell 3) .up node ∧ Arrives .leaveCell (cellFrom 5 (leavePayload 107)) .up anchorNode ∧
    (7 : FrameNo) ≠ node.own ∧ isNew (floodRecord (node.flood.get 7) .roll) 3 11 = true ∧
    rollFits (rollCell 3).payload = true ∧ rollFits (cellFrom 63 (zeros 8)).payload = false ∧ node.roster.anchor = 7 ∧
    newer (BitVec.ofNat 32 (beAt (rollCell 3).payload 0 4)) node.roster.generation = true ∧
    newer (BitVec.ofNat 32 (beAt (rollCell 2).payload 0 4)) node.roster.generation = false ∧
    beAt (rollCell 2).payload 4 1 = node.roster.issuer.val ∧ anchorNode.roster.anchor ≠ 7 ∧ isAnchor anchorNode = true ∧
    isAnchor node = false ∧ (anchorNode.entry 7).serial.toNat = beAt (leavePayload 107) 0 6 ∧
    (anchorNode.entry 7).serial.toNat ≠ beAt (leavePayload 108) 0 6 ∧ (leavePayload 108).length = 8 ∧
    beAt (leavePayload 0) 0 6 = 0 ∧ (cellFrom 5 []).payload.length ≠ 8 :=
  ⟨arrives_of (by decide +kernel), arrives_of (by decide +kernel), by decide +kernel⟩

theorem test_roll :
    (after (.roll (rollCell 3)) node).roster.generation = 3 ∧
    (after (.roll (cellFrom 63 (zeros 8))) node).roster.counters.rollIgnored = 1 ∧
    (after (.leaveCell (cellFrom 5 (leavePayload 107))) node).roster.counters.leaveDropped = 1 ∧
    (after (.leaveCell (cellFrom 5 (leavePayload 0))) node).roster.counters.leaveDropped = 0 ∧
    ((after (.leaveCell (cellFrom 5 (leavePayload 108))) anchorNode).entry 7).state = .member ∧
    ((markLeaving anchorNode 7).entry 7).state = .leaving := by decide +kernel

/-- A HELLO of serial 107, frame 7. -/
def helloFrom (anchor : FrameNo) (frame : FrameNo := 7) (entry : FrameNo := 0) : List Byte :=
  helloPayload 107 2 1 frame anchor false entry 0

/-- The node with no route to its anchor. -/
def cutOff : State := { node with reach := { node.reach with table := upd node.reach.table 7 (fun _ => none) } }

/-- A VERDICT on a serial. -/
def verdictOn (serial : Serial) (x : Answer) (frame : FrameNo := 5) : List Byte := verdictPayload serial frame x .none 7 3

theorem test_hello_hypotheses :
    Arrives .hello (cellFrom 0 (helloFrom 7)) .up node ∧ Arrives .hello (cellFrom 0 (helloFrom 5)) .up anchorNode ∧
    Arrives .hello (cellFrom 0 (helloFrom 7)) .up cutOff ∧ Arrives .hello (cellFrom 5 (helloFrom 5 8 9)) .up anchorNode ∧
    Arrives .verdict (cellFrom 5 (verdictOn 107 .admitted 9)) .up node ∧ Arrives .verdict (cellFrom 0 (verdictOn 1 .refused)) .up node ∧
    (parseHello (helloPayload 0 2 1 7 7 false 0 0)).isNone = true ∧ (parseVerdict (verdictOn 0 .refused)).isNone = true ∧
    (parseHello (helloFrom 7)).isSome = true ∧ (parseHello (helloFrom 5 8 9)).isSome = true ∧
    (parseVerdict (verdictOn 107 .admitted 9)).isSome = true ∧
    (node.port 0).partnerSerial = 107 ∧ node.serial ≠ 107 ∧ node.roster.anchor = 7 ∧ (node.route 7).isSome = true ∧
    cutOff.route 7 = none ∧ isAnchor cutOff = false ∧ (node.port 3).state = .up ∧ node.serial = 1 ∧ node.own = 5 :=
  ⟨arrives_of (by decide +kernel), arrives_of (by decide +kernel), arrives_of (by decide +kernel), arrives_of (by decide +kernel),
    arrives_of (by decide +kernel), arrives_of (by decide +kernel), by decide +kernel⟩

theorem test_hello :
    (after (.hello (cellFrom 0 (helloFrom 7))) node).roster.counters.helloForwarded = 1 ∧
    (after (.hello (cellFrom 0 (helloFrom 9))) node).roster.counters.helloDropped = 1 ∧
    (after (.hello (cellFrom 5 (helloFrom 5 0 9))) anchorNode).roster.counters.helloDropped = 1 ∧
    (after (.verdict (cellFrom 5 (verdictOn 107 .admitted 9))) node).roster.counters.verdictForwarded = 1 ∧
    (after (.verdict (cellFrom 0 (verdictOn 1 .refused))) node).roster.refusedLatch = true ∧
    (after (.verdict (cellFrom 0 (verdictOn 0 .refused))) node).roster.counters.verdictDropped = 0 ∧
    (after (.hello (cellFrom 0 (helloPayload 0 2 1 7 7 false 0 0))) node).roster.counters.helloDropped = 0 ∧
    (after (.verdict (cellFrom 0 (verdictOn 2 .refused))) node).roster.counters.verdictDropped = 1 := by decide +kernel

/-- A candidate for number 9. -/
def candidate (serial : Serial) : Candidate := ⟨9, serial, ⟨2, 1, false, 5, 1⟩⟩

/-- An anchor whose filter is armed with a pattern that matches all. -/
def filtering (s : State) : State :=
  { s with store := { s.store with working := { s.store.working with
    filter := ⟨true, 0, upd Settings.defaults.filter.patterns 3 (fun _ =>
      { enabled := true, classValue := 0, classMask := 0xFFFF, serialValue := 0, serialMask := BitVec.allOnes 48 })⟩ } } }

/-- An anchor with four QUARANTINED entries. -/
def crowded : State :=
  rosterNode (fun r => { r with entries := Vector.ofFn (fun f => if f.val ∈ [20, 21, 22, 31] then entryOf .quarantined (200 + f.val)
    else if f.val = 9 then .vacant else r.entries.get f) }) anchorNode

theorem test_candidate_hypotheses :
    (∀ st ∈ [EntryState.member, .stray, .quarantined, .refused], ((anchorWith st).entry 9).serial = (candidate 109).serial ∧
      ((anchorWith st).entry 9).state = st) ∧
    ((anchorWith .leaving).entry 9).serial ≠ (candidate 300).serial ∧
    filterMatches (filtering (anchorWith .vacant)).store.working.filter (candidate 300) = true ∧
    filterMatches (anchorWith .vacant).store.working.filter (candidate 300) = false ∧
    quarantinedCount (vacateOthers (anchorWith .vacant) (candidate 300)).1 < 4 ∧
    4 ≤ quarantinedCount (vacateOthers crowded (candidate 300)).1 := by decide +kernel

theorem test_candidate :
    ([EntryState.member, .stray, .quarantined, .refused, .leaving].map (fun st => (decide74 (anchorWith st) (candidate 109)).answer)) =
      [.admitted, .admitted, .quarantined, .refused, .quarantined] ∧
    (decide74 (anchorWith .member) (candidate 300)).reason = .duplicate ∧ (decide74 crowded (candidate 300)).answer = .wait ∧
    (decide74 (filtering (anchorWith .vacant)) (candidate 300)).answer = .admitted ∧
    ((decide74 (anchorWith .vacant) (candidate 107)).state.entry 7).state = .vacant := by decide +kernel

/-- An anchor whose entry 31 holds a deadline. -/
def timedEntry (st : EntryState) : State :=
  rosterNode (fun r => { r with lastRoll := some 5, entries := upd r.entries 31 (fun _ => entryOf st 131) }) anchorNode

/-- The node without an anchor, its silence running. -/
def silent : State := rosterNode (fun r => { r with anchor := 0, standing := .alone, silenceSince := some 5 })

theorem test_rosterTimers_hypotheses :
    silent.inReset = false ∧ silent.roster.silenceSince = some 5 ∧
    (silent.own ≠ 0 ∧ silent.roster.refusedLatch = false ∧ silent.roster.leavingLatch = false ∧ silent.store.working.anchorRank ≠ 0) ∧
    (rosterNode (fun r => { r with refusedLatch := true }) silent).roster.refusedLatch = true ∧
    (rosterNode (fun r => { r with standing := .seeking, lastHello := some 5 })).roster.lastHello = some 5 ∧
    (timedEntry .stray).roster.lastRoll = some 5 ∧ (timedEntry .stray).roster.anchor = (timedEntry .stray).own ∧
    isAnchor (timedEntry .quarantined) = true ∧ nextWindow (timedEntry .quarantined) = some 9 ∧
    ((timedEntry .stray).entry 31).state = .stray ∧ ((timedEntry .stray).entry 31).deadline = some 9 := by decide +kernel

theorem test_rosterTimers :
    (nameSelf silent).roster.anchor = 5 ∧
    (after .helloTimer (rosterNode (fun r => { r with standing := .seeking, lastHello := some 5 }))).roster.lastHello = some 500000005 ∧
    ((after .helloTimer (rosterNode (fun r => { r with standing := .held, lastHello := some 5 }))).link 3).cQueue.length = 1 ∧
    (after .rollTimer (timedEntry .stray)).roster.rollSequence = (timedEntry .stray).roster.rollSequence + 1 ∧
    (after .rollTimer (timedEntry .stray)).roster.generation = 2 := by decide +kernel

/-! ## Settings -/

/-- SET_SETTINGS parameters: mask, pointer. -/
def setParameters (mask a : Nat) : List Byte := leBytes 8 mask ++ leBytes 8 a

/-- The node with a settings image at 0x50000. -/
def imaged (w : Settings) (s : State := node) : State := placed s 0x50000 (settingsImage w)

/-- The node's settings as an image, with values changed. -/
def nodeImage (f : Settings → Settings) : State := imaged (f node.store.working)

/-- The node's image with hold limit 0 and every other value in range. -/
def badImage : State := nodeImage (fun w => { w with holdLimit := 0, lanes := Vector.replicate 16 ⟨true, true, true, 1, 1000⟩ })

theorem test_settings_hypotheses :
    Oldest .setSettings (anOrder .setSettings (setParameters 1 0x50000)) (ordered node (anOrder .setSettings (setParameters 1 0x50000))) ∧
    Oldest .setFilter (anOrder .setFilter (setParameters 0x50000 0)) (ordered node (anOrder .setFilter (setParameters 0x50000 0))) ∧
    2 ^ 28 ≤ settingsMask (anOrder .setSettings (setParameters (2 ^ 28) 0)) ∧ settingsMask (anOrder .setSettings) = 0 ∧
    settingsPointer (anOrder .setSettings (setParameters 1 0)) = 0 ∧ settingsMask (anOrder .setSettings (setParameters 1 0)) = 1 ∧
    firstFault (faulting node 0x5008F 1).mem.readFaults 0x50000 144 = some 0x5008F ∧ firstFault node.mem.readFaults 0x50000 144 = none ∧
    firstFault (faulting node 0x50067 1).mem.readFaults 0x50000 104 = some 0x50067 ∧ firstFault node.mem.readFaults 0x50000 104 = none ∧
    firstBadGroup (2 ^ 28 - 1) (bytesIn badImage.mem 0x50000 144) = some 11 ∧
    firstBadGroup 1 (bytesIn (nodeImage (fun w => { w with frame := 31 })).mem 0x50000 144) = none ∧
    imageFrame (bytesIn (nodeImage (fun w => { w with frame := 31 })).mem 0x50000 144) ≠ node.own.val ∧
    node.roster.standing = .member ∧ imageFrame (bytesIn (nodeImage id).mem 0x50000 144) = node.own.val ∧
    imageArmed (bytesIn node.mem 0x50000 104) ≤ 1 ∧ 1 < imageArmed (bytesIn (placed node 0x50000 [2]).mem 0x50000 104) :=
  ⟨oldest_of _ _ rfl, oldest_of _ _ rfl, by decide +kernel⟩

/-- The node with lane outputs all on or off. -/
def outputs (on : Bool) (s : State := node) : State :=
  { s with store := { s.store with working := { s.store.working with lanes := Vector.replicate 16 ⟨true, false, on, 1, 1⟩ } } }

theorem test_laneSettings_hypotheses :
    (node.store.working.lanes.get 0).outputEnable = true ∧ ((outputs false).store.working.lanes.get 0).outputEnable = false ∧
    (∀ st ∈ [PortState.held, .faulted, .dark, .lockout, .training, .up], ((nodePorts st true).port 0).state = st) := by decide +kernel

theorem test_settings :
    answerIn (ran .setSettings .setSettings (setParameters (2 ^ 28) 0x50000)) = [2, outcomeCode .badOrder, 0] ∧
    answerIn (ran .setSettings .setSettings (setParameters 0x800 0x50000) badImage) = [2, outcomeCode .badOrder, 2] ∧
    memByte (ran .setSettings .setSettings (setParameters 0x800 0x50000) badImage).mem 0x20030 = 11 ∧
    answerIn (ran .setSettings .setSettings (setParameters 1 0x50000) (nodeImage (fun w => { w with frame := 31 }))) = [2, outcomeCode .inUse, 0] ∧
    (ran .setSettings .setSettings (setParameters 0x200 0x50000) (nodeImage (fun w => { w with window := 60 }))).store.working.window = 60 ∧
    (ran .setSettings .setSettings (setParameters 0x200 0x50000) (nodeImage (fun w => { w with window := 60 }))).store.modified = true ∧
    (ran .setSettings .setSettings (setParameters 0x200 0x50000) (nodeImage id)).store.modified = false ∧
    (ran .setFilter .setFilter (setParameters 0x50000 0) (placed node 0x50000 [1])).store.working.filter.armed = true := by
  decide +kernel

/-- A store in progress. -/
def storingNode (changed : Bool) : State :=
  { ordered node { anOrder .storeSettings with status := .held } with
    store := { node.store with storing := some ⟨some 3, node.store.working, changed⟩, modified := true } }

theorem test_store_hypotheses :
    Oldest .storeSettings (anOrder .storeSettings) (ordered node (anOrder .storeSettings)) ∧ node.store.storing = none ∧
    Oldest .storeSettings (anOrder .storeSettings) (ordered (storingNode true) (anOrder .storeSettings)) ∧
    (storingNode true).store.storing.isSome = true ∧ (storingNode false).inReset = false :=
  ⟨oldest_of _ _ rfl, rfl, oldest_of _ _ rfl, rfl, rfl⟩

theorem test_store :
    (ran .storeSettings .storeSettings []).store.storing.isSome = true ∧
    answerIn (ran .storeSettings .storeSettings [] (storingNode true)) = [2, outcomeCode .busy, 0] ∧
    (after (.storeEnd true) (storingNode false)).store.modified = false ∧ (after (.storeEnd true) (storingNode true)).store.modified = true ∧
    answerIn (after (.storeEnd true) (storingNode false)) = [2, 0, 0] ∧
    answerIn (after (.storeEnd false) (storingNode false)) = [2, outcomeCode .storeFailed, 0] := by decide +kernel

/-! ## Triggers -/

/-- SCHEDULE_TRIGGER parameters. -/
def fireParameters (lane fire : Nat) : List Byte := leBytes 8 lane ++ leBytes 8 fire

/-- A schedule entry of a lane and time. -/
def entryAt (k : LaneIx) (fire : Time) (origin : FrameNo := 5) : Trigger := ⟨k, fire, origin, 0, 1⟩

/-- The node with a schedule. -/
def scheduled (xs : List Trigger) (s : State := node) : State := { s with trig := { s.trig with schedule := xs } }

theorem test_triggerOrders_hypotheses :
    Oldest .scheduleTrigger (anOrder .scheduleTrigger (fireParameters 15 3000)) (ordered node (anOrder .scheduleTrigger (fireParameters 15 3000))) ∧
    Oldest .cancelTrigger (anOrder .cancelTrigger) (ordered (scheduled [entryAt 15 5000]) (anOrder .cancelTrigger)) ∧
    scheduleLane (anOrder .scheduleTrigger (fireParameters 15 3000)) = (15 : LaneIx).val ∧
    15 < scheduleLane (anOrder .scheduleTrigger (fireParameters 16 3000)) ∧ node.tb.state = .locked ∧ (timeIn .free).tb.state = .free ∧
    (timeIn .acquiring).tb.state = .acquiring ∧
    scheduleTime (anOrder .scheduleTrigger (fireParameters 15 1999)) < (outputs true).tb.rackTime.toNat + 1 * 1000 ∧
    (outputs true).tb.rackTime.toNat + 1 * 1000 ≤ scheduleTime (anOrder .scheduleTrigger (fireParameters 15 2000)) ∧
    (scheduled [entryAt 15 5000]).trig.schedule.any (fun t => t.origin == node.own && t.sequence.toNat == cancelSequence (anOrder .cancelTrigger)) = true ∧
    node.trig.schedule.any (fun t => t.origin == node.own) = false :=
  ⟨oldest_of _ _ rfl, oldest_of _ _ rfl, by decide +kernel⟩

theorem test_insertion_hypotheses :
    judgeInsertion (outputs false) (entryAt 15 5000) = .outputOff ∧
    judgeInsertion (scheduled [entryAt 15 500] (outputs true)) (entryAt 15 500) = .merged ∧
    judgeInsertion (outputs true) (entryAt 15 1000) = .late ∧ judgeInsertion (outputs true) (entryAt 15 1001) = .scheduled ∧
    judgeInsertion (scheduled (List.replicate 32 (entryAt 0 5000)) (outputs true)) (entryAt 15 5000) = .dropped ∧
    judgeInsertion (scheduled (List.replicate 31 (entryAt 0 5000)) (outputs true)) (entryAt 15 5000) = .scheduled ∧
    insertAt (entryAt 1 7) [entryAt 0 7, entryAt 2 7] = [entryAt 0 7, entryAt 1 7, entryAt 2 7] := by decide +kernel

theorem test_triggerOrders :
    answerIn (ran .scheduleTrigger .scheduleTrigger (fireParameters 16 5000)) = [2, outcomeCode .badOrder, 0] ∧
    answerIn (ran .scheduleTrigger .scheduleTrigger (fireParameters 0 5000) (timeIn .free)) = [2, outcomeCode .noTime, 0] ∧
    answerIn (ran .scheduleTrigger .scheduleTrigger (fireParameters 15 1999) (outputs true)) = [2, outcomeCode .tooSoon, 1] ∧
    (ran .scheduleTrigger .scheduleTrigger (fireParameters 15 2000) (outputs true)).trig.schedule.map (·.fireTime) = [2000] ∧
    (ran .cancelTrigger .cancelTrigger [] (scheduled [entryAt 15 5000])).trig.counters.cancelled = 1 ∧
    answerIn (ran .cancelTrigger .cancelTrigger []) = [2, outcomeCode .notHeld, 0] := by decide +kernel

/-- What a local trigger for lane 15 counts: merged, late, dropped, output off, local only. -/
def madeCounts (s : State) (fire : Time) (sends : Bool) : List Count :=
  let c := (makeTrigger ⟨s, []⟩ 15 fire sends).s.trig.counters
  [c.merged, c.late, c.dropped, c.outputOff, c.localOnly]

theorem test_makeTrigger :
    madeCounts (scheduled [entryAt 15 5000] (outputs true)) 5000 true = [1, 0, 0, 0, 0] ∧
    madeCounts (outputs true) 1000 true = [0, 1, 0, 0, 0] ∧
    madeCounts (scheduled (List.replicate 32 (entryAt 0 5000)) (outputs true)) 5000 false = [0, 0, 1, 0, 1] ∧
    madeCounts (outputs false) 5000 false = [0, 0, 0, 1, 1] ∧
    (makeTrigger ⟨outputs false, []⟩ 15 5000 true).posts = [] ∧
    (makeTrigger ⟨outputs true, []⟩ 15 1000 false).posts = [.notice (.triggers 0 0 0 1 0 1 0)] := by decide +kernel

/-- A TRIG of lane k for a time. -/
def trigCell (k : LaneIx) (fire : Time) : Rx := cellFrom 63 (trigPayload k 1 11 fire)

theorem test_trig_hypotheses :
    Arrives .trig (trigCell 15 5000) .up (outputs true) ∧ Arrives .trig (trigCell 15 5000) .up (outputs false) ∧
    isNew (floodRecord (node.flood.get 7) .trig) 3 11 = true ∧ (node.entry 7).state = .member ∧
    ((rosterNode (fun r => { r with entries := upd r.entries 7 (fun _ => .vacant) })).entry 7).state ≠ .member ∧
    (trigCell 15 5000).payload.length = 12 ∧ beAt (trigCell 15 5000).payload 0 1 = 15 ∧ beAt (trigCell 15 5000).payload 2 2 = 11 ∧
    ((outputs true).store.working.lanes.get 15).outputEnable = true ∧ ((outputs false).store.working.lanes.get 15).outputEnable = false ∧
    (cellFrom 63 []).payload.length ≠ 12 ∧ (scheduled [entryAt 15 5000]).inReset = false ∧ node.tb.correction = 0 ∧
    ((node.modLane 15 (fun x => { x with pulseEnd := some 9 })).trig.lanes.get 15).pulseEnd = some 9 :=
  ⟨arrives_of (by decide +kernel), arrives_of (by decide +kernel), by decide +kernel⟩

theorem test_trig :
    (after (.trig (trigCell 15 5000)) (outputs true)).trig.schedule.map (·.fireTime) = [5000] ∧
    (after (.trig (trigCell 15 900)) (outputs true)).trig.counters.late = 1 ∧
    (after (.trig (trigCell 15 5000)) (outputs false)).trig.counters.outputOff = 1 ∧
    (after (.trig (cellFrom 63 [])) (outputs true)).trig.counters.trigMalformed = 1 := by decide +kernel

theorem test_firing :
    (after .firing (scheduled [entryAt 15 5000, entryAt 0 6000] (outputs true))).trig.schedule = [entryAt 0 6000] ∧
    (after .firing (scheduled [entryAt 15 5000, entryAt 0 6000] (outputs true))).tb.rackTime = 5000 ∧
    outputHigh (after .firing (scheduled [entryAt 15 5000] (outputs true))) 15 = true ∧
    outputHigh (after (.pulseEnd 15) (node.modLane 15 (fun x => { x with pulseEnd := some 9 }))) 15 = false := by decide +kernel

/-- The node with lane 15 in a stage and its input high or low. -/
def laneIn (st : InputStage) (high : Bool) (s : State := outputs true) : State :=
  s.modLane 15 (fun x => { x with stage := st, inputHigh := high, holdSince := some 5, unmuteSince := some 5 })

theorem test_lane_hypotheses :
    ((outputs true).store.working.lanes.get 15).fallingEdge = false ∧ ((outputs true).store.working.lanes.get 15).inputEnable = true ∧
    (∀ st ∈ [InputStage.idle, .asserted, .muted], ((laneIn st false).trig.lanes.get 15).stage = st ∧
      ((laneIn st false).trig.lanes.get 15).inputHigh = false ∧ ((laneIn st true).trig.lanes.get 15).inputHigh = true) ∧
    (node.store.working.lanes.get 15).inputEnable = false ∧ (laneIn .asserted true).inReset = false ∧
    ((laneIn .asserted true).trig.lanes.get 15).holdSince = some 5 ∧ ((laneIn .muted false).trig.lanes.get 15).unmuteSince = some 5 ∧
    judgeInsertion (outputs true) (entryAt 15 2000) = .scheduled := by decide +kernel

theorem test_lane :
    ((after (.enabledEdge 15) (laneIn .idle false)).trig.lanes.get 15).stage = .asserted ∧
    (after (.enabledEdge 15) (laneIn .idle false)).trig.schedule.map (·.fireTime) = [2000] ∧
    (after (.enabledEdge 15) (laneIn .muted false)).trig.counters.mutedEdge = 1 ∧
    ((after (.inputDeasserted 15) (laneIn .asserted true)).trig.lanes.get 15).stage = .idle ∧
    ((after (.holdLimit 15) (laneIn .asserted true)).trig.lanes.get 15).stage = .muted ∧
    ((after (.unmuteTimer 15) (laneIn .muted false)).trig.lanes.get 15).stage = .idle := by decide +kernel

/-! ## Rack time -/

/-- A TIME on port 0 of the node's master, giving an offset from the node's stamp less the delay 11. -/
def timeFrom (time : Time) (quality : Nat := 1) (distance : Nat := 0) (master : FrameNo := 7) : Rx :=
  cellFrom 0 (timePayload master distance quality time)

/-- The offset a TIME gives with the node's delay. -/
def offsetOf (rx : Rx) : Int :=
  (BitVec.ofNat 64 (beAt rx.payload 4 8) + BitVec.ofNat 64 ((node.port 0).samples.sum / (node.port 0).samples.length)
    - (rx.stamp + BitVec.ofInt 64 rx.steps)).toInt

/-- A port without delay samples. -/
def unmeasured : State := withPorts node { portIn .up with samples := [] }

theorem test_time_hypotheses :
    Arrives .time (timeFrom 2000) .up node ∧ Arrives .time (timeFrom 2000) .up unmeasured ∧
    (timeFrom 2000).payload.length = 12 ∧ (node.port 0).samples.sum / 4 = 11 ∧
    node.tb.state ≠ .master ∧ node.tb.master = 7 ∧ (node.route 7).map (·.port) = some 0 ∧ beAt (timeFrom 2000).payload 0 1 = 7 ∧
    beAt (timeFrom 2000 1 0 9).payload 0 1 ≠ node.tb.master.val ∧ beAt (timeFrom 2000 1 6).payload 1 1 < 7 ∧
    ¬ beAt (timeFrom 2000 1 7).payload 1 1 < 7 ∧ (node.port 0).samples ≠ [] ∧ (unmeasured.port 0).samples = [] ∧
    beAt (timeFrom 2000 2).payload 2 1 = 2 ∧ beAt (timeFrom 2000 3).payload 2 1 = 3 ∧
    offsetOf (timeFrom 2989) = 1000 ∧ offsetOf (timeFrom 989) = -1000 ∧ offsetOf (timeFrom 2990) = 1001 ∧
    offsetOf (timeFrom 2029) = 40 ∧ offsetOf (timeFrom 2030) = 41 ∧ node.tb.excursions + 1 ≠ 3 ∧
    (∀ st ∈ [TimeState.locked, .acquiring, .holdover], (timeIn st).tb.state = st ∧ (timeIn st).tb.stepPending = false ∧
      (timeIn st).tb.lockCount + 1 ≠ 8) :=
  ⟨arrives_of (by decide +kernel), arrives_of (by decide +kernel), by decide +kernel⟩

theorem test_time :
    (after (.time (timeFrom 2989)) node).tb.correction = 1000 ∧ (after (.time (timeFrom 2990)) node).tb.excursions = 1 ∧
    (after (.time (timeFrom 2029)) (timeIn .acquiring)).tb.lockCount = 1 ∧
    (after (.time (timeFrom 2030)) (timeIn .acquiring (fun t => { t with lockCount := 5 }))).tb.lockCount = 0 ∧
    (after (.time (timeFrom 2000 2)) node).tb.counters.held = 1 ∧ (after (.time (timeFrom 2000 1 7)) node).tb.counters.far = 1 ∧
    (after (.time (timeFrom 2000)) unmeasured).tb.counters.nodelay = 1 ∧ (after (.time (timeFrom 2000 3)) node).tb.counters.ignored = 1 ∧
    (after (.time (timeFrom 2029)) (timeIn .acquiring (fun t => { t with lockCount := 7 }))).tb.state = .locked := by
  decide +kernel

theorem test_timeStates_hypotheses :
    (timeIn .acquiring (fun t => { t with lockCount := 7 })).tb.lockCount + 1 = 8 ∧
    (timeIn .locked (fun t => { t with excursions := 2 })).tb.excursions + 1 = 3 ∧ (timeIn .holdover).tb.state = .holdover ∧
    (timeIn .free).tb.state = .free ∧ (timeIn .acquiring (fun t => { t with stepPending := true })).tb.stepPending = true ∧
    beAt (timeFrom 2000).payload 2 1 = 1 ∧ (40 : Int).natAbs ≤ 40 ∧ 1000 < (-1001 : Int).natAbs ∧ (-1 : Int) ≠ 0 ∧
    node.tb.master ≠ 0 ∧ node.tb.master ≠ node.own ∧ (node.route node.tb.master).isSome = true := by decide +kernel

theorem test_timeStates :
    (useTime (timeFrom 0) 1001 ⟨timeIn .locked (fun t => { t with excursions := 2 }), []⟩).1.s.tb.state = .acquiring ∧
    (useTime (timeFrom 0) (-1000) ⟨timeIn .holdover, []⟩).1.s.tb.state = .locked ∧
    (doStep 0 ⟨timeIn .acquiring, []⟩).2 = none ∧ (doStep (-1) ⟨timeIn .acquiring, []⟩).1.s.tb.rackTime = 999 ∧
    upstreamPort node = some 0 := by decide +kernel

theorem test_step_receivers_hypotheses :
    (0 : Int) < 500 ∧ (scheduled [entryAt 0 900] (timeIn .locked)).trig.schedule.filter
      (fun t => decide (t.fireTime.toNat ≤ (scheduled [entryAt 0 900]).tb.rackTime.toNat)) ≠ [] ∧
    (let x := { slotIn .source .flowing with gateOpen := true, pace := 10000 }
     x.role = .source ∧ x.state ≠ .closed ∧ x.gateOpen = true ∧ x.pace ≠ 0) ∧ (slotIn .source .armed).state = .armed := by decide +kernel

/-- The time rank a frame shows, in the node. -/
theorem time_rank {s : State} {f : FrameNo} {n : Nat} (h : TimeReady s f n) :
    (s.route f).map (fun r => r.contents.timeRank.toNat) = some n := by
  obtain ⟨r, hr, -, hn, -⟩ := h
  rw [hr, ← hn]
  rfl

theorem test_masterChooses_hypotheses :
    Best (fun f n => f ≠ 0 ∧
      (f = node.own ∧ (node.roster.standing = .member ∨ node.roster.standing = .alone) ∧
          n = actingRank node node.store.working.timeRank ∧ n ≠ 0 ∨ f ≠ node.own ∧
        (node.roster.standing = .member ∧ (node.entry f).state = .member ∧ TimeReady node f n ∨
          ¬ node.roster.standing = .member ∧ AdvertisesMaster node f n ∧ NamedMaster node False f))) 7 4 := by
  have all : ∀ g : FrameNo, ((node.route g).map (fun r => r.contents.timeRank.toNat)).all
      (fun m => decide (g = 7 ∨ m < 4 ∨ m = 4 ∧ 7 < g.val)) = true := by decide +kernel
  refine ⟨⟨by decide, .inr ⟨by decide +kernel, .inl ⟨by decide +kernel, by decide +kernel, routeTo 7 0, by decide +kernel, by decide +kernel,
    by decide +kernel, by decide⟩⟩⟩, fun g m h => ?_⟩
  have done : TimeReady node g m → g = 7 ∨ m < 4 ∨ m = 4 ∧ (7 : FrameNo).val < g.val := fun hr => by
    have := all g
    rw [time_rank hr] at this
    exact of_decide_eq_true this
  rcases h.2 with ⟨-, -, hm, -⟩ | ⟨-, ⟨-, -, hr⟩ | ⟨hs, -⟩⟩
  · rw [show actingRank node node.store.working.timeRank = 3 by decide +kernel] at hm
    exact .inr (.inl (by omega))
  · exact done hr
  · exact absurd (by decide +kernel) hs

theorem test_masterMerge_hypotheses :
    node.tb.master ≠ 0 ∧
    Best (fun f n => f ≠ 0 ∧ f ≠ node.own ∧ AdvertisesMaster node f n ∧ NamedMaster node (node.roster.standing = .member) f ∧
      (node.roster.standing = .member → (node.entry f).state = .member)) 7 4 := by
  have all : ∀ g : FrameNo, (node.route g).all (fun r => r.contents.followedMaster.toNat != g.val || decide (g = 7)) = true := by
    decide +kernel
  have reach : node.route 7 = some (routeTo 7 0) := by decide +kernel
  refine ⟨by decide +kernel, ⟨by decide, by decide +kernel, ⟨⟨routeTo 7 0, reach, by decide +kernel, by decide +kernel, by decide⟩,
    routeTo 7 0, reach, by decide +kernel⟩, ⟨7, routeTo 7 0, by decide, reach, .inr (by decide +kernel), by decide +kernel⟩,
    fun _ => by decide +kernel⟩, fun g m h => ?_⟩
  obtain ⟨r, hr, hf⟩ := h.2.2.1.2
  have := all g
  rw [hr] at this
  simp only [Option.all_some, Bool.or_eq_true, bne_iff_ne, ne_eq, decide_eq_true_eq] at this
  exact .inl (this.resolve_left (fun k => k hf))

theorem test_setMaster_hypotheses :
    (node.own ≠ 0 ∧ node.tb.state ≠ .master) ∧ (timeIn .master (fun t => { t with master := 5 })).tb.state = .master ∧
    (timeIn .master (fun t => { t with master := 5 })).tb.master = node.own ∧ (9 : FrameNo) ≠ node.tb.master ∧
    (tbAct (fun a => (a, some 5)) ⟨node, []⟩).posts ≠ [] ∧ (tbAct (fun a => (a, none)) ⟨node, []⟩).posts = [] := by decide +kernel

theorem test_timeTimers_hypotheses :
    node.inReset = false ∧ node.tb.watchSince = some 5 ∧ node.tb.state = .locked ∧ (timeIn .free).tb.state = .free ∧
    (timeIn .holdover (fun t => { t with holdoverSince := some 5 })).tb.holdoverSince = some 5 ∧
    (timeIn .holdover).tb.master ≠ 0 ∧ (timeIn .holdover (fun t => { t with master := 0 })).tb.master = 0 := by decide +kernel

theorem test_timeTimers :
    ((after .emissionTimer node).link 3).tQueue.length = 1 ∧ ((after .emissionTimer node).link 0).tQueue.length = 0 ∧
    (after .emissionTimer (timeIn .free)).now = 1000000 ∧ (after .timeWatch node).tb.state = .holdover ∧
    (after .timeWatch node).tb.counters.gaps = 1 ∧
    (after .holdoverLimit (timeIn .holdover (fun t => { t with holdoverSince := some 5 }))).tb.state = .free := by
  decide +kernel

/-! ## Reach -/

/-- A BEACON of frame 9 on port 1. -/
def beaconOf (hops : Fin 8 := 1) (sequence : BitVec 16 := 11) (incarnation : BitVec 16 := 3) (f : FrameNo := 9)
    (claims : Nat := 9) : Rx :=
  { cellFrom 63 (contentsPayload { contentsOfFrame claims with incarnation := incarnation }) f with
    port := 1, hops := hops, floodSeq := sequence, incarnation := incarnation }

/-- The node where frame 9's last BEACON of sequence 11 has been recorded. -/
def seen : State := recordFlood node .beacon (beaconOf)

theorem test_beacon_hypotheses :
    Arrives .beacon (beaconOf) .up node ∧ Arrives .beacon (beaconOf) .up seen ∧ Arrives .beacon (beaconOf 7) .up node ∧
    Arrives .beacon (beaconOf 0 11 3 5 5) .up node ∧
    isNew (floodRecord (node.flood.get 9) .beacon) 3 11 = true ∧ isNew (floodRecord (seen.flood.get 9) .beacon) 3 11 = false ∧
    (beaconOf 0 11 3 5 5).origin = node.own ∧ node.own ≠ 0 ∧ node.reach.portSet.get 1 = true ∧
    (beaconOf).payload.length = 20 ∧ (parseContents (beaconOf).payload).frame = 9 ∧ (parseContents (beaconOf).payload).incarnation = 3 ∧
    (parseContents (beaconOf 1 11 3 9 8).payload).frame ≠ 9 ∧ (node.route 9).map (·.incarnation) = some 3 ∧ newer 3 (2 : BitVec 16) = true ∧
    ((32771 : BitVec 16) ≠ 3 ∧ newer (32771 : BitVec 16) 3 = false ∧ newer 3 (32771 : BitVec 16) = false ∧
      newer (4 : BitVec 16) 3 = true) ∧
    (node.route 20) = none ∧ (node.route 9).map (fun r => (r.port, r.hops, r.sequence)) = some (1, 1, 10) ∧
    newer (11 : BitVec 16) 10 = true ∧ ({ node with reach := Reach.reset } : State).reach.portSet.get 1 = false :=
  ⟨arrives_of (by decide +kernel), arrives_of (by decide +kernel), arrives_of (by decide +kernel), arrives_of (by decide +kernel),
    by decide +kernel⟩

theorem test_beacon :
    (after (.beacon (beaconOf 7)) node).reach.counters.far = 1 ∧ (after (.beacon (beaconOf 1 11 2)) node).reach.counters.stale = 1 ∧
    (after (.beacon (beaconOf 1 11 32771)) node).reach.counters.stale = 1 ∧
    (after (.beacon (beaconOf 1 11 3 9 8)) node).reach.counters.malformed = 1 ∧
    ((after (.beacon (beaconOf 0 11 3 5 5)) node).link 1).counters.own = 1 ∧
    ((takeOffer (beaconOf) ⟨seen, []⟩).s.route 9).map (fun r => (r.hops, r.sequence)) = some (2, 11) := by decide +kernel

theorem test_period_hypotheses :
    node.inReset = false ∧ State.reset.own = 0 ∧ node.own ≠ 0 ∧ node.roster.standing ≠ .leaving ∧
    (ownIn .leaving .leaving).roster.standing = .leaving ∧
    ((node.route 7).any (fun r => !r.refreshed && r.age + 1 == 3)) = false ∧
    ({ routeTo 7 0 with age := 2 } : Route).age + 1 = 3 := by decide +kernel

theorem test_period :
    (originateBeacon node).reach.ownSequence = 1 ∧ ((originateBeacon node).link 3).tQueue.length + ((originateBeacon node).link 3).cQueue.length = 1 ∧
    ((ageTable ⟨node, []⟩).s.route 7).map (·.age) = some 1 ∧ (markUnknown node 7).route 7 = none := by decide +kernel

/-! ## Notes -/

/-- SEND_NOTE parameters. -/
def sendParameters (dest a len : Nat) : List Byte := leBytes 8 dest ++ leBytes 8 a ++ leBytes 8 len

/-- The node with notes in the window and waiting. -/
def noting (k : Nat) (waiting : List (BitVec 32)) : State :=
  { node with notes := { node.notes with window := List.replicate k ⟨9, 7, 0, 1, 5⟩, waiting := waiting } }

theorem test_sendNote_hypotheses :
    Oldest .sendNote (anOrder .sendNote (sendParameters 7 0x50000 192)) (ordered node (anOrder .sendNote (sendParameters 7 0x50000 192))) ∧
    (∀ d ∈ [1, 31], 1 ≤ d ∧ d ≤ 31 ∧ d ≠ node.own.val) ∧ noteDest (anOrder .sendNote (sendParameters 32 1 1)) = 32 ∧
    notePointer (anOrder .sendNote (sendParameters 7 0 1)) = 0 ∧ noteLength (anOrder .sendNote (sendParameters 7 0x50000 192)) = 192 ∧
    (noting 3 []).notes.window.length < 4 ∧ 4 ≤ (noting 4 []).notes.window.length ∧ (noting 0 [8]).notes.waiting ≠ [] ∧
    node.roster.standing = .member ∧ (ownIn .quarantined .held).roster.standing ≠ .member ∧ (node.entry 7).state = .member ∧
    (node.route 7).isSome = true ∧ (node.route 20).isSome = false ∧
    firstFault (faulting node 0x500BF 1).mem.readFaults 0x50000 192 = some 0x500BF ∧ firstFault node.mem.readFaults 0x50000 192 = none ∧
    windowOrder (ordered (noting 3 [3]) (anOrder .sendNote (sendParameters 7 0x50000 1))) 3 = some (anOrder .sendNote (sendParameters 7 0x50000 1)) :=
  ⟨oldest_of _ _ rfl, by decide +kernel⟩

theorem test_sendNote :
    answerIn (ran .sendNote .sendNote (sendParameters 5 0x50000 1)) = [2, outcomeCode .badOrder, 0] ∧
    answerIn (ran .sendNote .sendNote (sendParameters 7 0 1)) = [2, outcomeCode .badOrder, 1] ∧
    answerIn (ran .sendNote .sendNote (sendParameters 7 0x50000 193)) = [2, outcomeCode .badOrder, 2] ∧
    answerIn (ran .sendNote .sendNote (sendParameters 20 0x50000 1)) = [2, outcomeCode .unreachable, 0] ∧
    (ran .sendNote .sendNote (sendParameters 7 0x50000 192)).notes.window.map (·.length) = [192] ∧
    (ran .sendNote .sendNote (sendParameters 7 0x50000 1) (noting 4 [])).notes.waiting = [3] ∧
    (after .waitingNoteTaken (ordered (noting 3 [3]) (anOrder .sendNote (sendParameters 7 0x50000 1)))).notes.window.length = 4 := by
  decide +kernel

/-- A NOTE with a body. -/
def noteOf (body : List Byte) : Rx := cellFrom 5 (notePayload 4 107 body)

/-- The node with its first inbox slots held. -/
def inboxHeld (k : Nat) (s : State := node) : State :=
  { s with notes := { s.notes with inbox := Vector.ofFn (fun i => decide (i.val < k)) } }

/-- The node, a SEND_NOTE held under number 4. -/
def sentNote : State :=
  { ordered node { anOrder .sendNote with status := .held } with notes := { node.notes with window := [⟨3, 7, 4, 1, 5⟩] } }

theorem test_note_hypotheses :
    Arrives .note (noteOf (zeros 192)) .up (inboxHeld 7) ∧ Arrives .note (noteOf []) .up node ∧
    Arrives .noteAnswer (cellFrom 5 (noteAnswerPayload 4 .accepted 7)) .up sentNote ∧
    beAt (noteOf (zeros 192)).payload 2 2 = 192 ∧ (noteOf (zeros 192)).payload.length = 16 + 192 ∧ beAt (noteOf []).payload 2 2 = 0 ∧
    (node.entry 7).state = .member ∧ node.ex.state = .attached ∧ (stalledNode []).ex.state ≠ .attached ∧
    (inboxHeld 7).notes.inbox.get 7 = false ∧ (∀ j : InboxIx, j < 7 → (inboxHeld 7).notes.inbox.get j = true) ∧
    (∀ k, (inboxHeld 8).notes.inbox.get k = true) ∧
    firstFault node.mem.writeFaults (areaBase node + 0x800 + 0x100 * 7) 256 = none ∧
    firstFault (faulting node 0x10F01 1).mem.writeFaults (areaBase node + 0x800 + 0x100 * 7 + 1) (63 + 1) = some 0x10F01 ∧
    firstFault (faulting node 0x10F00 1).mem.writeFaults (areaBase node + 0x800 + 0x100 * 7) 1 = some 0x10F00 ∧
    firstFault (faulting node 0x10F00 1).mem.writeFaults (areaBase node + 0x800 + 0x100 * 7 + 1) (63 + 192) = none ∧
    noteAnswerOfCode 0 = none ∧ beAt (noteAnswerPayload 4 .accepted 7) 3 1 ≤ 7 ∧ sentNote.inReset = false ∧
    sentNote.notes.window.find? (fun e => e.dest == 7 && e.number == 4) = some ⟨3, 7, 4, 1, 5⟩ :=
  ⟨arrives_of (by decide +kernel), arrives_of (by decide +kernel), arrives_of (by decide +kernel), by decide +kernel⟩

theorem test_note :
    (after (.note (noteOf [0xAB])) (inboxHeld 7)).notes.inbox.get 7 = true ∧
    memByte (after (.note (noteOf [0xAB])) (inboxHeld 7)).mem 0x10F40 = 0xAB ∧ memByte (after (.note (noteOf [0xAB])) (inboxHeld 7)).mem 0x10F00 = 1 ∧
    (after (.note (noteOf [1])) (inboxHeld 8)).notes.counters.busy = 1 ∧ (after (.note (noteOf [])) node).notes.counters.malformed = 1 ∧
    (after (.note (noteOf [1])) (faulting (inboxHeld 7) 0x10F01 1)).notes.counters.busy = 1 ∧
    answerIn (after (.noteAnswer (cellFrom 5 (noteAnswerPayload 4 .accepted 7))) sentNote) = [2, 0, 0] ∧
    memByte (after (.noteAnswer (cellFrom 5 (noteAnswerPayload 4 .accepted 7))) sentNote).mem 0x20030 = 7 ∧
    answerIn (after (.answerTimer 4) sentNote) = [2, outcomeCode .unconfirmed, 0] := by decide +kernel

/-! ## Streams -/

/-- OPEN_STREAM parameters, valid but for those given. -/
def openParameters (slot role peer : Nat) (size : Nat := 256) (pace gate gateValue interval : Nat := 1) (chain : Nat := 0x40000) : List Byte :=
  leBytes 1 slot ++ leBytes 1 role ++ leBytes 2 peer ++ leBytes 4 6 ++ leBytes 4 size ++ leBytes 4 pace ++ leBytes 8 gate
    ++ leBytes 8 gateValue ++ leBytes 4 interval ++ leBytes 4 0 ++ leBytes 8 chain

/-- An opening of slot 63, its role given. -/
def openOf (role : Nat) : List Byte := openParameters 63 role 7 65536 10000 2 15 64

/-- The node where another slot holds the tag toward the peer. -/
def tagTaken (r : Role) : State := slotted 0 (slotIn r .flowing)

theorem test_open_hypotheses :
    Oldest .openStream (anOrder .openStream (openOf 0)) (ordered node (anOrder .openStream (openOf 0))) ∧
    (∀ r ∈ [0, 1], openBadParameter node (anOrder .openStream (openOf r)) = none) ∧
    openSlot (anOrder .openStream (openOf 0)) = (63 : SlotIx).val ∧
    openBadParameter node (anOrder .openStream (openParameters 64 0 7)) = some 0 ∧ (node.slot 63).state = .closed ∧
    ((slotted 63 (slotIn .sink .flowing)).slot 63).state ≠ .closed ∧ ((tagTaken .source).slot 0).tag.toNat = openTag (anOrder .openStream (openOf 0)) ∧
    ((tagTaken .sink).slot 0).peer.val = openPeer (anOrder .openStream (openOf 1)) ∧ node.roster.standing = .member ∧
    (rosterNode (fun r => { r with standing := .held })).roster.standing ≠ .member ∧ (node.entry (frameOf 7)).state = .member ∧
    (node.route (frameOf 7)).isSome = true ∧ (node.route (frameOf 20)).isSome = false ∧
    openBadParameter node (anOrder .openStream (openParameters 63 0 20 256 0 0)) = none :=
  ⟨oldest_of _ _ rfl, by decide +kernel⟩

theorem test_open :
    ([openParameters 64 0 7, openParameters 0 2 7, openParameters 0 0 5, openParameters 0 0 7 257, openParameters 0 0 7 256 9999,
      openParameters 0 0 7 256 10000 3, openParameters 0 0 7 256 10000 2 16, openParameters 0 0 7 256 0 0 0 65,
      openParameters 0 0 7 256 0 0 0 1 0].map (fun p => answerIn (ran .openStream .openStream p))) =
      [0, 1, 2, 4, 5, 6, 7, 8, 10].map (fun i => [2, outcomeCode .badOrder, i]) ∧
    answerIn (ran .openStream .openStream (openOf 0) (tagTaken .source)) = [2, outcomeCode .inUse, 0] ∧
    ((ran .openStream .openStream (openOf 1)).slot 63).state = .offered ∧ ((ran .openStream .openStream (openOf 0)).slot 63).state = .opening ∧
    ((ran .openStream .openStream (openOf 0)).slot 63).counters.openSent = 1 := by decide +kernel

/-- CLOSE_STREAM parameters. -/
def closeParameters (slot mode : Nat) : List Byte := leBytes 1 slot ++ leBytes 1 mode

theorem test_close_hypotheses :
    Oldest .closeStream (anOrder .closeStream [63, 1]) (ordered node (anOrder .closeStream [63, 1])) ∧
    Oldest .haltStream (anOrder .haltStream [63]) (ordered node (anOrder .haltStream [63])) ∧
    Oldest .resumeStream (anOrder .resumeStream [63]) (ordered node (anOrder .resumeStream [63])) ∧
    streamSlotParameter (anOrder .closeStream [63, 1]) = (63 : SlotIx).val ∧ 63 < streamSlotParameter (anOrder .closeStream [64]) ∧
    closeMode (anOrder .closeStream [63, 1]) = 1 ∧ closeMode (anOrder .closeStream [63]) = 0 ∧ 1 < closeMode (anOrder .closeStream [63, 2]) ∧
    (∀ st ∈ [StreamState.closed, .opening, .offered, .draining, .stranded, .flowing, .halted],
      ((slotted 63 (slotIn .source st)).slot 63).state = st ∧ ((slotted 63 (slotIn .source st)).slot 63).selfHalt = false) ∧
    ((slotted 63 { slotIn .source .halted with selfHalt := true }).slot 63).selfHalt = true :=
  ⟨oldest_of _ _ rfl, oldest_of _ _ rfl, oldest_of _ _ rfl, by decide +kernel⟩

theorem test_close :
    answerIn (ran .closeStream .closeStream [63, 2]) = [2, outcomeCode .badOrder, 1] ∧
    answerIn (ran .closeStream .closeStream [63, 0] (slotted 63 (slotIn .sink .flowing))) = [2, outcomeCode .wrongState, 0] ∧
    ((ran .closeStream .closeStream [63, 0] (slotted 63 (slotIn .source .flowing))).slot 63).state = .draining ∧
    ((ran .closeStream .closeStream [63, 1] (slotted 63 (slotIn .source .flowing))).slot 63).state = .closed := by decide +kernel

theorem test_halt :
    ((ran .haltStream .haltStream [63] (slotted 63 (slotIn .source .flowing))).slot 63).state = .halted ∧
    ((ran .haltStream .haltStream [63] (slotted 63 (slotIn .source .flowing))).slot 63).cause = .halt ∧
    answerIn (ran .haltStream .haltStream [63]) = [2, outcomeCode .wrongState, 0] ∧
    ((ran .resumeStream .resumeStream [63] (slotted 63 { slotIn .source .halted with selfHalt := true })).slot 63).selfHalt = false ∧
    answerIn (ran .resumeStream .resumeStream [63] (slotted 63 (slotIn .source .flowing))) = [2, outcomeCode .wrongState, 0] := by
  decide +kernel

/-- A sink halted by itself with one FAULTED record, the write stop as given. -/
def faultedSink (stop : Bool) : State :=
  slotted 63 { slotIn .sink .halted with
    selfHalt := true, writeStop := stop, fetched := [newRec (some 0x40000) true (some 1) .faulted none 0x60000 256] }

theorem test_resumeFaulted_hypotheses :
    ((faultedSink false).slot 63).fetched.filterMap (fun r => if r.stage = .faulted then r.number else none) = [1] ∧
    ((faultedSink false).slot 63).writeStop = false ∧ ((faultedSink true).slot 63).writeStop = true := by decide +kernel

/-- R157, R158: a RESUME_STREAM completes a FAULTED block DAMAGED; where the write faults it is made once, and waits with
the self halt set. -/
theorem test_resumeFaulted :
    ((ran .resumeStream .resumeStream [63] (faultedSink false)).slot 63).fetched = [] ∧
    ∀ stop, (let x := (ran .resumeStream .resumeStream [63] (faulting (faultedSink stop) 0x40014 1)).slot 63
      x.counters.faults = 1 ∧ x.writeStop = true ∧ x.selfHalt = true ∧ x.cause = .memoryFault) := by decide +kernel

theorem test_settled_hypotheses :
    (let x := slotIn .source .flowing
     settledState node { x with gateOpen := true, selfHalt := true } = .halted ∧ settledState node x = .armed ∧
     settledState (timeIn .free) { x with gateOpen := true, pace := 10000 } = .timeheld ∧ settledState node { x with gateOpen := true } = .flowing) ∧
    settledState node (slotIn .sink .halted) = .flowing ∧ settledState node { slotIn .sink .halted with drain := true } = .halted := by
  decide +kernel

theorem test_gate_hypotheses :
    (let x := slotIn .source .armed
     (x.role = .source ∧ x.gateOpen = false ∧ x.selfHalt = false ∧ x.peerHalt = false) ∧ x.gate = .now ∧
     { x with gate := .onLane 15 }.gate = .onLane 15 ∧ isSettling x.state = true ∧ isSettling .stranded = false) ∧
    (1000 : Time).toNat ≤ node.tb.rackTime.toNat ∧ node.tb.rackTime.toNat < (1001 : Time).toNat := by decide +kernel

theorem test_strand_hypotheses :
    (let x := slotIn .source .flowing
     let y := slotIn .sink .halted
     (x.role = .source ∧ isSettling x.state = true) ∧ (y.role = .sink ∧ y.state = .halted ∧ y.drain = false)) ∧
    ((slotted 63 (slotIn .sink .stranded)).entry 7).state = .member ∧ ((slotted 63 (slotIn .sink .stranded)).route 7).isSome = true ∧
    (slotted 63 (slotIn .sink .stranded)).roster.standing = .member ∧
    { slotIn .source .draining with drainMode := some .finish }.drainMode = some .finish ∧
    ¬ (node.roster.standing = .member ∧ (node.route 20).isSome = true) := by decide +kernel

/-- A stream cell of the node's stream at slot 63. -/
def streamCell (payload : List Byte) (word : BitVec 32 := 0) : Rx := { cellFrom 5 payload with word := word }

/-- The slot's payload fields hold for a cell of tag 6, open number 2. -/
theorem payload_of {rx : Rx} {length direction : Nat}
    (h : (decide (rx.payload.length = length) && decide (beAt rx.payload 0 2 = 6) && decide (beAt rx.payload 2 2 = 2)
      && decide (beAt rx.payload 4 1 = direction)) = true) : StreamPayload rx length direction 6 2 := by
  simp only [Bool.and_eq_true, decide_eq_true_eq] at h
  exact ⟨h.1.1.1, h.1.1.2, h.1.2, h.2⟩

/-- Cells whose payload form does not fit, of the kinds an UP port's part takes for itself. -/
def unfitCells : List (Kind × (Rx → Instr) × Rx) :=
  [(.probe, .probe, cellFrom 0 (zeros 8)), (.echo, .echo, cellFrom 0 (zeros 11)), (.openCell, .openCell, streamCell (zeros 15)),
   (.openAnswer, .openAnswer, streamCell ([0, 6, 0, 2, 1, 0, 0, 0, 5] ++ zeros 7)),
   (.credit, .credit, streamCell ([0, 6, 0, 2, 1, 0, 0, 0, 0, 0, 0, 0, 2] ++ zeros 3)),
   (.halt, .halt, streamCell ([0, 6, 0, 2, 2] ++ zeros 7)), (.close, .close, streamCell ([0, 6, 0, 2, 1] ++ zeros 7)),
   (.blockack, .blockack, streamCell ([0, 6, 0, 2, 1, 0, 0, 0, 3] ++ zeros 3)), (.data, .data, streamCell (zeros 23))]

theorem test_unfitCells : (∀ x ∈ unfitCells, arrives x.1 x.2.2 .up node = true) ∧ parseData (zeros 23) = none ∧
    ∀ x ∈ unfitCells, after (x.2.1 x.2.2) node = heard node x.2.2 := by decide +kernel

theorem test_parsed :
    (parseHello (helloFrom 7)).map (·.anchor) = some 7 ∧ (parseVerdict (verdictOn 1 .admitted)).map (·.frame) = some 5 ∧
    (parseData (dataHead 6 2 0 true ++ dataBlockHead 2 5 1 ++ [1, 2])).map (fun d => (d.length, d.samples)) = some (2, [1, 2]) ∧
    (parseData (dataHead 6 2 264 false ++ [7])).map (fun d => (d.index, d.timestamp, d.samples)) = some (264, 0, [7]) := by
  decide +kernel

/-- A slot armed on a lane opens with the lane's entry; a request's gate value is taken in its range. -/
theorem test_laneGate :
    let s := slotted 63 { slotIn .source .armed with gate := .onLane 15 }
    ((streamFiring 15 900 ⟨s, []⟩).s.slot 63).gateOpen = true ∧ ((streamFiring 15 900 ⟨s, []⟩).s.slot 63).startTime = 900 ∧
    ((streamFiring 14 900 ⟨s, []⟩).s.slot 63).gateOpen = false ∧ (frameOf 31).val = 31 ∧
    gateOf (anOrder .openStream (openOf 0)) = .onLane 15 := by decide +kernel

/-- A CLOSE and a BLOCKACK toward a peer out of reach are counted and not sent. -/
theorem test_unsent :
    let s := slotted 63 (slotIn .sink .flowing) cutOff
    ((sendClose s 63 .abort).slot 63).counters.unsent = 1 ∧ ((sendAck s 63 2 .delivered).slot 63).counters.unsent = 1 ∧
    (sendClose s 63 .abort).links = s.links := by decide +kernel

/-- The source slot 63 in a state. -/
def sourceIn (st : StreamState) : State := slotted 63 { slotIn .source st with openOrder := some 3, gateOpen := true }

/-- The sink slot 63 in a state. -/
def sinkIn (st : StreamState) : State := slotted 63 { slotIn .sink st with asmLength := 600, expCell := 1 }

/-- The cell matches slot 63 and no other. -/
theorem test_source_hypotheses : ∀ st ∈ [StreamState.opening, .flowing, .halted], ∀ m : SlotIx, m = 63 ↔
    (((sourceIn st).slot m).role = .source ∧ ((sourceIn st).slot m).state ≠ .closed ∧ ((sourceIn st).slot m).tag = 6 ∧
      ((sourceIn st).slot m).openNumber = 2 ∧ ((sourceIn st).slot m).peer = 7) := by decide +kernel

theorem test_sink_hypotheses : ∀ st ∈ [StreamState.flowing, .halted, .stranded], ∀ m : SlotIx, m = 63 ↔
    (((sinkIn st).slot m).role = .sink ∧ ((sinkIn st).slot m).state ≠ .closed ∧ ((sinkIn st).slot m).state ≠ .offered ∧
      ((sinkIn st).slot m).peer = 7 ∧ ((sinkIn st).slot m).tag = 6 ∧ ((sinkIn st).slot m).openNumber = 2 ∧
      ((sinkIn st).slot m).peerIncarnation = some 3) := by decide +kernel

theorem test_unmatched_hypotheses : ∀ m : SlotIx, (node.slot m).state = .closed := by decide +kernel

/-- An OPEN of tag 6 and open number 2. -/
def openFrom (size pace : Nat) : Rx := streamCell (openPayload 6 2 size pace)

theorem test_handshake_hypotheses :
    Arrives .openCell (openFrom 256 0) .up (sinkIn .offered) ∧ StreamPayload (openFrom 65536 10000) 16 0 6 2 ∧
    Arrives .openAnswer (streamCell (openAnswerPayload 6 2 .accept 9)) .up (sourceIn .opening) ∧
    StreamPayload (streamCell (openAnswerPayload 6 2 .accept 9)) 16 1 6 2 ∧
    Arrives .credit (streamCell (creditPayload 6 2 9 true)) .up (sourceIn .flowing) ∧ StreamPayload (streamCell (creditPayload 6 2 9 true)) 16 1 6 2 ∧
    beAt (openFrom 65536 10000).payload 8 4 = 65536 ∧ beAt (openFrom 65536 1000000000).payload 12 4 = 1000000000 ∧
    (node.route 7).isSome = true ∧ cutOff.route 7 = none ∧
    (∀ m : SlotIx, m = 63 ↔ (((sinkIn .offered).slot m).role = .sink ∧ ((sinkIn .offered).slot m).state ≠ .closed ∧
      ((sinkIn .offered).slot m).peer = 7 ∧ ((sinkIn .offered).slot m).tag = 6)) ∧
    (node.entry 7).state = .member ∧ ((sinkIn .offered).slot 63).blockSize = 256 ∧ ((sinkIn .flowing).slot 63).openNumber = 2 ∧
    beAt (openAnswerPayload 6 2 .accept 9) 8 1 = openAnswerCode .accept ∧ beAt (creditPayload 6 2 9 true) 12 1 = flagCode true ∧
    ((sourceIn .opening).slot 63).openOrder = some 3 ∧ ((sourceIn .flowing).slot 63).peerHalt = false :=
  ⟨arrives_of (by decide +kernel), payload_of (by decide +kernel), arrives_of (by decide +kernel), payload_of (by decide +kernel),
    arrives_of (by decide +kernel), payload_of (by decide +kernel), by decide +kernel⟩

theorem test_handshake :
    ((after (.openCell (openFrom 256 0)) (sinkIn .offered)).slot 63).state = .flowing ∧
    ((after (.openCell (openFrom 512 0)) (sinkIn .offered)).slot 63).state = .offered ∧
    ((after (.openAnswer (streamCell (openAnswerPayload 6 2 .accept 9))) (sourceIn .opening)).slot 63).creditLimit = 9 ∧
    ((after (.openAnswer (streamCell (openAnswerPayload 6 2 .full 0))) (sourceIn .opening)).slot 63).cause = .full ∧
    ((after (.credit (streamCell (creditPayload 6 2 9 false))) (sourceIn .flowing)).slot 63).creditLimit = 9 ∧
    ((after (.credit (streamCell (creditPayload 6 2 3 true))) (sourceIn .flowing)).slot 63).creditLimit = 4 ∧
    ((after (.credit (streamCell (creditPayload 6 2 3 true))) (sourceIn .flowing)).slot 63).state = .halted := by decide +kernel

/-- A source whose record of block 2 is in a stage, with 256 bytes at 0x60000. -/
def sendingIn (st : Stage) (f : Slot → Slot := id) : State :=
  slotted 63 (f { slotIn .source .flowing with
    gateOpen := true, unresolved := 1, nextBlock := 3
    fetched := [{ newRec (some 0x40000) true (some 2) st none 0x60000 256 with ackSince := some 5 }] })

theorem test_closing_hypotheses :
    Arrives .halt (streamCell (haltPayload 6 2 1 true)) .up (sourceIn .flowing) ∧ StreamPayload (streamCell (haltPayload 6 2 1 true)) 12 1 6 2 ∧
    Arrives .halt (streamCell (haltPayload 6 2 0 true)) .up (sinkIn .flowing) ∧ StreamPayload (streamCell (haltPayload 6 2 0 true)) 12 0 6 2 ∧
    Arrives .close (streamCell (closePayload 6 2 0 .exchangeReset)) .up (sinkIn .flowing) ∧
    StreamPayload (streamCell (closePayload 6 2 0 .exchangeReset)) 12 0 6 2 ∧
    Arrives .blockack (streamCell (blockackPayload 6 2 .delivered) 2) .up (sendingIn .sent) ∧
    StreamPayload (streamCell (blockackPayload 6 2 .delivered) 2) 12 1 6 2 ∧
    beAt (closePayload 6 2 0 .exchangeReset) 8 1 = closeReasonCode .exchangeReset ∧
    ackResultOfCode (beAt (blockackPayload 6 2 .delivered) 8 1) = some .delivered ∧
    (findRec ((sendingIn .sent).slot 63) 2).map (·.stage) = some .sent ∧ (findRec ((sendingIn .waiting).slot 63) 2).map (·.stage) = some .waiting ∧
    (findRec ((sendingIn .sent).slot 63) 3).isSome = false :=
  ⟨arrives_of (by decide +kernel), payload_of (by decide +kernel), arrives_of (by decide +kernel), payload_of (by decide +kernel),
    arrives_of (by decide +kernel), payload_of (by decide +kernel), arrives_of (by decide +kernel), payload_of (by decide +kernel),
    by decide +kernel⟩

/-- Two blocks of the source: the first waits, the second is sent. -/
def twoBlocks : State := sendingIn .sent (fun x => { x with fetched :=
  [newRec (some 0x40000) true (some 2) .sent none 0x60000 256, newRec (some 0x40040) true (some 3) .sent none 0x60100 256] })

theorem test_resolve_hypotheses :
    (findRec (twoBlocks.slot 63) 3).map (fun r => (r.stage, r.length)) = some (.sent, 256) ∧ (twoBlocks.slot 63).state ≠ .draining ∧
    (twoBlocks.slot 63).fetched.head?.map (fun r => (r.outcome, r.number)) = some (none, some 2) := by decide +kernel

theorem test_endResolved_hypotheses :
    (let r := newRec none false (some 3) .sent none 0 0
     r.length = 0 ∧ r.address = none) ∧
    (let r := newRec (some 0x40000) false (some 3) .sent none 0 0
     r.length = 0 ∧ r.address ≠ none) ∧ (slotIn .source .flowing).state ≠ .draining := by decide +kernel

theorem test_closing :
    ((after (.halt (streamCell (haltPayload 6 2 1 true))) (sourceIn .flowing)).slot 63).state = .halted ∧
    ((after (.close (streamCell (closePayload 6 2 0 .exchangeReset))) (sinkIn .flowing)).slot 63).cause = .exchangeReset ∧
    (after (.close (streamCell (closePayload 6 2 0 .abort))) node).stream.unmatched = 1 ∧
    ((after (.halt (streamCell (haltPayload 6 2 1 true))) node).link 0).cQueue.length = 1 ∧
    ((after (.blockack (streamCell (blockackPayload 6 2 .delivered) 3)) (sendingIn .sent)).slot 63).counters.ackIgnored = 1 ∧
    memByte (after (.blockack (streamCell (blockackPayload 6 2 .delivered) 2)) (sendingIn .sent)).mem 0x40014 = 2 := by decide +kernel

/-! ## Blocks -/

/-- A DATA payload of a cell after the first. -/
def dataOf (index : Nat) (last : Bool) (samples : Nat) : List Byte := dataHead 6 2 index last ++ List.replicate samples 0xAB

/-- A DATA payload of cell 0. -/
def firstData (length samples : Nat) (last : Bool) : List Byte :=
  dataHead 6 2 0 last ++ dataBlockHead length 1000 1 ++ List.replicate samples 0xAB

/-- A sink with a credited record of block 2, 600 bytes at 0x60000, its next cell as given. -/
def assemblyAt (cell : Nat) (st : StreamState := .flowing) : State :=
  slotted 63 { slotIn .sink st with
    blockSize := 600, expCell := cell, asmLength := 600
    fetched := [newRec (some 0x40000) true (some 2) .assembling none 0x60000 600] }

theorem test_data_hypotheses :
    (∀ p ∈ [firstData 600 232 false, firstData 0 0 true, dataOf 1 false 248, dataOf 2 true 120],
      (parseData p).isSome = true ∧ arrives .data (streamCell p 2) .up (assemblyAt 1) = true) ∧
    (parseData (dataOf 2 true 120)).map (fun d => (d.index, d.last, d.samples.length)) = some (2, true, 120) ∧
    (let x := (assemblyAt 1).slot 63
     newer x.expBlock 1 = true ∧ newer x.expBlock 2 = false ∧ newer x.creditLimit 4 = false ∧ newer x.creditLimit 3 = true ∧
     newer x.expBlock 3 = false ∧ 0 < x.expCell ∧ x.expBlock = 2 ∧ x.peerHalt = false) ∧
    ((2147483650 : BitVec 32) ≠ 2 ∧ newer (2147483650 : BitVec 32) 2 = false) ∧
    ((slotted 63 { slotIn .sink .halted with peerHalt := true }).slot 63).peerHalt = true ∧
    ((assemblyAt 0 .halted).slot 63).expCell = 0 ∧ ((assemblyAt 0 .halted).slot 63).state = .halted ∧
    (findRec ((assemblyAt 1).slot 63) 2).map (·.buffer) = some 0x60000 ∧ 232 + 248 * (2 - 1) + 120 = 600 ∧
    firstFault node.mem.writeFaults (0x60000 + 480) 120 = none ∧
    firstFault (faulting node 0x60257 1).mem.writeFaults (0x60000 + 480) 120 = some 0x60257 := by decide +kernel

theorem test_data :
    (let t := after (.data (streamCell (dataOf 1 false 248) 2)) (assemblyAt 1)
     (t.slot 63).expCell = 2 ∧ memByte t.mem (0x60000 + 231) = 0 ∧ memByte t.mem (0x60000 + 232) = 0xAB ∧
     memByte t.mem (0x60000 + 479) = 0xAB ∧ memByte t.mem (0x60000 + 480) = 0) ∧
    memByte (after (.data (streamCell (dataOf 2 true 120) 2)) (assemblyAt 2)).mem 0x40015 = blockOutcomeCode .delivered ∧
    memByte (after (.data (streamCell (dataOf 2 true 119) 2)) (assemblyAt 2)).mem 0x40015 = blockOutcomeCode .damaged ∧
    ((after (.data (streamCell (firstData 0 0 true) 2)) (assemblyAt 0)).slot 63).cause = .ended ∧
    ((after (.data (streamCell (dataOf 1 false 248) 1)) (assemblyAt 1)).slot 63).counters.stale = 1 ∧
    ((after (.data (streamCell (dataOf 1 false 248) 2147483650)) (assemblyAt 1)).slot 63).counters.stale = 1 ∧
    ((after (.data (streamCell (dataOf 1 false 248) 4)) (assemblyAt 1)).slot 63).counters.beyond = 1 ∧
    ((after (.data (streamCell (firstData 600 232 false) 2)) (assemblyAt 0 .halted)).slot 63).counters.heldOff = 1 ∧
    ((after (.data (streamCell (dataOf 2 true 120) 2)) (faulting (assemblyAt 2) 0x60257 1)).slot 63).selfHalt = true := by
  decide +kernel

/-- A cell in the queues of port 0. -/
def queued (c : TxClass) (k : Kind) (answers : Option Time := none) : State :=
  node.modLink 0 (fun l => setQueue l c [⟨ownCell node k 0 (zeros 12), answers⟩])

/-- Slot 63 offers a cell of block 2 to port 0, or has it on the line. -/
def offering (index : Nat) (last : Bool) (online : Bool) : State :=
  let lc : LocalCell := ⟨63, 2, 2, index, 232, last⟩
  let c := ownCell node .data 7 (dataHead 6 2 index last ++ dataBlockHead 600 0 1 ++ zeros 232) 0 2
  let s := sendingIn .sending (fun x => { x with
    sending := some ⟨2, index, 0⟩, offer := if online then none else some ⟨c, 0, lc⟩
    fetched := [newRec (some 0x40000) true (some 2) .sending none 0x60000 600] })
  if online then s.modLink 0 (fun l => { l with line := some ⟨c, some lc, 500⟩ }) else s

theorem test_late :
    (let x := { slotIn .sink .flowing with
        lateness := 1, fetched := [{ newRec none false (some 2) .assembling none 0 256 with arrival := 2001, timestamp := 1000 }] }
     (finishRec 2 .delivered x).counters.late = 1 ∧
     (finishRec 2 .delivered { x with lateness := 2 }).counters.late = 0) := by decide +kernel

theorem test_roundRobin_hypotheses :
    (∀ n : SlotIx, (node.slot n).offer = none) ∧ (node.link 0).dQueue = [] ∧
    ((offering 0 false false).slot 63).offer.map (·.port) = some 0 ∧ 64 = (63 : SlotIx).val + 1 ∧
    (((offering 0 false false).link 0).turn.val + 1 + 64) % 65 = 64 := by decide +kernel

theorem test_transmission_hypotheses :
    node.inReset = false ∧ (node.port 0).state = .up ∧ (((portsIn .training).port 0).state = .training ∧ ((portsIn .training).port 0).lock = true) ∧
    ((node.link 0).line.bind (·.src)).isNone = true ∧ (((offering 0 false true).link 0).line.bind (·.src)).isNone = false ∧
    (State.reset.port 0).state = .dark ∧
    (∀ k ∈ [Kind.time, .probe, .echo, .trig], ((queued .tq k (some 5)).link 0).tQueue.map (·.cell.kind) = [k]) ∧
    ((queued .tq .echo (some 5)).link 0).tQueue.map (·.answers) = [some 5] ∧
    ((queued .cq .beacon).link 0).tQueue = [] ∧ ((queued .cq .beacon).link 0).cQueue.map (fun q => kindClass q.cell.kind) = [.cq] ∧
    (nextParticipant node 0).isNone = true ∧ ((nextParticipant (offering 0 false false) 0).map (·.1)) = some 64 ∧
    ((nextParticipant (queued .dq .data) 0).map (·.1)) = some 0 ∧ ((offering 0 false true).link 0).line.isSome = true ∧
    ((offering 0 false true).slot 63).sending = some ⟨2, 0, 0⟩ ∧ ((offering 0 false true).slot 63).openNumber = 2 := by decide +kernel

/-- A DATA cell of block 2 on the line of port 0, its block no longer sent. -/
def strayCell (d : Option Sending) : State := (offering 0 false true).modSlot 63 (fun x => { x with sending := d })

theorem test_relayed_hypotheses :
    ((queued .dq .data).link 0).dQueue.map (fun q => kindClass q.cell.kind) = [.dq] ∧ ((queued .dq .data).link 0).tQueue = [] ∧
    ((strayCell none).slot 63).sending = none ∧ ((strayCell (some ⟨2, 1, 0⟩)).slot 63).sending = some ⟨2, 1, 0⟩ ∧
    ((strayCell none).slot 63).role = .source ∧ ((strayCell none).slot 63).state ≠ .closed := by decide +kernel

theorem test_relayed :
    ((after (.arbiterDecision 0) (queued .dq .data)).link 0).dQueue = [] ∧
    ((after (.arbiterDecision 0) (queued .dq .data)).link 0).line.map (fun o => (o.cell.kind, o.src.isNone)) = some (.data, true) ∧
    ((after (.dataCellSent 0) (strayCell none)).slot 63).sending = none ∧
    (after (.dataCellSent 0) (strayCell (some ⟨2, 1, 0⟩))).link 0 = { (strayCell none).link 0 with line := none } := by
  decide +kernel

theorem test_noDataCell : ((node.link 0).line.bind (·.src)).isNone = true ∧ after (.dataCellSent 0) node = node := by
  decide +kernel

theorem test_transmission :
    ((after (.arbiterDecision 0) (queued .tq .time)).link 0).tQueue = [] ∧
    ((after (.arbiterDecision 0) (queued .tq .time)).link 0).line.map (fun o => beAt o.cell.payload 4 8) = some 1000 ∧
    ((after (.arbiterDecision 0) (queued .tq .echo (some 5))).link 0).line.map (fun o => beAt o.cell.payload 4 8) = some 995 ∧
    ((after (.arbiterDecision 0) (offering 0 false false)).link 0).line.map (·.src.isSome) = some true ∧
    ((after (.dataCellSent 0) (offering 0 false true)).slot 63).sending = some ⟨2, 1, 0⟩ ∧
    ((after (.dataCellSent 0) (offering 2 true true)).slot 63).sending = none ∧ (after (.dataCellSent 0) (offering 2 true true)).now = 500 := by
  decide +kernel

/-- A draining slot 63 with a close deadline. -/
def drainingIn (r : Role) (mode : Option DrainMode) (st : StreamState := .draining) : State :=
  slotted 63 { slotIn r st with drainMode := mode, drain := true, closeDeadline := some 5, drainCause := .peerLeaving }

/-- Slot 63 with its deadlines and gate. -/
def timedSlot (r : Role) (st : StreamState) : State :=
  slotted 63 { slotIn r st with gate := .atTime 1500, selfHalt := true, strandDeadline := some 5 }

theorem test_streamTimers_hypotheses :
    node.inReset = false ∧ ((slotted 63 (slotIn .source .opening)).slot 63).state = .opening ∧
    ((timedSlot .source .armed).slot 63).gate = .atTime 1500 ∧ ((timedSlot .source .armed).slot 63).gateOpen = false ∧
    (∀ st ∈ [StreamState.flowing, .halted, .stranded], ((slotted 63 (slotIn .sink st)).slot 63).state = st) ∧
    ((timedSlot .source .halted).slot 63).selfHalt = true ∧ ((timedSlot .source .stranded).slot 63).strandDeadline = some 5 ∧
    (∀ m ∈ [DrainMode.finish, .peerLeaving, .finishPeerLeaving], ((drainingIn .source (some m)).slot 63).drainMode = some m ∧
      ((drainingIn .source (some m)).slot 63).closeDeadline = some 5) ∧
    ((drainingIn .sink none .halted).slot 63).drain = true ∧ (node.route 7).isSome = true ∧
    cutOff.route ((slotted 63 (slotIn .sink .flowing) cutOff).slot 63).peer = none := by decide +kernel

/-- A sink slot that drains with a block in assembly, HALTED with cause DRAIN. -/
def drainedAgain : State := slotted 63 { slotIn .sink .halted with cause := .drain, drain := true, drainCause := .leaving, expCell := 1 }

theorem test_peerLeaving :
    ((slotPeerLeaving ⟨drainedAgain, []⟩ 63).s.slot 63).drainCause = .peerLeaving ∧
    ((slotPeerLeaving ⟨drainedAgain, []⟩ 63).s.slot 63).closeDeadline = some 1000000000 ∧
    (slotPeerLeaving ⟨drainedAgain, []⟩ 63).posts = [] ∧
    ((sendCredit (slotted 63 (slotIn .sink .flowing) cutOff) 63).slot 63).counters.unsent = 1 ∧
    ((sendHalt (slotted 63 (slotIn .source .halted) cutOff) 63 true).slot 63).counters.unsent = 1 ∧
    ((sendOpen (slotted 63 (slotIn .source .opening) cutOff) 63).slot 63).counters.openSent = 0 := by decide +kernel

theorem test_streamTimers :
    ((after (.openRepeat 63) (slotted 63 (slotIn .source .opening))).slot 63).counters.openSent = 1 ∧
    ((after (.openLimit 63) (slotted 63 (slotIn .source .opening))).slot 63).cause = .noOffer ∧
    ((after (.creditPeriod 63) (slotted 63 (slotIn .sink .flowing))).slot 63).counters.creditSent = 1 ∧
    ((after (.haltRepeat 63) (timedSlot .source .halted)).link 0).cQueue.length = 1 ∧
    ((after (.strandDeadline 63) (timedSlot .source .stranded)).slot 63).cause = .peerLost ∧
    ((after (.closeDeadline 63) (drainingIn .source (some .peerLeaving))).slot 63).cause = .peerLeaving ∧
    ((after (.closeDeadline 63) (drainingIn .source (some .finish))).slot 63).cause = .peerLost ∧
    ((after (.closeDeadline 63) (drainingIn .sink none .halted)).slot 63).cause = .peerLeaving ∧
    (after (.startGate 63) (slotted 63 { slotIn .source .armed with gate := .atTime 1500 })).tb.rackTime = 1500 := by decide +kernel

/-- A slot about to fetch the record at 0x40000. -/
def blockFetching (r : Role) (state buffer length : Nat) : State :=
  placed (slotted 63 { slotIn r .flowing with nextRecord := some 0x40000 }) 0x40000
    (leBytes 8 0x40040 ++ leBytes 8 buffer ++ leBytes 4 length ++ leBytes 1 state)

/-- A paced source with a ready block, or none. -/
def paced (ready : Bool) : State :=
  sendingIn (if ready then .waiting else .sent) (fun x => { x with pace := 10000, startTime := 500, unresolved := if ready then 0 else 1 })

theorem test_blocks_hypotheses :
    (blockFetching .source 1 0x60000 256).inReset = false ∧ (blockFetching .source 1 0x60000 256).memOpen = true ∧
    ((blockFetching .source 1 0x60000 256).slot 63).nextRecord = some 0x40000 ∧ ((blockFetching .source 1 0x60000 256).slot 63).stop = none ∧
    (node.slot 63).state = .closed ∧ leAt (bytesIn (blockFetching .sink 1 0x60001 256).mem 0x40000 48) 8 8 % 64 ≠ 0 ∧
    leAt (bytesIn (blockFetching .sink 1 0x60000 255).mem 0x40000 48) 0x10 4 < 256 ∧
    256 < leAt (bytesIn (blockFetching .source 1 0x60000 257).mem 0x40000 48) 0x10 4 ∧
    firstFault (faulting node 0x4002F 1).mem.readFaults 0x40000 48 = some 0x4002F ∧
    readyBlock (sendingIn .waiting (fun x => { x with unresolved := 15 })) 63 = some 2 ∧
    readyBlock (sendingIn .waiting (fun x => { x with unresolved := 16 })) 63 = none ∧ ((sendingIn .waiting).slot 63).pace = 0 ∧
    ((paced true).slot 63).pace ≠ 0 ∧ readyBlock (advanceToRack (paced true) 500) 63 = some 2 ∧
    readyBlock (advanceToRack (paced false) 500) 63 = none ∧
    (findRec ((sendingIn .sent).slot 63) 2).map (fun r => (r.stage, r.ackSince)) = some (.sent, some 5) := by decide +kernel

/-- A source under FINISH whose fetching has ended. -/
def finishing (f : Slot → Slot) : State :=
  slotted 63 (f { slotIn .source .draining with drainMode := some .finish, fetchEnded := true })

theorem test_readyBlock :
    readyBlock (finishing id) 63 = some 2 ∧ readyBlock (finishing (fun x => { x with endStarted := true })) 63 = none ∧
    readyBlock (finishing (fun x => { x with creditLimit := 2 })) 63 = none ∧
    readyBlock (finishing (fun x => { x with fetchEnded := false })) 63 = none ∧
    indexAfter { slotIn .source .flowing with pace := 10, startTime := 500 } 520 = 3 := by decide +kernel

theorem test_records_hypotheses :
    ((sendingIn .resolved).slot 63).fetched.map (fun r => (r.address, r.outcome)) = [(some 0x40000, none)] ∧
    (newRec (some 0x40000) true (some 2) .resolved (some .delivered) 0x60000 256).outcome = some .delivered ∧
    firstFault node.mem.writeFaults (0x40000 + 0x14) 34 = none ∧
    firstFault (faulting node 0x40015 1).mem.writeFaults (0x40000 + 0x15) 33 = some 0x40015 ∧
    (firstFault (faulting node 0x40014 1).mem.writeFaults (0x40000 + 0x15) 33 = none ∧
      firstFault (faulting node 0x40014 1).mem.writeFaults (0x40000 + 0x14) 1 = some 0x40014) ∧
    ((slotted 63 { slotIn .source .flowing with writeStop := true }).slot 63).writeStop = true ∧ (slotIn .sink .flowing).fetched = [] ∧
    ((slotIn .source .flowing).selfHalt = false ∧ (slotIn .source .offered).state = .offered) ∧
    (findRec ((sendingIn .sending).slot 63) 2).map (·.buffer) = some 0x60000 ∧
    firstFault node.mem.readFaults 0x60000 232 = none ∧ firstFault (faulting node 0x600E7 1).mem.readFaults 0x60000 232 = some 0x600E7 ∧
    (node.route ((sendingIn .waiting).slot 63).peer).isSome = true := by decide +kernel

theorem test_blockFetch :
    ((after (.blockRecordFetch 63) (blockFetching .source 1 0x60000 256)).slot 63).fetched.map (·.stage) = [.waiting] ∧
    ((after (.blockRecordFetch 63) (blockFetching .sink 1 0x60000 256)).slot 63).creditLimit = 3 ∧
    ((after (.blockRecordFetch 63) (blockFetching .sink 1 0x60000 256)).slot 63).counters.creditSent = 1 ∧
    memByte (after (.blockRecordFetch 63) (blockFetching .sink 1 0x60001 256)).mem 0x40015 = blockOutcomeCode .rejected ∧
    ((after (.blockRecordFetch 63) (blockFetching .source 2 0x60000 256)).slot 63).stop = some .notPosted ∧
    ((after (.blockRecordFetch 63) (faulting (blockFetching .source 1 0x60000 256) 0x4002F 1)).slot 63).selfHalt = true := by
  decide +kernel

theorem test_blockStart :
    ((after (.blockStart 63) (sendingIn .waiting)).slot 63).offer.isSome = true ∧
    ((after (.pacePoint 63) (paced true)).slot 63).nextPace = 1 ∧
    ((after (.pacePoint 63) (paced false)).slot 63).counters.missedPace = 1 ∧
    memByte (after (.acknowledgementTimer 63 2) (sendingIn .sent)).mem 0x40015 = blockOutcomeCode .unconfirmed := by decide +kernel

end Sys2Proof.Tests
end

/-! SUPPORT. The merge of notices (R177), the register window (R167) and the interrupt line (R179): the value of a
saturating sum, the bits of a bitmap, the fields of LINE, what each offset reads; and the two statements that rest on
them. -/

namespace Sys2Proof.ExchangeArea

open Sys2Proof Sys2Proof.Machine Sys2Proof.Statements

/-! ## Merging (R177) -/

theorem toNat_satAdd (a b : Count) : (satAdd a b).toNat = min (a.toNat + b.toNat) (2 ^ 32 - 1) := by
  unfold satAdd
  split
  case isTrue large =>
    rw [BitVec.toNat_allOnes]
    omega
  case isFalse fits =>
    rw [BitVec.toNat_add_of_lt (by omega)]
    omega

/-- Settles O24. The saturating sum is `toNat_satAdd`; each row of the table of R177 is the equation of `mergeNotice`
for two notices of that lane. -/
theorem noticeMerge : Obligations.NoticeMerge := by
  unfold Obligations.NoticeMerge
  refine ⟨toNat_satAdd, ?orders, ?port, ?roster, ?time, ?triggers, ?streams, ?notes, ?admission, ?errors⟩
  all_goals
    intros
    rfl

/-! ## Bitmaps -/

/-- The bits of a bitmap built on top of `b`: those of `b`, and one for each listed element that passes the test. -/
theorem getLsbD_foldl_bits {n w : Nat} (f : Fin n → Bool) (j : Nat) (hj : j < w) (ixs : List (Fin n)) (b : BitVec w) :
    (ixs.foldl (fun b i => if f i then b ||| (1#w <<< i.val) else b) b).getLsbD j = true ↔
      b.getLsbD j = true ∨ ∃ i ∈ ixs, i.val = j ∧ f i = true := by
  induction ixs generalizing b with
  | nil => simp only [List.foldl_nil, List.not_mem_nil, false_and, exists_false, or_false]
  | cons i ixs ih =>
    have bit_i : (1#w <<< i.val).getLsbD j = true ↔ i.val = j := by
      rw [← BitVec.twoPow_eq, BitVec.getLsbD_twoPow]
      simp only [Bool.and_eq_true, decide_eq_true_eq]
      omega
    rw [List.foldl_cons, ih]
    simp only [List.mem_cons, or_and_right, exists_or, exists_eq_left]
    by_cases hf : f i = true
    · simp only [hf, if_true, BitVec.getLsbD_or, Bool.or_eq_true, bit_i, and_true, or_assoc]
    · simp only [hf, if_false, and_false, false_or, Bool.false_eq_true]

theorem getLsbD_bitmap {n w : Nat} (ixs : List (Fin n)) (f : Fin n → Bool) (j : Nat) (hj : j < w) :
    (bitmap w ixs f).getLsbD j = true ↔ ∃ i ∈ ixs, i.val = j ∧ f i = true := by
  unfold bitmap
  rw [getLsbD_foldl_bits f j hj]
  simp only [BitVec.ofNat_eq_ofNat, BitVec.getLsbD_zero, Bool.false_eq_true, false_or]

theorem getLsbD_fullLanes (e : Exchange) (k : NoticeIx) : (fullLanes e).getLsbD k.val = (e.lanes.get k).full := by
  rw [Bool.eq_iff_iff, fullLanes, getLsbD_bitmap _ _ _ k.isLt]
  constructor
  · rintro ⟨i, -, same, full⟩
    exact Fin.ext same ▸ full
  · intro full
    exact ⟨k, List.mem_finRange k, rfl, full⟩

/-! ## The interrupt line (R179) -/

theorem ne_zero_iff_exists_bit {w : Nat} (x : BitVec w) : x ≠ 0 ↔ ∃ k : Fin w, x.getLsbD k.val = true := by
  constructor
  · intro h
    refine Classical.byContradiction fun allClear => h (BitVec.eq_of_getLsbD_eq fun i hi => ?_)
    rw [BitVec.ofNat_eq_ofNat, BitVec.getLsbD_zero]
    exact Bool.eq_false_iff.mpr fun hset => allClear ⟨⟨i, hi⟩, hset⟩
  · rintro ⟨k, hset⟩ rfl
    rw [BitVec.ofNat_eq_ofNat, BitVec.getLsbD_zero] at hset
    exact Bool.false_ne_true hset

theorem lineAsserted_iff (e : Exchange) : lineAsserted e = true ↔
    (e.state = .broken ∨ ∃ k : NoticeIx, (e.lanes.get k).full = true ∧ e.mask.getLsbD k.val = true) := by
  have masked : (fullLanes e &&& e.mask) ≠ 0 ↔
      ∃ k : NoticeIx, (e.lanes.get k).full = true ∧ e.mask.getLsbD k.val = true := by
    simp only [ne_zero_iff_exists_bit, BitVec.getLsbD_and, getLsbD_fullLanes, Bool.and_eq_true]
  rw [← masked, lineAsserted, Bool.or_eq_true, beq_iff_eq, bne_iff_ne]

/-! ## LINE as read (12, Registers) -/

theorem flagCode_lt (b : Bool) : flagCode b < 2 := by cases b <;> decide

theorem flagCode_eq_one_iff (b : Bool) : flagCode b = 1 ↔ b = true := by cases b <;> decide

theorem exStateCode_lt (x : ExState) : exStateCode x < 4 := by cases x <;> decide

theorem stallCauseCode_lt (c : Option StallCause) : stallCauseCode c < 4 := by
  rcases c with _ | c
  · decide
  · cases c <;> decide

/-- The fields of LINE do not overlap and fit in 32 bits. -/
theorem toNat_lineRegister (e : Exchange) :
    (lineRegister e).toNat = (fullLanes e).toNat + 2 ^ 16 * (flagCode (lineAsserted e) + 2 * (exStateCode e.state +
      4 * (stallCauseCode (shownStall e) + 4 * flagCode e.attachFault))) := by
  have lanes := (fullLanes e).isLt
  have asserted := flagCode_lt (lineAsserted e)
  have state := exStateCode_lt e.state
  have cause := stallCauseCode_lt (shownStall e)
  have fault := flagCode_lt e.attachFault
  rw [lineRegister, BitVec.toNat_ofNat]
  omega

theorem lineRegister_lane (e : Exchange) (k : NoticeIx) :
    (lineRegister e).getLsbD k.val = (e.lanes.get k).full := by
  have below : (fullLanes e).toNat < 2 ^ 16 := Nat.lt_trans (fullLanes e).isLt (by decide)
  rw [← BitVec.testBit_toNat, toNat_lineRegister, Nat.add_comm, Nat.testBit_two_pow_mul_add _ below,
    if_pos (by omega), BitVec.testBit_toNat, getLsbD_fullLanes]

/-- A bit that holds the code of a flag is the flag. -/
theorem getLsbD_of_flagCode {w i : Nat} {x : BitVec w} {b : Bool} (h : x.toNat / 2 ^ i % 2 = flagCode b) :
    x.getLsbD i = b := by
  rw [← BitVec.testBit_toNat, Nat.testBit_eq_decide_div_mod_eq, h, Bool.eq_iff_iff, decide_eq_true_eq,
    flagCode_eq_one_iff]

/-- The fields of LINE above the lanes, each read back by its place and its width. -/
theorem lineRegister_fields (e : Exchange) :
    (lineRegister e).toNat / 2 ^ 16 % 2 = flagCode (lineAsserted e) ∧
    (lineRegister e).toNat / 2 ^ 17 % 4 = exStateCode e.state ∧
    (lineRegister e).toNat / 2 ^ 19 % 4 = stallCauseCode (shownStall e) ∧
    (lineRegister e).toNat / 2 ^ 21 % 2 = flagCode e.attachFault := by
  have lanes := (fullLanes e).isLt
  have asserted := flagCode_lt (lineAsserted e)
  have state := exStateCode_lt e.state
  have cause := stallCauseCode_lt (shownStall e)
  have fault := flagCode_lt e.attachFault
  rw [toNat_lineRegister]
  omega

theorem lineRegister_asserted (e : Exchange) : (lineRegister e).getLsbD 16 = lineAsserted e := by
  obtain ⟨asserted, -, -, -⟩ := lineRegister_fields e
  exact getLsbD_of_flagCode asserted

theorem lineRegister_state (e : Exchange) : ((lineRegister e).extractLsb' 17 2).toNat = exStateCode e.state := by
  obtain ⟨-, state, -, -⟩ := lineRegister_fields e
  rw [BitVec.extractLsb'_toNat, Nat.shiftRight_eq_div_pow]
  exact state

theorem lineRegister_stallCause (e : Exchange) :
    ((lineRegister e).extractLsb' 19 2).toNat =
      if e.state = .stalled then stallCauseCode e.stallCause else stallCauseCode none := by
  obtain ⟨-, -, cause, -⟩ := lineRegister_fields e
  rw [BitVec.extractLsb'_toNat, Nat.shiftRight_eq_div_pow, ← apply_ite stallCauseCode]
  exact cause

theorem lineRegister_attachFault (e : Exchange) : (lineRegister e).getLsbD 21 = e.attachFault := by
  obtain ⟨-, -, -, fault⟩ := lineRegister_fields e
  exact getLsbD_of_flagCode fault

/-! ## Reads and writes of the register window (R167) -/

theorem readRegister_ident (s : State) :
    readRegister s 0x00 = BitVec.ofNat 32 (0x47D3 + 2 ^ 16 * 0x44 + 2 ^ 24 * Config.revision.toNat) := rfl

section reads

variable {s : State} (running : s.inReset = false)

include running

theorem shownExchange_running : shownExchange s = s.ex := by
  simp only [shownExchange, running, Bool.false_eq_true, if_false]

theorem readRegister_baseLo : readRegister s 0x08 = s.ex.baseLo := by
  rw [← shownExchange_running running]
  rfl

theorem readRegister_baseHi : readRegister s 0x0C = s.ex.baseHi := by
  rw [← shownExchange_running running]
  rfl

theorem readRegister_line : readRegister s 0x14 = lineRegister s.ex := by
  rw [← shownExchange_running running]
  rfl

end reads

theorem readRegister_unnamed (s : State) (offset : BitVec 8) (ident : offset ≠ 0x00) (lo : offset ≠ 0x08)
    (hi : offset ≠ 0x0C) (line : offset ≠ 0x14) : readRegister s offset = 0 := by
  simp only [readRegister, if_neg ident, if_neg lo, if_neg hi, if_neg line]

/-- A command that only changes the state is one act that posts nothing. -/
theorem runState_running {f : State → State} {s : State} (running : s.inReset = false) :
    runState f s = .next (finish ⟨f s, []⟩) := by
  simp only [runState, run, running, Bool.false_eq_true, if_false, Act.on]

theorem acts_line {s : State} (v : BitVec 32) (running : s.inReset = false) :
    Acts (.line v) s { s with ex := { s.ex with mask := v.extractLsb' 0 12 } } [] := by
  have arm : exec (.line v) s = runState (writeLine v) s := rfl
  have low_bits : v.setWidth 12 = v.extractLsb' 0 12 := BitVec.setWidth_eq_extractLsb' (by decide)
  rw [Acts, Ends, arm, runState_running running, ← low_bits]
  rfl

theorem acts_baseHi {s : State} (v : BitVec 32) (running : s.inReset = false) :
    Acts (.baseHi v) s { s with ex := { s.ex with baseHi := v } } [] := by
  have arm : exec (.baseHi v) s = runState (writeBaseHi v) s := rfl
  rw [Acts, Ends, arm, runState_running running]
  rfl

theorem exec_ignoredRegisterWrite (s : State) (offset : BitVec 8) (v : BitVec 32) :
    exec (.ignoredRegisterWrite offset v) s = .next s := rfl

/-- Settles O25: the reads offset by offset, the fields of LINE, the codes, the three writes, the line rule of R179. -/
theorem registersAndInterruptLine : Obligations.RegistersAndInterruptLine := by
  unfold Obligations.RegistersAndInterruptLine
  refine ⟨⟨?reads, ?lineFields, rfl, rfl, ?line, ?baseHi, ?ignored⟩, lineAsserted_iff⟩
  case reads =>
    intro s running
    exact ⟨readRegister_ident s, readRegister_baseLo running, readRegister_baseHi running, readRegister_line running,
      readRegister_unnamed s⟩
  case lineFields =>
    intro e
    exact ⟨lineRegister_lane e, lineRegister_asserted e, lineRegister_state e, lineRegister_stallCause e,
      lineRegister_attachFault e⟩
  case line => exact fun s v running => acts_line v running
  case baseHi => exact fun s v running => acts_baseHi v running
  case ignored => exact fun s offset v _ => exec_ignoredRegisterWrite s offset v

end Sys2Proof.ExchangeArea

/-! SUPPORT. The machine as a whole: one step, the clock and rack time (R85), the reset commands (R186) and the
invariant; and the statements that rest on them. -/

namespace Sys2Proof.WholeMachine

open Sys2Proof Sys2Proof.Machine Sys2Proof.Statements

/-! ## One step -/

theorem step_cons {s : State} {c : Instr} {q : List Instr} (h : s.pending = c :: q) :
    step s = exec c { s with pending := q } := by
  rw [step, h]

theorem step_nil {s : State} (h : s.pending = []) : step s = .next (tick s) := by
  rw [step, h]

/-- Settles O1: the equation of `step` for a queue that is not empty. -/
theorem stepRunsFrontCommand : Obligations.StepRunsFrontCommand := by
  unfold Obligations.StepRunsFrontCommand
  exact fun _ _ _ h => step_cons h

/-! ## The invariant -/

theorem linkOk_reset : LinkOk Link.reset := ⟨Nat.zero_le _, Nat.zero_le _, Nat.zero_le _⟩

theorem link_reset (p : PortIx) : State.reset.link p = Link.reset := by
  simp only [State.link, State.reset, Vector.get, Vector.replicate]
  exact List.getElem_replicate ..

/-- Settles O3: the memory and every bounded store are empty. -/
theorem invariantAtReset : Obligations.InvariantAtReset where
  memory := rfl
  capacity :=
    { queues := fun p => link_reset p ▸ linkOk_reset
      orders := Nat.zero_le _
      schedule := Nat.zero_le _
      notes := Nat.zero_le _ }

theorem inv_advance {s : State} (d : Nat) (h : Inv s) : Inv (advance s d) :=
  (keeps_advance (Keeps.refl s) d).inv h

/-- The invariant says nothing of the waiting commands. -/
theorem inv_withPending {s : State} (q : List Instr) (h : Inv s) : Inv { s with pending := q } where
  memory := h.memory
  capacity :=
    { queues := h.capacity.queues
      orders := h.capacity.orders
      schedule := h.capacity.schedule
      notes := h.capacity.notes }

theorem inv_tick {s : State} (h : Inv s) : Inv (tick s) := by
  unfold tick
  split
  case isTrue => exact h
  case isFalse => exact inv_advance 1 h

/-- Settles O4, by what the step takes from the queue: nothing (time passes) or a command (`inv_exec`). -/
theorem invariantKeptByEveryStep : Obligations.InvariantKeptByEveryStep := by
  unfold Obligations.InvariantKeptByEveryStep
  intro s t inv stepped
  cases hq : s.pending with
  | nil =>
    rw [step_nil hq] at stepped
    cases stepped
    exact inv_tick inv
  | cons c q =>
    rw [step_cons hq] at stepped
    exact inv_exec stepped (inv_withPending q inv)

/-! ## The clock and rack time (R85) -/

theorem advance_zero {s : State} (h : s.tb.slewResidue < 100000) : advance s 0 = s := by
  have whole : (s.tb.slewResidue + 0) / slewDivisor = 0 := Nat.div_eq_of_lt h
  have residue : (s.tb.slewResidue + 0) % slewDivisor = s.tb.slewResidue := Nat.mod_eq_of_lt h
  have part : slewPart s.tb.correction 0 = 0 := by
    unfold slewPart
    split <;> omega
  have zero_time : s.tb.rackTime + BitVec.ofNat 64 0 + BitVec.ofInt 64 0 = s.tb.rackTime := by simp
  unfold advance
  dsimp only
  rw [whole, residue, part, zero_time, Int.sub_zero, Nat.add_zero]

/-- The ns that rack time advances by while `d` ns pass, for a correction and a residue. -/
def rackGain (correction : Int) (residue d : Nat) : Int := d + slewPart correction ((residue + d) / 100000)

/-- Rack time does not go back, and gains at most twice the time that passes. -/
theorem rackGain_bounds {c : Int} {r d : Nat} (h : r < 100000) : 0 ≤ rackGain c r d ∧ rackGain c r d ≤ 2 * d := by
  unfold rackGain slewPart
  split <;> omega

theorem rackTime_advance {s : State} {d : Nat} (h : s.tb.slewResidue < 100000)
    (fits : s.tb.rackTime.toNat + rackGain s.tb.correction s.tb.slewResidue d < 2 ^ 64) :
    ((advance s d).tb.rackTime.toNat : Int) = s.tb.rackTime.toNat + rackGain s.tb.correction s.tb.slewResidue d := by
  have pos := (rackGain_bounds (c := s.tb.correction) (d := d) h).1
  have sum : (advance s d).tb.rackTime = BitVec.ofInt 64 (s.tb.rackTime.toNat + rackGain s.tb.correction s.tb.slewResidue d) := by
    have time : s.tb.rackTime = BitVec.ofInt 64 s.tb.rackTime.toNat := by simp
    have gain : BitVec.ofNat 64 d = BitVec.ofInt 64 d := by simp
    rw [BitVec.ofInt_add, ← time]
    unfold rackGain
    rw [BitVec.ofInt_add, ← gain, ← BitVec.add_assoc]
    rfl
  rw [sum, BitVec.toNat_ofInt, Int.toNat_of_nonneg (Int.emod_nonneg _ (by decide)), Int.emod_eq_of_lt (by omega)]
  exact_mod_cast fits

/-- The delay is the least: rack time has gained `n` after it, and less than `n` any time before. -/
theorem rackDelay_least {c : Int} {r n d : Nat} (h : r < 100000) :
    (n : Int) ≤ rackGain c r d ↔ rackDelay c r n ≤ d := by
  unfold rackGain slewPart rackDelay
  have divisor : slewDivisor = 100000 := rfl
  rw [divisor]
  dsimp only
  split <;> split
  case isTrue.isTrue => omega
  case isFalse.isTrue => omega
  all_goals split <;> omega

/-- Each ns that passes gains rack time at most 2 ns. -/
theorem rackGain_succ_le {c : Int} {r d : Nat} : rackGain c r (d + 1) ≤ rackGain c r d + 2 := by
  unfold rackGain slewPart
  split <;> omega

/-- So at the end of the delay the moment is passed by 1 ns at most. -/
theorem rackGain_rackDelay_le {c : Int} {r n : Nat} (h : r < 100000) : rackGain c r (rackDelay c r n) ≤ n + 1 := by
  cases hd : rackDelay c r n with
  | zero =>
    have := (rackGain_bounds (c := c) (d := 0) h).2
    omega
  | succ d =>
    have before : ¬ (n : Int) ≤ rackGain c r d := by
      rw [rackDelay_least h]
      omega
    have := rackGain_succ_le (c := c) (r := r) (d := d)
    omega

theorem advanceToRack_least {s : State} {t : Time} (h : s.tb.slewResidue < 100000) (fits : t.toNat + 1 < 2 ^ 64) :
    t.toNat ≤ (advanceToRack s t).tb.rackTime.toNat ∧
      advanceToRack s t = advance s ((advanceToRack s t).now - s.now) ∧
      ∀ d, s.now + d < (advanceToRack s t).now → (advance s d).tb.rackTime.toNat < t.toNat := by
  by_cases there : reached s t = true
  · have still : advanceToRack s t = s := if_pos there
    rw [still]
    refine ⟨of_decide_eq_true there, ?_, fun d hd => ?_⟩
    · rw [Nat.sub_self, advance_zero h]
    · omega
  · have ahead : s.tb.rackTime.toNat < t.toNat := by
      have := of_decide_eq_false (Bool.eq_false_iff.2 there)
      omega
    generalize missing_eq : t.toNat - s.tb.rackTime.toNat = missing
    generalize delay_eq : rackDelay s.tb.correction s.tb.slewResidue missing = delay
    have moved : advanceToRack s t = advance s delay := by
      rw [← delay_eq, ← missing_eq]
      exact if_neg there
    have least := fun d => rackDelay_least (c := s.tb.correction) (n := missing) (d := d) h
    have overshoot := rackGain_rackDelay_le (c := s.tb.correction) (n := missing) h
    rw [delay_eq] at overshoot least
    have elapsed : (advance s delay).now = s.now + delay := rfl
    have atDelay := rackTime_advance (d := delay) h (by omega)
    have gained := (least delay).2 (Nat.le_refl _)
    rw [moved, elapsed]
    refine ⟨by omega, by rw [Nat.add_sub_cancel_left], fun d hd => ?_⟩
    have short : ¬ (missing : Int) ≤ rackGain s.tb.correction s.tb.slewResidue d := by
      rw [least d]
      omega
    have atMoment := rackTime_advance (d := d) h (by omega)
    omega

/-! ## The reset commands (R186) -/

theorem keeps_pending_deviceReset (s : State) : (finish (deviceReset s)).pending = s.pending :=
  (keeps_deviceReset s).pending

theorem exec_pending {c : Instr} {s t : State} (h : exec c s = .next t) : t.pending = s.pending := by
  by_cases isReset : c = .deviceReset
  · subst isReset
    cases h
    exact keeps_pending_deviceReset s
  · by_cases isAsserted : c = .resetInputAsserted
    · subst isAsserted
      cases h
      rfl
    · exact (keeps_exec h isReset isAsserted).pending

/-- Settles O2: the passing of time by the equation of `advance`, the moments of rack time by `advanceToRack_least`. -/
theorem idleStepAndAnswers : Obligations.IdleStepAndAnswers := by
  unfold Obligations.IdleStepAndAnswers
  refine ⟨fun s idle => ?tick, fun _ _ => rfl, fun _ _ => rfl, fun _ => advance_zero, fun s t => advanceToRack_least,
    fun c s => ?answers⟩
  case tick =>
    rw [step_nil idle]
    exact ⟨fun asserted => by rw [tick, if_pos asserted], fun running => by rw [tick, running]; rfl⟩
  case answers =>
    obtain ⟨t, answered⟩ := exec_next c s
    exact ⟨t, answered, exec_pending answered⟩

theorem exec_inReset {s : State} (h : s.inReset = true) {c : Instr} (notReset : c ≠ .deviceReset) :
    exec c s = .next s := by
  by_cases isAsserted : c = .resetInputAsserted
  · subst isAsserted
    have : { s with inReset := true } = s := by rw [← h]
    exact congrArg _ this
  · cases c
    case deviceReset => exact absurd rfl notReset
    case resetInputAsserted => exact absurd rfl isAsserted
    case ignoredRegisterWrite => rfl
    all_goals exact if_pos h

theorem readRegister_inReset {s : State} (h : s.inReset = true) (offset : BitVec 8) :
    readRegister s offset = readRegister State.reset offset := by
  have shown : shownExchange s = shownExchange State.reset := if_pos h
  unfold readRegister
  rw [shown]

/-- Settles O6: every command but the two reset commands is an act, which an asserted reset input stops. -/
theorem resetInputHoldsPart : Obligations.ResetInputHoldsPart := by
  unfold Obligations.ResetInputHoldsPart
  refine ⟨fun _ => rfl, fun c s h notReset => exec_inReset h notReset, fun s h => ⟨readRegister_inReset h, ?_, ?_⟩⟩
  · exact fun p => if_pos h
  · intro k
    rw [outputHigh, h]
    rfl

/-- Settles O8: both sides are the same values. -/
theorem resetValues : Obligations.ResetValues := by
  unfold Obligations.ResetValues
  exact ⟨rfl, by decide⟩

/-- Settles O21: each constant is the value given. -/
theorem durations : Obligations.Durations := by
  unfold Obligations.Durations
  refine ⟨rfl, rfl, rfl, rfl, rfl, rfl, rfl, rfl, rfl, rfl, rfl, rfl, rfl, rfl, rfl, rfl, rfl, rfl, rfl, rfl, rfl, rfl, rfl,
    rfl, rfl, rfl, rfl, rfl, rfl, rfl, rfl, rfl, rfl, rfl, rfl, ?frames, ?ports, rfl, rfl⟩
  case frames => decide
  case ports => decide

end Sys2Proof.WholeMachine

/-! SUPPORT. The device reset (R186): when the stored copy is valid, the master a part just reset chooses (R89), and the
state it is in. -/

namespace Sys2Proof.DeviceReset

open Sys2Proof Sys2Proof.Machine Sys2Proof.Statements

/-! ## The stored copy -/

theorem settingsInRange_iff (w : Settings) : settingsInRange w = true ↔
    1 ≤ w.threshold ∧ w.threshold ≤ 127 ∧ 1 ≤ w.window ∧ w.window ≤ 60 ∧ 1 ≤ w.holdover ∧ w.holdover ≤ 600 ∧
      1 ≤ w.holdLimit ∧ w.holdLimit ≤ 1000 ∧
      ∀ k, 1 ≤ (w.lanes.get k).lead ∧ (w.lanes.get k).lead ≤ 65535 ∧ 1 ≤ (w.lanes.get k).width ∧
        (w.lanes.get k).width ≤ 1000 := by
  simp only [settingsInRange, laneInRange, allLanes, Bool.and_eq_true, decide_eq_true_eq, List.all_eq_true,
    List.mem_finRange, true_implies, and_assoc]

theorem storedCopyValid_iff (x : SettingsStore) : storedCopyValid x = true ↔
    x.storedIntact = true ∧ x.storing = none ∧ settingsInRange x.stored = true := by
  simp only [storedCopyValid, Bool.and_eq_true, Option.isNone_iff_eq_none, and_assoc]

/-! ## The units over the settings just loaded -/

variable (s : State)

theorem resetUnits_route (f : FrameNo) : (resetUnits s).route f = none := by
  simp only [State.route, resetUnits, State.reset, Reach.reset, Vector.get, Vector.replicate]
  exact List.getElem_replicate ..

theorem resetUnits_slot (n : SlotIx) : (resetUnits s).slot n = Slot.reset := by
  simp only [State.slot, resetUnits, State.reset, StreamEngine.reset, Vector.get, Vector.replicate]
  exact List.getElem_replicate ..

theorem resetUnits_isMember : isMember (resetUnits s) = false := by
  unfold isMember resetUnits resetRoster
  dsimp only
  split <;> rfl

theorem resetUnits_ownTimeRank :
    ownTimeRank (resetUnits s) = (resetStore s.store).working.timeRank.val := by
  unfold ownTimeRank resetUnits resetRoster
  dsimp only
  split <;> rfl

theorem resetUnits_standing : (resetUnits s).roster.standing =
    if (resetUnits s).own = 0 then .unnumbered else .alone := by
  show (resetRoster (resetUnits s).own).standing = _
  unfold resetRoster
  split <;> rfl

/-- No frame is REACHABLE, so none advertises as master. -/
theorem resetUnits_advertisesMaster (f : FrameNo) : advertisesMaster (resetUnits s) f = false := by
  have unknown : contentsOf (resetUnits s) f = none := by rw [contentsOf, resetUnits_route]; rfl
  rw [advertisesMaster, timeFit, unknown]
  rfl

/-- A part just reset can be master where it is numbered and has a time rank. -/
theorem resetUnits_selfMaster : selfMaster (resetUnits s) = true ↔
    (resetUnits s).own ≠ 0 ∧ (resetStore s.store).working.timeRank ≠ 0 := by
  rw [selfMaster, resetUnits_ownTimeRank, resetUnits_isMember, resetUnits_standing]
  by_cases unnumbered : (resetUnits s).own = 0 <;> simp [unnumbered]

theorem resetUnits_masterCandidates : masterCandidates (resetUnits s) =
    if selfMaster (resetUnits s) then [(resetUnits s).own] else [] := by
  have candidate (f : FrameNo) :
      (if f = (resetUnits s).own then selfMaster (resetUnits s)
        else if isMember (resetUnits s) then copyMember (resetUnits s) f && timeFit (resetUnits s) f
        else advertisesMaster (resetUnits s) f && namedMaster (resetUnits s) true f) =
      (selfMaster (resetUnits s) && decide (f = (resetUnits s).own)) := by
    rw [resetUnits_isMember, resetUnits_advertisesMaster]
    by_cases own : f = (resetUnits s).own <;> simp [own]
  unfold masterCandidates
  simp only [candidate]
  cases possible : selfMaster (resetUnits s) with
  | false => simp
  | true =>
    have numbered := ((resetUnits_selfMaster s).1 possible).1
    generalize (resetUnits s).own = own at numbered
    simp only [Bool.true_and, if_true]
    revert own
    decide

theorem resetUnits_chosenMaster : chosenMaster (resetUnits s) =
    if selfMaster (resetUnits s) then (resetUnits s).own else 0 := by
  rw [chosenMaster, resetUnits_masterCandidates]
  split <;> rfl

/-- The timebase unit after a device reset: MASTER of its own time where the part can be master (R89). -/
def masterAtOnce : State := { resetUnits s with
  tb := if selfMaster (resetUnits s) then
      { Timebase.reset with state := .master, master := (resetUnits s).own, distance := some 0 }
    else Timebase.reset }

theorem retestMaster_resetUnits : retestMaster (resetUnits s) = masterAtOnce s := by
  have noMaster : (resetUnits s).tb.master = 0 := rfl
  unfold retestMaster setMaster masterAtOnce
  rw [if_pos (.inl noMaster), resetUnits_chosenMaster]
  cases possible : selfMaster (resetUnits s) with
  | false => simp [noMaster]; rfl
  | true =>
    have numbered := ((resetUnits_selfMaster s).1 possible).1
    have free : (resetUnits s).tb.state = .free := rfl
    simp [numbered, free]
    rfl

/-! ## The act -/

/-- A CLOSED slot takes no notice of a change of the timebase state. -/
theorem streamTimeChanged_closed {a : Act} (closed : ∀ n, (a.s.slot n).state = .closed) : streamTimeChanged a = a := by
  unfold streamTimeChanged Act.each
  induction allSlots with
  | nil => rfl
  | cons n ns ih =>
    have still : settle a n .timebase = a := by
      rw [settle, closed n]
      rfl
    rw [List.foldl_cons, still, ih]

theorem timeRetest_resetUnits : (timeRetest ⟨resetUnits s, []⟩).s = masterAtOnce s := by
  have closed (n : SlotIx) : ((masterAtOnce s).slot n).state = .closed := by
    show ((resetUnits s).slot n).state = _
    rw [resetUnits_slot]
    rfl
  have still : streamTimeChanged ⟨masterAtOnce s, []⟩ = ⟨masterAtOnce s, []⟩ := streamTimeChanged_closed closed
  unfold timeRetest tbPlain tbAct Act.on
  simp only [retestMaster_resetUnits, still, ite_self]
  split <;> rfl

/-- The exchange is DETACHED, so that nothing posted is delivered. -/
theorem finish_deviceReset : finish (deviceReset s) = masterAtOnce s := by
  have reached := timeRetest_resetUnits s
  have noLeave : (masterAtOnce s).roster.leave = none := by
    show (resetRoster _).leave = none
    unfold resetRoster
    split <;> rfl
  rw [← reached] at noLeave ⊢
  have detached : (timeRetest ⟨resetUnits s, []⟩).s.memOpen = false := by rw [reached]; rfl
  exact finish_closed _ noLeave detached

/-- Settles O7: the reset units, with the choice of master made. -/
theorem deviceReset : Obligations.DeviceReset := by
  unfold Obligations.DeviceReset
  intro s x inRange valid w
  have valid_iff : storedCopyValid x = true ↔ valid := by
    rw [storedCopyValid_iff, settingsInRange_iff]
  have judged : storedCopyValid x = decide valid := by rw [Bool.eq_iff_iff, valid_iff, decide_eq_true_iff]
  have loaded : (resetStore x).working = w := by
    show (if storedCopyValid x = true then _ else _) = _
    simp only [valid_iff]
    rfl
  have store_eq : resetStore x =
      { identity := x.identity, incarnation := x.incarnation + 1, working := w, stored := x.stored
        storedIntact := decide valid, origin := if valid then .stored else .defaults, modified := false
        storedValid := decide valid, storing := none } := by
    rw [← loaded, ← judged]
    simp only [← valid_iff]
    rfl
  have own_eq : (resetUnits s).own = w.frame := congrArg Settings.frame loaded
  have master_eq : selfMaster (resetUnits s) = true ↔ w.frame ≠ 0 ∧ w.timeRank ≠ 0 := by
    rw [resetUnits_selfMaster, own_eq, loaded]
  show Host.Outcome.next (finish (Machine.deviceReset s)) = _
  rw [finish_deviceReset, masterAtOnce, own_eq]
  simp only [master_eq]
  congr 1
  unfold resetUnits
  dsimp only
  rw [loaded, store_eq]
  congr 1

end Sys2Proof.DeviceReset

/-! SUPPORT. Cells as bytes: every field of a cell is read back from its own bytes on the line, and the check (R3) bit
by bit. -/

namespace Sys2Proof.CellBytes

open Sys2Proof Sys2Proof.Machine Sys2Proof.Statements

/-! ## Fields at their places -/

/-- The field written at an offset is read back. -/
theorem beAt_mid {x z : List Byte} {off n v : Nat} (before : x.length = off) (fits : v < 256 ^ n) :
    beAt (x ++ (beBytes n v ++ z)) off n = v := by
  rw [beAt, bytesAt_mid _ _ _ _ _ before (length_beBytes n v), beNat_beBytes n v fits]

theorem beBytes_one (v : Nat) : beBytes 1 v = [BitVec.ofNat 8 v] := rfl

theorem beBytes_one_toNat (b : Byte) : beBytes 1 b.toNat = [b] := by rw [beBytes_one, BitVec.ofNat_toNat]; rfl

/-- The bytes before the check: the header with its fields as numbers, and the payload. -/
theorem headerBytes_eq (c : Cell) : headerBytes c =
    beBytes 1 (kindCode c.kind) ++ beBytes 1 c.origin.val ++ beBytes 1 c.dest.toNat ++ beBytes 1 c.hops.val ++
      beBytes 2 c.payload.length ++ beBytes 2 c.incarnation.toNat ++ beBytes 2 c.floodSeq.toNat ++ zeros 2 ++
      beBytes 4 c.word.toNat := by
  rw [beBytes_one_toNat]
  rfl

variable (c : Cell)

theorem hopsField_lineBytes : beAt (lineBytes c) 3 1 = c.hops.val := by
  have := c.hops.isLt
  rw [lineBytes, headerBytes_eq]
  simp only [List.append_assoc]
  rw [← List.append_assoc, ← List.append_assoc]
  exact beAt_mid (by simp) (by omega)

theorem incarnationField_lineBytes : beAt (lineBytes c) 6 2 = c.incarnation.toNat := by
  rw [lineBytes, headerBytes]
  simp only [List.append_assoc]
  rw [← List.append_assoc]
  exact beAt_mid (by simp) c.incarnation.isLt

theorem floodSeqField_lineBytes : beAt (lineBytes c) 8 2 = c.floodSeq.toNat := by
  rw [lineBytes, headerBytes]
  simp only [List.append_assoc]
  rw [← List.append_assoc, ← List.append_assoc]
  exact beAt_mid (by simp) c.floodSeq.isLt

theorem wordField_lineBytes : beAt (lineBytes c) 12 4 = c.word.toNat := by
  rw [lineBytes, headerBytes]
  simp only [List.append_assoc]
  rw [← List.append_assoc, ← List.append_assoc, ← List.append_assoc, ← List.append_assoc]
  exact beAt_mid (by simp) c.word.isLt

theorem payload_lineBytes (fits : c.payload.length ≤ 256) :
    bytesAt (lineBytes c) 16 (lengthField (lineBytes c)) = c.payload := by
  rw [lengthField_lineBytes c fits, lineBytes, List.append_assoc]
  exact bytesAt_mid _ _ _ _ _ (length_headerBytes c) rfl

/-- Every field of a cell is read back from its bytes. -/
theorem readCell_lineBytes (fits : c.payload.length ≤ 256) : readCell (lineBytes c) = some c := by
  have inRange : beAt (lineBytes c) 1 1 < 32 ∧ beAt (lineBytes c) 3 1 < 8 := by
    rw [originField_lineBytes, hopsField_lineBytes]
    exact ⟨c.origin.isLt, c.hops.isLt⟩
  unfold readCell
  rw [kindField_lineBytes, kindOfCode_kindCode]
  dsimp only
  rw [dif_pos inRange]
  simp only [originField_lineBytes, hopsField_lineBytes, destField_lineBytes, incarnationField_lineBytes,
    floodSeqField_lineBytes, wordField_lineBytes, payload_lineBytes c fits, BitVec.ofNat_toNat, BitVec.setWidth_eq]

theorem lineBytes_eq :
    let head : List Byte := beBytes 1 (kindCode c.kind) ++ beBytes 1 c.origin.val ++ beBytes 1 c.dest.toNat ++
      beBytes 1 c.hops.val ++ beBytes 2 c.payload.length ++ beBytes 2 c.incarnation.toNat ++ beBytes 2 c.floodSeq.toNat ++
      zeros 2 ++ beBytes 4 c.word.toNat
    lineBytes c = head ++ c.payload ++ beBytes 4 (crc (head ++ c.payload)).toNat := by
  intro head
  have head_eq : head = headerBytes c := (headerBytes_eq c).symm
  rw [head_eq, lineBytes]

/-! ## The check (R3) -/

/-- One bit into the remainder register, the register's top bit given by its place. -/
def checkBit (r : BitVec 32) (bit : Bool) : BitVec 32 :=
  if r.getLsbD 31 != bit then (r <<< 1) ^^^ 0x04C11DB7#32 else r <<< 1

theorem crcBit_eq_checkBit : crcBit = checkBit := by
  funext r bit
  rw [crcBit, checkBit, BitVec.msb_eq_getLsbD_last]

theorem crc_eq_foldl_bits (bs : List Byte) :
    crc bs = ~~~((bs.flatMap (fun b => (List.range 8).map b.getLsbD)).foldl checkBit 0xFFFFFFFF#32) := by
  have byte : crcByte = fun r b => ((List.range 8).map b.getLsbD).foldl checkBit r := by
    funext r b
    rw [crcByte, crcBit_eq_checkBit, List.foldl_map]
  have ones : BitVec.allOnes 32 = 0xFFFFFFFF#32 := by decide
  rw [crc, byte, List.foldl_flatMap, ones]

/-! ## The layouts -/

/-- Settles O5: the read-back by `readCell_lineBytes`, the check by `crc_eq_foldl_bits`; the payloads are written as the
layouts give them. -/
theorem cellBytesReadBack : Obligations.CellBytesReadBack := by
  unfold Obligations.CellBytesReadBack
  refine ⟨fun c fits header => ⟨rawError_lineBytes c fits header, readCell_lineBytes c fits⟩, lineBytes_eq,
    ⟨crc_eq_foldl_bits, ?known⟩, ?kinds, ?probeEcho, ?timeTrig, ?hello, ?verdictLeave, ?notes, ?streams, ?contents, ?roll⟩
  case known => decide +kernel
  case kinds => rfl
  case probeEcho => exact fun _ _ _ _ => ⟨rfl, rfl⟩
  case timeTrig => exact fun _ _ _ _ _ _ => ⟨rfl, rfl⟩
  case hello => exact fun _ _ _ _ _ _ _ _ => rfl
  case verdictLeave => exact fun _ _ _ _ _ _ => ⟨rfl, rfl⟩
  case notes => exact fun _ _ _ _ _ => ⟨rfl, rfl⟩
  case streams => exact fun _ _ _ _ _ _ _ _ _ _ _ => ⟨rfl, rfl, rfl, rfl, rfl, rfl, rfl, rfl⟩
  case contents => exact fun _ => rfl
  case roll => exact fun _ => rfl

end Sys2Proof.CellBytes

/-! SUPPORT. The port units (02): a command as one act, what a change of a port's state makes of its record, and the
events at a port's receiver and of its timers. -/

namespace Sys2Proof.PortUnits

open Sys2Proof Sys2Proof.Machine Sys2Proof.Statements

/-! ## A command as one act -/

/-- With the reset input released a command that is one act ends as its act does. -/
theorem run_ends {f : Act → Act} {s : State} {a : Act} (running : s.inReset = false) (act : f ⟨s, []⟩ = a) :
    run f s = .next (finish a) := by
  rw [run_running running, act]

/-- The same for a command that posts nothing. -/
theorem runState_ends {f : State → State} {s u : State} (running : s.inReset = false) (changed : f s = u) :
    runState f s = .next (finish ⟨u, []⟩) := by
  rw [runState_running running, changed]

theorem atTimer_some (a : Act) (t limit : Nat) (f : Act → Act) :
    a.atTimer (some t) limit f = f ⟨advanceTo a.s (t + limit), a.posts⟩ := rfl

/-! ## The record of a port that changes state -/

section records

variable {now : Nat} {r : Port} {cause : PortCause}

theorem changeRecord_training (up : r.state ≠ .up) : changeRecord now r .training cause = trainingRecord now cause r := by
  rw [changeRecord, if_neg (fun h => up h.1)]
  rfl

theorem changeRecord_training_up (up : r.state = .up) :
    changeRecord now r .training cause = trainingRecord now cause (leftUp r) := by
  rw [changeRecord, if_pos ⟨up, by decide⟩]
  rfl

theorem changeRecord_dark (up : r.state ≠ .up) : changeRecord now r .dark cause = darkRecord now cause r := by
  rw [changeRecord, if_neg (fun h => up h.1)]
  rfl

theorem changeRecord_dark_up (up : r.state = .up) :
    changeRecord now r .dark cause = darkRecord now cause (leftUp r) := by
  rw [changeRecord, if_pos ⟨up, by decide⟩]
  rfl

theorem changeRecord_lockout (up : r.state ≠ .up) : changeRecord now r .lockout cause =
    { r with state := .lockout, cause := cause, noiseSince := none, quietSince := if r.signal then none else some now } := by
  rw [changeRecord, if_neg (fun h => up h.1)]
  rfl

end records

/-! ## The act of a change of state -/

section changes

variable {s : State} {ps : List Post} {p : PortIx} {st : PortState} {cause : PortCause} {f : Port → Port}

/-- The change before any other unit takes it, its record given. -/
theorem changed_eq (record : changeRecord s.now (s.port p) st cause = f (s.port p)) :
    changed p st cause ⟨s, ps⟩ = ⟨s.modPort p f, ps ++ portReport p st cause⟩ := by
  rw [changed, modPort_congr record]
  rfl

/-- A change between states of a port that is neither UP nor TRAINING. -/
theorem changePort_still_eq (up : (s.port p).state ≠ .up) (training : (s.port p).state ≠ .training) (leaves : st ≠ .up)
    (record : changeRecord s.now (s.port p) st cause = f (s.port p)) :
    changePort p st cause ⟨s, ps⟩ = ⟨s.modPort p f, ps ++ portReport p st cause⟩ := by
  rw [changePort_still up training leaves, changed_eq record]

/-- A change from UP is a port-loss event. -/
theorem changePort_from_up_eq (up : (s.port p).state = .up)
    (record : changeRecord s.now (s.port p) st cause = f (s.port p)) :
    changePort p st cause ⟨s, ps⟩ = portLossEvent p ⟨s.modPort p f, ps ++ portReport p st cause⟩ := by
  rw [changePort_from_up up, changed_eq record]

/-- A change from TRAINING but to UP loses the cell on the line. -/
theorem changePort_from_training_eq (training : (s.port p).state = .training) (leaves : st ≠ .up)
    (record : changeRecord s.now (s.port p) st cause = f (s.port p)) :
    changePort p st cause ⟨s, ps⟩ =
      ⟨(s.modPort p f).modLink p (fun l => { l with line := none }), ps ++ portReport p st cause⟩ := by
  rw [changePort_from_training training leaves, changed_eq record]
  rfl

/-- A training that fails: DARK, an attempt counted (R29). -/
theorem failTraining_eq (training : (s.port p).state = .training) :
    failTraining p cause ⟨s, ps⟩ =
      ⟨(s.modPort p (fun r => darkRecord s.now cause (countAttempt r))).modLink p (fun l => { l with line := none }),
        ps ++ portReport p .dark cause⟩ := by
  have record : changeRecord s.now ((s.modPort p countAttempt).port p) .dark cause =
      darkRecord s.now cause ((s.modPort p countAttempt).port p) := by
    rw [port_modPort_same]
    exact changeRecord_dark (by show (s.port p).state ≠ .up; rw [training]; decide)
  have counted : ((s.modPort p countAttempt).port p).state = .training := by rw [port_modPort_same]; exact training
  show changePort p .dark cause ⟨s.modPort p countAttempt, ps⟩ = _
  rw [changePort_from_training_eq counted (by decide) record, modPort_modPort]

end changes

/-! ## DARK and LOCKOUT (R22 to R24) -/

theorem acts_wakeInterval {s : State} {p : PortIx} (running : s.inReset = false) (dark : (s.port p).state = .dark) :
    let due := (s.port p).lastBurst + wakeTime s.store.working.wake
    Acts (.wakeInterval p) s
      ((advanceTo s due).modPort p (fun r => { r with bursts := r.bursts + 1, lastBurst := due })) [] := by
  intro due
  show execWakeInterval p s = _
  unfold execWakeInterval
  refine run_ends running ?_
  simp only [dark, if_true]
  rw [atTimer_some]
  rfl

theorem acts_noise {s : State} {p : PortIx} {t : Nat} (running : s.inReset = false) (dark : (s.port p).state = .dark)
    (noise : (s.port p).noiseSince = some t) :
    Acts (.noise p) s
      ((advanceTo s (t + noiseLimit)).modPort p (fun r => { r with
        state := .lockout, cause := .noise, noiseSince := none
        quietSince := if r.signal then none else some (advanceTo s (t + noiseLimit)).now }))
      (portReport p .lockout .noise) := by
  have dark' : ((advanceTo s (t + noiseLimit)).port p).state = .dark := by rw [port_advanceTo, dark]
  show execNoise p s = _
  unfold execNoise
  refine run_ends running ?_
  rw [if_pos dark, noise, atTimer_some]
  refine changePort_still_eq ?_ ?_ (by decide) (changeRecord_lockout ?_) <;>
  · rw [dark']
    decide

theorem acts_quiet {s : State} {p : PortIx} {t : Nat} (running : s.inReset = false)
    (lockout : (s.port p).state = .lockout) (quiet : (s.port p).quietSince = some t) :
    Acts (.quiet p) s
      ((advanceTo s (t + quietLimit)).modPort p (darkRecord (advanceTo s (t + quietLimit)).now .quiet))
      (portReport p .dark .quiet) := by
  have lockout' : ((advanceTo s (t + quietLimit)).port p).state = .lockout := by rw [port_advanceTo, lockout]
  show execQuiet p s = _
  unfold execQuiet
  refine run_ends running ?_
  rw [if_pos lockout, quiet, atTimer_some]
  refine changePort_still_eq ?_ ?_ (by decide) (changeRecord_dark ?_) <;>
  · rw [lockout']
    decide

/-- Settles O9, timer by timer. -/
theorem darkAndLockoutTimers : Obligations.DarkAndLockoutTimers := by
  unfold Obligations.DarkAndLockoutTimers
  exact ⟨fun _ _ => acts_wakeInterval, fun _ _ _ => acts_noise, fun _ _ _ => acts_quiet⟩

/-! ## Wake, signal and lock (R23 to R26, R35, R7) -/

/-- The T queue takes an offer of a TRAINING or an UP port while it has space. -/
theorem offerJoins_tq {s : State} {p : PortIx} (sends : (s.port p).state = .training ∨ (s.port p).state = .up) :
    offerJoins s p .tq = decide ((s.link p).tQueue.length < tCapacity) := by
  rcases sends with state | state <;>
  · rw [offerJoins, queueAccepts, state]
    rfl

theorem sendProbe_eq {s : State} {p : PortIx} (sends : (s.port p).state = .training ∨ (s.port p).state = .up) (due : Nat) :
    sendProbe s p due =
      (offer s p ⟨ownCell s .probe 0 (probePayload s.serial p (s.port p).probeNumber), none⟩).modPort p (fun r => { r with
        lastProbe := some due
        probeNumber := if (s.link p).tQueue.length < tCapacity then r.probeNumber + 1 else r.probeNumber }) := by
  unfold sendProbe
  rw [offerJoins_tq sends]
  simp only [decide_eq_true_eq]
  rfl

theorem wakeReceived_spec {s : State} {p : PortIx} (running : s.inReset = false) :
    match (s.port p).state with
    | .dark => Acts (.wakeReceived p) s (s.modPort p (trainingRecord s.now .wake)) (portReport p .training .wake)
    | .up => Ends (.wakeReceived p) s (portLossEvent p
        ⟨s.modPort p (fun r => trainingRecord s.now .retrain (leftUp r)), portReport p .training .retrain⟩)
    | .lockout => Acts (.wakeReceived p) s
        (s.modPort p (fun r => { r with quietSince := r.quietSince.map (fun _ => s.now) })) []
    | .held | .training | .faulted => Acts (.wakeReceived p) s s [] := by
  have arm (a : Act) (act : (match (s.port p).state with
      | .dark => changePort p .training .wake ⟨s, []⟩
      | .up => changePort p .training .retrain ⟨s, []⟩
      | .lockout => (⟨s, []⟩ : Act).on (fun s => s.modPort p (restartQuiet s.now))
      | .held | .training | .faulted => ⟨s, []⟩) = a) : Ends (.wakeReceived p) s a :=
    run_ends (f := fun a => match (a.s.port p).state with
      | .dark => changePort p .training .wake a
      | .up => changePort p .training .retrain a
      | .lockout => a.on (fun s => s.modPort p (restartQuiet s.now))
      | .held | .training | .faulted => a) running act
  cases state : (s.port p).state with
  | dark =>
    refine arm _ ?_
    rw [state]
    refine changePort_still_eq ?_ ?_ (by decide) (changeRecord_training ?_) <;>
    · rw [state]
      decide
  | up =>
    refine arm _ ?_
    rw [state]
    exact changePort_from_up_eq state (changeRecord_training_up state)
  | lockout => exact arm _ (by rw [state]; rfl)
  | held => exact arm _ (by rw [state])
  | training => exact arm _ (by rw [state])
  | faulted => exact arm _ (by rw [state])

theorem acts_signalPresent {s : State} {p : PortIx} (running : s.inReset = false) :
    Acts (.signalPresent p) s
      (s.modPort p (fun r => { r with
        signal := true, quietSince := none
        noiseSince := if r.state = .dark ∧ r.lock = false then some (r.noiseSince.getD s.now) else r.noiseSince })) [] :=
  runState_ends running rfl

theorem acts_symbolLock {s : State} {p : PortIx} (running : s.inReset = false) (noLock : (s.port p).lock = false) :
    let u := s.modPort p (fun r => { r with signal := true, lock := true, noiseSince := none, quietSince := none })
    Acts (.symbolLock p) s (if (s.port p).state = .training then
      (offer u p ⟨ownCell s .probe 0 (probePayload s.serial p (s.port p).probeNumber), none⟩).modPort p (fun r => { r with
        lastProbe := some s.now
        probeNumber := if (s.link p).tQueue.length < 8 then r.probeNumber + 1 else r.probeNumber })
      else u) [] := by
  intro u
  have port_u : u.port p = gainLock (s.port p) := port_modPort_same ..
  have state_u : (u.port p).state = (s.port p).state := by rw [port_u]; rfl
  have number_u : (u.port p).probeNumber = (s.port p).probeNumber := by rw [port_u]; rfl
  show execSymbolLock p s = _
  unfold execSymbolLock
  refine run_ends running ?_
  simp only [noLock, Bool.false_eq_true, if_false]
  show (if (u.port p).state = .training then (⟨u, []⟩ : Act).on (fun s => sendProbe s p s.now) else ⟨u, []⟩) = _
  rw [state_u]
  by_cases training : (s.port p).state = .training
  · rw [if_pos training, if_pos training, ← number_u]
    exact congrArg (Act.mk · []) (sendProbe_eq (.inl (state_u.trans training)) s.now)
  · rw [if_neg training, if_neg training]

theorem acts_resynchronisation {s : State} {p : PortIx} (running : s.inReset = false)
    (builds : (s.port p).state = .training ∨ (s.port p).state = .up) :
    Acts (.resynchronisation p) s (s.modPort p (fun r => { r with rxStage := .ready })) [] :=
  runState_ends running (if_pos builds)

/-- Settles O10, event by event. -/
theorem receiverEvents : Obligations.ReceiverEvents := by
  unfold Obligations.ReceiverEvents
  exact ⟨fun _ _ => wakeReceived_spec, fun _ _ => acts_signalPresent, fun _ _ => acts_symbolLock,
    fun _ _ => acts_resynchronisation⟩

/-! ## Losses of signal and lock (R35) -/

theorem loseLine_state (now : Nat) (what : LineLoss) (r : Port) : (loseLine now what r).state = r.state := by
  cases what <;> rfl

theorem lossOfSignal_spec {s : State} {p : PortIx} {what : LineLoss} (running : s.inReset = false)
    (had : hadLine what (s.port p) = true) :
    let lost := loseLine s.now what
    match (s.port p).state with
    | .up => Ends (.lossOfSignal p what) s (portLossEvent p
        ⟨s.modPort p (fun r => darkRecord s.now .lost (leftUp (lost r))), portReport p .dark .lost⟩)
    | .training =>
      if (s.port p).lock then
        Acts (.lossOfSignal p what) s
          ((s.modPort p (fun r => darkRecord s.now .lost (countAttempt (lost r)))).modLink p
            (fun l => { l with line := none }))
          (portReport p .dark .lost)
      else Acts (.lossOfSignal p what) s (s.modPort p lost) []
    | .held | .dark | .lockout | .faulted => Acts (.lossOfSignal p what) s (s.modPort p lost) [] := by
  intro lost
  have state_lost : ((s.modPort p lost).port p).state = (s.port p).state := by
    rw [port_modPort_same]
    exact loseLine_state ..
  have arm {b : Act} (act : (match (s.port p).state with
      | .up => changePort p .dark .lost ⟨s.modPort p lost, []⟩
      | .training =>
        if (s.port p).lock then failTraining p .lost ⟨s.modPort p lost, []⟩ else ⟨s.modPort p lost, []⟩
      | .held | .dark | .lockout | .faulted => ⟨s.modPort p lost, []⟩) = b) : Ends (.lossOfSignal p what) s b := by
    show execLossOfSignal p what s = _
    unfold execLossOfSignal
    refine run_ends running ?_
    rw [← act]
    simp only [had, Bool.true_eq_false, if_false]
    rfl
  cases state : (s.port p).state with
  | up =>
    refine arm ?_
    rw [state] at state_lost ⊢
    have left_up := changePort_from_up_eq (ps := []) (f := fun r => darkRecord s.now .lost (leftUp r)) state_lost
      (changeRecord_dark_up (cause := .lost) state_lost)
    rw [modPort_modPort] at left_up
    exact left_up
  | training =>
    rw [state] at state_lost
    dsimp only
    split
    case isTrue locked =>
      refine arm ?_
      simp only [state, locked, if_true]
      rw [failTraining_eq state_lost, modPort_modPort]
      rfl
    case isFalse unlocked => exact arm (by simp only [state, unlocked]; rfl)
  | held => exact arm (by rw [state])
  | dark => exact arm (by rw [state])
  | lockout => exact arm (by rw [state])
  | faulted => exact arm (by rw [state])

/-- Settles O11, by the state of the port. -/
theorem lossOfSignal : Obligations.LossOfSignal := by
  unfold Obligations.LossOfSignal
  refine fun s p what running had => ⟨fun r => ?lost, fun r => ?attempt, lossOfSignal_spec running had⟩
  case lost => cases what <;> rfl
  case attempt =>
    rw [countAttempt]
    split
    case isTrue full => rw [full]
    case isFalse => rfl

/-! ## Training, probes and silence (R29, R30, R36) -/

theorem acts_timeout {s : State} {p : PortIx} {t : Nat} (running : s.inReset = false)
    (training : (s.port p).state = .training) (since : (s.port p).trainingSince = some t) :
    Acts (.timeout p) s
      (((advanceTo s (t + trainingLimit)).modPort p
        (fun r => darkRecord (advanceTo s (t + trainingLimit)).now .timeout (countAttempt r))).modLink p
          (fun l => { l with line := none }))
      (portReport p .dark .timeout) := by
  show execTimeout p s = _
  unfold execTimeout
  refine run_ends running ?_
  rw [if_pos training, since, atTimer_some]
  exact failTraining_eq (by rw [port_advanceTo, training])

theorem ends_silent {s : State} {p : PortIx} {t : Nat} (running : s.inReset = false) (up : (s.port p).state = .up)
    (since : (s.port p).silenceSince = some t) :
    Ends (.silent p) s (portLossEvent p
      ⟨(advanceTo s (t + silenceLimit)).modPort p
        (fun r => trainingRecord (advanceTo s (t + silenceLimit)).now .silent (leftUp r)),
        portReport p .training .silent⟩) := by
  show execSilent p s = _
  unfold execSilent
  refine run_ends running ?_
  rw [if_pos up, since, atTimer_some]
  have up' : ((advanceTo s (t + silenceLimit)).port p).state = .up := by rw [port_advanceTo, up]
  exact changePort_from_up_eq up' (changeRecord_training_up up')

theorem acts_probeTimer {s : State} {p : PortIx} {last : Nat} (running : s.inReset = false)
    (lastProbe : (s.port p).lastProbe = some last)
    (sends : (s.port p).state = .training ∧ (s.port p).lock = true ∨ (s.port p).state = .up) :
    let due := last + (if (s.port p).state = .up then probePeriodUp else probePeriodTraining)
    let a := advanceTo s due
    let cell := ownCell s .probe 0 (probePayload s.serial p (s.port p).probeNumber)
    Acts (.probeTimer p) s
      ((offer a p ⟨cell, none⟩).modPort p (fun r => { r with
        lastProbe := some due
        probeNumber := if (s.link p).tQueue.length < tCapacity then r.probeNumber + 1 else r.probeNumber })) [] := by
  intro due a cell
  have period : probePeriod (s.port p) =
      some (if (s.port p).state = .up then probePeriodUp else probePeriodTraining) := by
    rcases sends with ⟨training, locked⟩ | up
    · simp only [probePeriod, training, locked]
      rfl
    · simp only [probePeriod, up]
      rfl
  show execProbeTimer p s = _
  unfold execProbeTimer
  refine run_ends running ?_
  simp only [period, lastProbe]
  rw [atTimer_some]
  have sends' : (a.port p).state = .training ∨ (a.port p).state = .up := by
    rw [port_advanceTo]
    exact sends.imp And.left id
  exact congrArg (Act.mk · []) (sendProbe_eq sends' due)

/-- Settles O12, timer by timer. -/
theorem trainingAndProbeTimers : Obligations.TrainingAndProbeTimers := by
  unfold Obligations.TrainingAndProbeTimers
  exact ⟨⟨fun _ _ _ => acts_timeout, fun _ _ _ => ends_silent⟩, fun _ _ _ => acts_probeTimer⟩

end Sys2Proof.PortUnits

/-! SUPPORT. The loss of a port (R17, R39, R51, R151) and the queues of a port (R14). -/

namespace Sys2Proof.PortQueues

open Sys2Proof Sys2Proof.Machine Sys2Proof.Statements

/-! ## Changes slot by slot -/

/-- A change that leaves the slot as it is changes nothing. -/
theorem modSlot_self {s : State} {n : SlotIx} {f : Slot → Slot} (h : f (s.slot n) = s.slot n) : s.modSlot n f = s := by
  have slots : upd s.stream.slots n f = s.stream.slots := by
    rw [upd_congr (g := fun _ => s.slot n) h]
    exact upd_self rfl
  rw [State.modSlot, slots]

/-- Each listed slot changed by itself. -/
def modSlots (g : SlotIx → Slot → Slot) (ns : List SlotIx) (s : State) : State :=
  ns.foldl (fun s n => s.modSlot n (g n)) s

theorem modSlots_slot {g : SlotIx → Slot → Slot} {ns : List SlotIx} (nodup : ns.Nodup) (s : State) (m : SlotIx) :
    (modSlots g ns s).slot m = if m ∈ ns then g m (s.slot m) else s.slot m := by
  induction ns generalizing s with
  | nil => rfl
  | cons n ns ih =>
    obtain ⟨absent, nodup⟩ := List.nodup_cons.1 nodup
    show (modSlots g ns (s.modSlot n (g n))).slot m = _
    rw [ih nodup, slot_modSlot]
    by_cases at_n : m = n
    · subst at_n
      simp [absent]
    · simp [at_n]

/-- Only the slots change. -/
theorem modSlots_frame (g : SlotIx → Slot → Slot) (ns : List SlotIx) (s : State) :
    { modSlots g ns s with stream := s.stream } = s ∧ (modSlots g ns s).stream.unmatched = s.stream.unmatched := by
  induction ns generalizing s with
  | nil => exact ⟨rfl, rfl⟩
  | cons n ns ih =>
    obtain ⟨frame, unmatched⟩ := ih (s.modSlot n (g n))
    show { modSlots g ns (s.modSlot n (g n)) with stream := s.stream } = s ∧ _
    refine ⟨?_, unmatched⟩
    exact congrArg (fun v : State => { v with stream := s.stream }) frame

theorem mem_allSlots (n : SlotIx) : n ∈ allSlots := List.mem_finRange n

theorem allSlots_nodup : allSlots.Nodup := List.nodup_finRange 64

theorem modSlots_all_slot (g : SlotIx → Slot → Slot) (s : State) (n : SlotIx) :
    (modSlots g allSlots s).slot n = g n (s.slot n) := by
  rw [modSlots_slot allSlots_nodup, if_pos (mem_allSlots n)]

/-! ## Cut-offs (R151) -/

/-- A cut-off is the block's sending ended with the cut-off flag. -/
theorem cutOffSlot_eq_cutBlock (now : Nat) (x : Slot) : cutOffSlot now x = cutBlock now x := by
  unfold cutOffSlot cutBlock endSending
  cases sending : x.sending with
  | none => rfl
  | some d =>
    have twice (r : Rec) :
        (let q := if r.number = some d.block then { r with stage := Stage.sent, ackSince := some now } else r
          if q.number = some d.block then { q with cutOff := true } else q) =
        if r.number = some d.block then { r with stage := .sent, cutOff := true, ackSince := some now } else r := by
      dsimp only
      split <;> simp_all
    simp only [modRec, List.map_map, Option.map_map, Function.comp_def, twice]

theorem cutOff_eq (s : State) (n : SlotIx) : cutOff s n = s.modSlot n (cutBlock s.now) := by
  unfold cutOff
  rw [funext (cutOffSlot_eq_cutBlock s.now)]

/-! ## A lost port at the stream engine (R17, R151) -/

/-- What a port's loss makes of a slot. -/
def afterPortLoss (now : Nat) (p : PortIx) (onLine : Option LocalCell) (n : SlotIx) (x : Slot) : Slot :=
  if lostWithPort p onLine n x then cutBlock now x else x

theorem streamPortLost_eq (s : State) (ps : List Post) (p : PortIx) (onLine : Option LocalCell) :
    streamPortLost p onLine ⟨s, ps⟩ = ⟨modSlots (afterPortLoss s.now p onLine) allSlots s, ps⟩ := by
  unfold streamPortLost Act.each modSlots
  generalize now_eq : s.now = now
  induction allSlots generalizing s with
  | nil => rfl
  | cons n ns ih =>
    have one : (if lostWithPort p onLine n (s.slot n) then (⟨s, ps⟩ : Act).on (cutOff · n) else ⟨s, ps⟩) =
        ⟨s.modSlot n (afterPortLoss now p onLine n), ps⟩ := by
      by_cases lost : lostWithPort p onLine n (s.slot n) = true
      · rw [if_pos lost, Act.on, cutOff_eq, now_eq]
        exact congrArg (Act.mk · ps) (modSlot_congr (if_pos lost).symm)
      · rw [if_neg lost]
        have same : afterPortLoss now p onLine n (s.slot n) = s.slot n := if_neg lost
        rw [modSlot_self same]
    rw [List.foldl_cons, List.foldl_cons, one]
    exact ih _ now_eq

theorem lostWithPort_iff {p : PortIx} {onLine : Option LocalCell} {n : SlotIx} {x : Slot} :
    lostWithPort p onLine n x = true ↔
      (∃ o, x.offer = some o ∧ o.port = p) ∨ (∃ lc d, onLine = some lc ∧ x.sending = some d ∧
        lc.slot = n ∧ lc.openNumber = x.openNumber ∧ lc.block = d.block) := by
  unfold lostWithPort
  rw [Bool.or_eq_true]
  refine or_congr ?offered ?onTheLine
  case offered => cases x.offer <;> simp
  case onTheLine => cases onLine <;> cases x.sending <;> simp [and_assoc]

theorem streamPortLost_spec (s : State) (ps : List Post) (p : PortIx) (onLine : Option LocalCell) :
    let t := streamPortLost p onLine ⟨s, ps⟩
    t.posts = ps ∧ { t.s with stream := s.stream } = s ∧ t.s.stream.unmatched = s.stream.unmatched ∧
    ∀ n, let x := s.slot n
      let lost := (∃ o, x.offer = some o ∧ o.port = p) ∨ (∃ lc d, onLine = some lc ∧ x.sending = some d ∧
        lc.slot = n ∧ lc.openNumber = x.openNumber ∧ lc.block = d.block)
      (lost → t.s.slot n = cutBlock s.now x) ∧ (¬ lost → t.s.slot n = x) := by
  intro t
  have t_eq : t = ⟨modSlots (afterPortLoss s.now p onLine) allSlots s, ps⟩ := streamPortLost_eq s ps p onLine
  rw [t_eq]
  obtain ⟨frame, unmatched⟩ := modSlots_frame (afterPortLoss s.now p onLine) allSlots s
  refine ⟨rfl, frame, unmatched, fun n => ?_⟩
  dsimp only
  rw [← lostWithPort_iff, modSlots_all_slot]
  exact ⟨fun lost => if_pos lost, fun kept => if_neg kept⟩

/-! ## A lost port at the switch and the reach unit (R17, R51, R52) -/

theorem lineBusy_eq (now : Nat) (l : Link) :
    lineBusy now l = l.line.any (fun x => decide (now < x.endsAt) || x.src.isSome) := by
  unfold lineBusy
  cases l.line <;> rfl

theorem flushLink_flush (now : Nat) (l : Link) : (flushLink now l).counters =
    { l.counters with flush := l.counters.flush + BitVec.ofNat 32 (l.tQueue.length + l.cQueue.length + l.dQueue.length +
      (if l.line.any (fun x => decide (now < x.endsAt) || x.src.isSome) then 1 else 0)) } := by
  rw [← lineBusy_eq]
  rfl

theorem entriesOn_eq (s : State) (p : PortIx) :
    entriesOn s p = allFrames.filter (fun f => (s.route f).any (fun r => r.port == p)) := by
  unfold entriesOn
  congr 1
  funext f
  cases s.route f <;> rfl

theorem reachPortLost_eq (s : State) (ps : List Post) (p : PortIx) :
    let lost := allFrames.filter (fun f => (s.route f).any (fun r => r.port == p))
    let u : State := { s with reach := { s.reach with portSet := upd s.reach.portSet p (fun _ => false) } }
    reachPortLost p ⟨s, ps⟩ = lost.foldl
      (fun a f => a.race3 (rosterReachLost f) (timeReachLost f) (streamReachLost f)) ⟨lost.foldl markUnknown u, ps⟩ := by
  intro lost u
  have lost_eq : entriesOn u p = lost := entriesOn_eq s p
  rw [← lost_eq]
  rfl

/-! ## Offers (R14) -/

section offers

variable {l : Link} {st : PortState} {c : TxClass} {q : Queued}

theorem queueAccepts_iff : queueAccepts c st = true ↔ st = .up ∨ (c = .tq ∧ st = .training) := by
  simp only [queueAccepts, Bool.or_eq_true, Bool.and_eq_true, beq_iff_eq]

theorem offerLink_joins (accepts : st = .up ∨ (c = .tq ∧ st = .training)) (space : ¬ capacityOf c ≤ (queueOf l c).length) :
    offerLink l st c q = setQueue l c (queueOf l c ++ [q]) := by
  rw [offerLink, queueAccepts_iff.2 accepts, if_neg (by decide), if_pos (by omega)]

theorem offerLink_full (accepts : st = .up ∨ (c = .tq ∧ st = .training)) (full : capacityOf c ≤ (queueOf l c).length) :
    offerLink l st c q = { l with counters := countDrop l.counters c } := by
  rw [offerLink, queueAccepts_iff.2 accepts, if_neg (by decide), if_neg (by omega)]

theorem offerLink_flushed (refuses : ¬ (st = .up ∨ (c = .tq ∧ st = .training))) :
    offerLink l st c q = { l with counters := { l.counters with flush := l.counters.flush + 1 } } := by
  rw [← queueAccepts_iff, Bool.not_eq_true] at refuses
  rw [offerLink, if_pos refuses]
  rfl

end offers

theorem kindClass_eq (k : Kind) : kindClass k =
    if k ∈ [Kind.probe, .echo, .time, .trig] then .tq else if k = .data then .dq else .cq := by
  cases k <;> rfl

theorem sendRouted_unknown {s : State} {f : FrameNo} (h : s.route f = none) (c : Cell) : sendRouted s f c = s := by
  rw [sendRouted, h]

theorem sendRouted_route {s : State} {f : FrameNo} {r : Route} (h : s.route f = some r) (c : Cell) :
    sendRouted s f c = offer s r.port ⟨c, none⟩ := by
  rw [sendRouted, h]

/-- Settles O13: the flush, the two units that take a loss, the offer by what the port accepts and the queue holds. -/
theorem portQueues : Obligations.PortQueues := by
  unfold Obligations.PortQueues
  refine ⟨fun s p => ⟨rfl, rfl, rfl, rfl, rfl, rfl, flushLink_flush .., fun posts => rfl⟩, reachPortLost_eq,
    streamPortLost_spec, fun l st c q => ⟨offerLink_joins, fun accepts full => ?full, offerLink_flushed⟩, fun s p q => ?offered,
    fun s f c => ⟨fun h => sendRouted_unknown h c, fun r h => sendRouted_route h c⟩⟩
  case full =>
    rw [offerLink_full accepts full]
    cases c <;> rfl
  case offered =>
    rw [← kindClass_eq]
    rfl

end Sys2Proof.PortQueues

/-! SUPPORT. Received cells (01): where a good cell goes, by the port it arrives at and its destination; erroneous cells,
relay, floods, and the cells of the port units. -/

namespace Sys2Proof.ReceivedCells

open Sys2Proof Sys2Proof.Machine Sys2Proof.Statements Sys2Proof.PortUnits

/-! ## A received cell as an act -/

/-- What the owner of a kind makes of a good cell. -/
def cellOwner : Kind → Rx → Act → Act
  | .probe => takeProbe
  | .echo => takeEcho
  | .time => takeTime
  | .trig => takeTrig
  | .beacon => takeBeacon
  | .roll => takeRoll
  | .hello => takeHello
  | .verdict => takeVerdict
  | .leaveCell => takeLeave
  | .openCell => takeOpen
  | .openAnswer => takeOpenAnswer
  | .credit => takeCredit
  | .blockack => takeBlockack
  | .halt => takeHalt
  | .close => takeClose
  | .data => takeData
  | .note => takeNote
  | .noteAnswer => takeNoteAnswer

theorem exec_cellCommand (k : Kind) (rx : Rx) (s : State) :
    exec (cellCommand k rx) s = run (receive k rx (cellOwner k rx)) s := by
  cases k <;> rfl

theorem exec_relay (k : Kind) (rx : Rx) (s : State) :
    exec (.relay k rx) s = run (fun a => if forAnother a.s rx then receive k rx id a else a) s := rfl

theorem forAnother_iff {s : State} {rx : Rx} :
    forAnother s rx = true ↔ rx.dest ≠ 0 ∧ rx.dest.toNat ≠ 63 ∧ rx.dest.toNat ≠ s.own.val := by
  simp [forAnother, floodDest, and_assoc]

theorem goodReport_up {r : Port} (up : r.state = .up) : goodReport r = goodUp r := by
  unfold goodReport goodUp
  simp only [up, ne_eq, not_true_eq_false, if_false]
  split
  case isTrue settling => simp
  case isFalse settled =>
    have : r.settling = 0 := by omega
    simp [this]

section arrivals

variable {k : Kind} {rx : Rx} {s : State} {o : Act → Act}

theorem receive_heard (h : Arrives k rx .up s) : receive k rx o ⟨s, []⟩ = sortCell k rx o ⟨heard s rx, []⟩ := by
  rw [receive_up h.port h.ready h.good, modPort_congr (goodReport_up h.port)]
  rfl

theorem port_heard (s : State) (rx : Rx) (p : PortIx) : ((heard s rx).port p).state = (s.port p).state := by
  unfold heard
  rw [port_modPort]
  split
  case isTrue at_port => rw [at_port]; rfl
  case isFalse => rfl

/-- A good cell at an UP port is heard and sorted. -/
theorem ends_sorted (h : Arrives k rx .up s) :
    Ends (cellCommand k rx) s (sortCell k rx (cellOwner k rx) ⟨heard s rx, []⟩) := by
  rw [Ends, exec_cellCommand]
  exact run_ends h.running (receive_heard h)

/-- A link-local cell goes to its owner. -/
theorem ends_local (h : Arrives k rx .up s) (dest : rx.dest = 0) :
    Ends (cellCommand k rx) s (cellOwner k rx ⟨heard s rx, []⟩) :=
  sortCell_owner (o := cellOwner k rx) (a := ⟨heard s rx, []⟩) (.inl dest) ▸ ends_sorted h

/-- A routed cell for this frame goes to its owner. -/
theorem ends_routed (h : Arrives k rx .up s) (routed : rx.dest.toNat ≠ 63) (dest : rx.dest.toNat = s.own.val) :
    Ends (cellCommand k rx) s (cellOwner k rx ⟨heard s rx, []⟩) :=
  sortCell_owner (o := cellOwner k rx) (a := ⟨heard s rx, []⟩) (.inr ⟨routed, dest⟩) ▸ ends_sorted h

/-- A flooded cell meets the flood rules. -/
theorem ends_flooded (h : Arrives k rx .up s) (flooded : rx.dest.toNat = 63) :
    Ends (cellCommand k rx) s (takeFlood k rx (cellOwner k rx) ⟨heard s rx, []⟩) :=
  sortCell_flood (o := cellOwner k rx) (a := ⟨heard s rx, []⟩) flooded ▸ ends_sorted h

/-- The report of a good cell at a TRAINING port. -/
def heardTraining (s : State) (rx : Rx) : State := s.modPort rx.port (fun r => { r with lastNull := false })

theorem ends_training (h : Arrives k rx .training s) (taken : isPortKind k = true) (dest : rx.dest = 0) :
    Ends (cellCommand k rx) s (cellOwner k rx ⟨heardTraining s rx, []⟩) := by
  rw [Ends, exec_cellCommand]
  refine run_ends h.running ?_
  rw [receive_training h.port h.ready h.good, if_pos taken, sortCell_owner (.inl dest)]
  rfl

theorem headerFits_of_good (good : cellWf k rx = true) : headerFits k rx.dest.toNat rx.origin.val = true := by
  have fits := rxError_none good
  unfold rxError at fits
  split at fits
  · cases fits
  · split at fits
    · cases fits
    · simpa using ‹¬ headerFits k rx.dest.toNat rx.origin.val = false›

/-- A kind that is link-local alone comes with destination 0. -/
theorem dest_of_good_local (good : cellWf k rx = true) (routed : mayBeRouted k = false) (flood : isFloodKind k = false) :
    rx.dest = 0 := by
  have fits := headerFits_of_good good
  unfold headerFits destAllowed at fits
  rw [routed, flood] at fits
  have : rx.dest.toNat = 0 := by
    refine Classical.byContradiction fun nonzero => ?_
    rw [if_neg nonzero, beq_eq_false_iff_ne.2 nonzero] at fits
    simp at fits
  exact BitVec.eq_of_toNat_eq this

end arrivals

/-! ## The receive stage's tests (R5, R6) -/

section errors

variable {raw : RawCell}

theorem delimitError_iff : delimitError raw = true ↔
    raw.ending = .startDelimiter ∨ raw.ending = .otherSymbol ∨ 276 < raw.bytes.length := by
  simp only [delimitError, Bool.or_eq_true, beq_iff_eq, decide_eq_true_eq, or_assoc]
  rfl

theorem checkPasses_iff : checkPasses raw.bytes = false ↔
    beNat (raw.bytes.drop (raw.bytes.length - 4)) ≠ (crc (raw.bytes.take (raw.bytes.length - 4))).toNat := by
  simp [checkPasses, checkedBytes]

theorem bytesFit_iff : bytesFit raw.bytes = false ↔
    ∀ k, kindOfCode (beAt raw.bytes 0 1) = some k → headerFits k (beAt raw.bytes 2 1) (beAt raw.bytes 1 1) = false := by
  unfold bytesFit
  cases kindOfCode (beAt raw.bytes 0 1) <;> simp

theorem rawError_spec :
    let b := raw.bytes
    let delimit := raw.ending = .startDelimiter ∨ raw.ending = .otherSymbol ∨ 276 < b.length
    let cut := raw.ending = .noDelimiter
    let length := 256 < beAt b 4 2 ∨ b.length ≠ 20 + beAt b 4 2
    let check := beNat (b.drop (b.length - 4)) ≠ (crc (b.take (b.length - 4))).toNat
    let kind := ∀ k, kindOfCode (beAt b 0 1) = some k → headerFits k (beAt b 2 1) (beAt b 1 1) = false
    (delimit → rawError raw = some .delimit) ∧
    (¬ delimit → cut → rawError raw = none) ∧
    (¬ delimit → ¬ cut → length → rawError raw = some .length) ∧
    (¬ delimit → ¬ cut → ¬ length → check → rawError raw = some .check) ∧
    (¬ delimit → ¬ cut → ¬ length → ¬ check → kind → rawError raw = some .kind) ∧
    (¬ delimit → ¬ cut → ¬ length → ¬ check → ¬ kind → rawError raw = none) ∧
    (rawNull raw = true ↔ delimit ∧ b ≠ [] ∧ ∀ x ∈ b, x = 0) := by
  intro b delimit cut length check kind
  have tests : rawError raw = if delimit then some .delimit else if cut then none else if length then some .length
      else if check then some .check else if kind then some .kind else none := by
    unfold rawError
    simp only [delimitError_iff, checkPasses_iff, bytesFit_iff]
    rfl
  rw [tests]
  refine ⟨fun h => if_pos h, ?_, ?_, ?_, ?_, ?_, ?null⟩
  case null =>
    have first : rawError raw = some .delimit ↔ delimit := by
      rw [tests]
      refine ⟨fun error => Classical.byContradiction fun passes => ?_, fun fails => if_pos fails⟩
      rw [if_neg passes] at error
      revert error
      repeat' split
      all_goals exact fun error => nomatch error
    simp only [rawNull, first, Bool.and_eq_true, decide_eq_true_eq, Bool.not_eq_true', List.all_eq_true, beq_iff_eq,
      and_assoc, List.isEmpty_eq_false_iff]
    rfl
  all_goals
    intros
    simp only [*, if_true, if_false]

theorem headerFits_iff (k : Kind) (dest origin : Nat) : headerFits k dest origin = true ↔
    ((dest = 0 ∧ k ∈ [Kind.probe, .echo, .time, .hello, .verdict] ∨
      1 ≤ dest ∧ dest ≤ 31 ∧ k ∉ [Kind.probe, .echo, .time, .trig, .beacon, .roll] ∨
      dest = 63 ∧ k ∈ [Kind.trig, .beacon, .roll]) ∧ (dest = 0 ∨ origin ≠ 0)) := by
  have localKinds : mayBeLocal k = true ↔ k ∈ [Kind.probe, .echo, .time, .hello, .verdict] := by cases k <;> decide
  have routedKinds : mayBeRouted k = true ↔ k ∉ [Kind.probe, .echo, .time, .trig, .beacon, .roll] := by
    cases k <;> decide
  have floodKinds : isFloodKind k = true ↔ k ∈ [Kind.trig, .beacon, .roll] := by cases k <;> decide
  have dests : destAllowed k dest = true ↔
      (dest = 0 ∧ mayBeLocal k = true ∨ 1 ≤ dest ∧ dest ≤ 31 ∧ mayBeRouted k = true ∨ dest = 63 ∧ isFloodKind k = true) := by
    unfold destAllowed floodDest
    split
    case isTrue zero => simp [zero]
    case isFalse nonzero =>
      split
      case isTrue small =>
        have : dest ≠ 63 := by omega
        simp only [nonzero, this, false_and, false_or, or_false, small, true_and]
        exact ⟨fun h => ⟨by omega, h⟩, And.right⟩
      case isFalse large =>
        simp [nonzero, large]
  rw [headerFits, Bool.and_eq_true, dests, localKinds, routedKinds, floodKinds]
  simp

end errors

/-! ## Erroneous cells (R5, R32 to R34) -/

section erroneous

variable {s : State} {p : PortIx} {raw : RawCell} {e : RxError}

theorem exec_erroneousCell : exec (.erroneousCell p raw) s = run (fun a =>
    match builds (a.s.port p), rawError raw with
    | true, some e => erroneous p e (rawNull raw) a
    | _, _ => a) s := rfl

/-- The state once the error is counted and the stage ignores the line. -/
def counted (s : State) (p : PortIx) (e : RxError) : State :=
  (s.modCounters p (countError e)).modPort p (fun r => { r with rxStage := .ignoring 0 })

theorem ends_erroneous (running : s.inReset = false) (ready : (s.port p).rxStage = .ready)
    (state : (s.port p).state = .up ∨ (s.port p).state = .training) (error : rawError raw = some e) {a : Act}
    (act : takeErrorReport p (rawNull raw) ⟨counted s p e, []⟩ = a) : Ends (.erroneousCell p raw) s a := by
  rw [Ends, exec_erroneousCell]
  refine run_ends running ?_
  simp only [builds_ready state ready, error]
  exact act

/-- A cell whose form the receive stage rejects is that erroneous cell. -/
theorem exec_unfit {k : Kind} {rx : Rx} (notNull : rawNull raw = false)
    (unfit : 256 < rx.payload.length ∧ rawError raw = some .delimit ∨
      rx.payload.length ≤ 256 ∧ headerFits k rx.dest.toNat rx.origin.val = false ∧ rawError raw = some .kind) :
    exec (cellCommand k rx) s = exec (.erroneousCell rx.port raw) s ∧
    (rx.dest ≠ 0 → rx.dest.toNat ≠ 63 → rx.dest.toNat ≠ s.own.val →
      exec (.relay k rx) s = exec (.erroneousCell rx.port raw) s) := by
  have same_error : ∃ e, rxError k rx = some e ∧ rawError raw = some e := by
    unfold rxError
    rcases unfit with ⟨long, error⟩ | ⟨short, header, error⟩
    · exact ⟨_, if_pos long, error⟩
    · exact ⟨_, by rw [if_neg (by omega), if_pos header], error⟩
  obtain ⟨e, rxError_eq, rawError_eq⟩ := same_error
  have same_act (o : Act → Act) (a : Act) : receive k rx o a =
      match builds (a.s.port rx.port), rawError raw with
      | true, some e => erroneous rx.port e (rawNull raw) a
      | _, _ => a := by
    unfold receive
    rw [rxError_eq, rawError_eq, notNull]
    cases builds (a.s.port rx.port) <;> rfl
  rw [exec_erroneousCell, exec_cellCommand, exec_relay]
  refine ⟨by rw [funext (same_act _)], fun notLocal notFlood notOwn => ?_⟩
  unfold run
  simp only [forAnother_iff.2 ⟨notLocal, notFlood, notOwn⟩, if_true, same_act]

theorem acts_noError (running : s.inReset = false) (error : rawError raw = none) : Acts (.erroneousCell p raw) s s [] := by
  rw [Acts, Ends, exec_erroneousCell]
  refine run_ends running ?_
  dsimp only
  rw [error]
  split
  case h_1 _ _ _ some_eq => cases some_eq
  case h_2 => rfl

theorem counted_port : (counted s p e).port p = { s.port p with rxStage := .ignoring 0 } := port_modPort_same ..

theorem changeRecord_faulted {now : Nat} {r : Port} {cause : PortCause} (up : r.state = .up) :
    changeRecord now r .faulted cause = { leftUp r with
      state := .faulted, cause := cause, noiseSince := none, quietSince := none
      trainingSince := none, lastProbe := none } := by
  rw [changeRecord, if_pos ⟨up, by decide⟩]
  rfl

/-- The port unit takes the report at an UP port: pulled, settling, health, or faulted. -/
theorem takeErrorReport_up (up : (s.port p).state = .up) (null : Bool) :
    let u (f : Port → Port) : State := (counted s p e).modPort p f
    let limit := s.store.working.threshold
    takeErrorReport p null ⟨counted s p e, []⟩ =
      if null = true ∧ (s.port p).lastNull = true then
        portLossEvent p ⟨u (fun r => darkRecord s.now .pulled (leftUp { r with settling := r.settling - 1 })),
          portReport p .dark .pulled⟩
      else if 0 < (s.port p).settling then
        ⟨u (fun r => { r with settling := r.settling - 1, lastNull := null }), []⟩
      else if (s.port p).health + 1 ≤ limit then
        ⟨u (fun r => { r with health := r.health + 1, lastNull := null }), []⟩
      else
        portLossEvent p
          ⟨u (fun r => { leftUp r with
              state := .faulted, cause := .health, health := limit, noiseSince := none, quietSince := none
              trainingSince := none, lastProbe := none }),
            portReport p .faulted .health⟩ := by
  intro u limit
  have up_counted : ((counted s p e).port p).state = .up := by rw [counted_port]; exact up
  have verdict : errorReport limit null ((counted s p e).port p) =
      if null = true ∧ (s.port p).lastNull = true then .pulled
      else if 0 < (s.port p).settling then
        .record { (counted s p e).port p with settling := (s.port p).settling - 1, lastNull := null }
      else if (s.port p).health + 1 ≤ limit then
        .record { (counted s p e).port p with health := (s.port p).health + 1, lastNull := null }
      else .faulted := by
    unfold errorReport
    rw [counted_port]
    simp only [up, ne_eq, not_true_eq_false, if_false, Bool.and_eq_true]
    repeat' split
    all_goals first | rfl | omega
  have record_eq {f : Port → Port} {r : Port} (r_eq : r = f ((counted s p e).port p)) :
      (counted s p e).modPort p (fun _ => r) = u f := modPort_congr r_eq
  unfold takeErrorReport
  show (match errorReport limit null ((counted s p e).port p) with
    | .pulled => _ | .faulted => _ | .record r => _) = _
  rw [verdict]
  by_cases pulled : null = true ∧ (s.port p).lastNull = true
  · rw [if_pos pulled, if_pos pulled]
    have up_settled : (((counted s p e).modPort p (fun r => { r with settling := r.settling - 1 })).port p).state = .up := by
      rw [port_modPort_same]
      exact up_counted
    have left_up := changePort_from_up_eq (ps := []) (f := fun r => darkRecord s.now .pulled (leftUp r)) up_settled
      (changeRecord_dark_up (cause := .pulled) up_settled)
    rw [modPort_modPort] at left_up
    exact left_up
  rw [if_neg pulled, if_neg pulled]
  by_cases settling : 0 < (s.port p).settling
  · rw [if_pos settling, if_pos settling]
    exact congrArg (Act.mk · []) (record_eq (by rw [counted_port]))
  rw [if_neg settling, if_neg settling]
  by_cases healthy : (s.port p).health + 1 ≤ limit
  · rw [if_pos healthy, if_pos healthy]
    exact congrArg (Act.mk · []) (record_eq (by rw [counted_port]))
  · rw [if_neg healthy, if_neg healthy]
    have up_limit : (((counted s p e).modPort p (fun r => { r with health := limit })).port p).state = .up := by
      rw [port_modPort_same]
      exact up_counted
    have left_up := changePort_from_up_eq (ps := []) (f := fun r => { leftUp r with
      state := .faulted, cause := .health, noiseSince := none, quietSince := none
      trainingSince := none, lastProbe := none }) up_limit (changeRecord_faulted (now := s.now) up_limit)
    rw [modPort_modPort] at left_up
    exact left_up

theorem takeErrorReport_training (training : (s.port p).state = .training) (null : Bool) :
    takeErrorReport p null ⟨counted s p e, []⟩ =
      ⟨(counted s p e).modPort p (fun r => { r with lastNull := false }), []⟩ := by
  have verdict : errorReport s.store.working.threshold null ((counted s p e).port p) =
      .record { (counted s p e).port p with lastNull := false } := by
    rw [counted_port, errorReport, if_pos (by rw [training]; decide)]
  unfold takeErrorReport
  show (match errorReport s.store.working.threshold null ((counted s p e).port p) with
    | .pulled => _ | .faulted => _ | .record r => _) = _
  rw [verdict]
  exact congrArg (Act.mk · []) (modPort_congr rfl)

/-- Settles O14: the first error by `rawError_spec`, what the port unit makes of its report by `takeErrorReport_up`. -/
theorem erroneousCell : Obligations.ErroneousCell := by
  unfold Obligations.ErroneousCell
  refine ⟨fun raw => rawError_spec, headerFits_iff, fun c => ⟨rfl, rfl, rfl, rfl⟩,
    fun k rx s raw => exec_unfit, fun s p raw => acts_noError, fun s p raw e running ready error => ?_⟩
  intro c u limit
  refine ⟨fun training => ?_, fun up => ?_⟩
  · refine ends_erroneous running ready (.inr training) error ?_
    rw [takeErrorReport_training training, counted, modPort_modPort]
  · have ends : Ends c s _ := ends_erroneous running ready (.inl up) error (takeErrorReport_up up (rawNull raw))
    simp only [counted, modPort_modPort] at ends
    unfold Acts
    revert ends
    repeat' split
    all_goals exact id

end erroneous

end Sys2Proof.ReceivedCells

/-! SUPPORT. Cells that reach no owner, relay (R13), floods (R9 to R11), and the cells of the port units (R27 to R31). -/

namespace Sys2Proof.PortCells

open Sys2Proof Sys2Proof.Machine Sys2Proof.Statements Sys2Proof.PortUnits Sys2Proof.ReceivedCells

/-! ## Cells at ports that are not UP (R4, R7, R8) -/

section notUp

variable {k : Kind} {rx : Rx} {s : State}

theorem acts_cell_deaf (running : s.inReset = false) (deaf : builds (s.port rx.port) = false) :
    Acts (cellCommand k rx) s s [] := by
  rw [Acts, Ends, exec_cellCommand]
  exact run_ends running (receive_deaf deaf)

theorem acts_relay_deaf (running : s.inReset = false) (deaf : builds (s.port rx.port) = false) :
    Acts (.relay k rx) s s [] := by
  rw [Acts, Ends, exec_relay]
  refine run_ends running ?_
  dsimp only
  rw [receive_deaf (a := ⟨s, []⟩) deaf, ite_self]

theorem builds_false (h : (s.port rx.port).state ≠ .training ∧ (s.port rx.port).state ≠ .up ∨
    (s.port rx.port).rxStage ≠ .ready) : builds (s.port rx.port) = false := by
  unfold builds
  rcases h with ⟨training, up⟩ | busy
  · simp [training, up]
  · simp [busy]

/-- The state once a TRAINING port has discarded a cell. -/
def discarded (s : State) (rx : Rx) : State :=
  (s.modPort rx.port (fun r => { r with lastNull := false })).modCounters rx.port
    (fun c => { c with trainingDiscard := c.trainingDiscard + 1 })

theorem receive_discarded (h : Arrives k rx .training s) (notPort : isPortKind k = false) (o : Act → Act) :
    receive k rx o ⟨s, []⟩ = ⟨discarded s rx, []⟩ := by
  rw [receive_training h.port h.ready h.good, notPort]
  rfl

/-- A routed cell is of no kind that a port unit takes. -/
theorem isPortKind_of_routed (good : cellWf k rx = true) (routed : rx.dest ≠ 0) : isPortKind k = false := by
  cases k
  case probe => exact absurd (dest_of_good_local good rfl rfl) routed
  case echo => exact absurd (dest_of_good_local good rfl rfl) routed
  all_goals rfl

/-- Settles O15, by what the receive stage makes of the cell. -/
theorem cellsAtPortsNotUp : Obligations.CellsAtPortsNotUp := by
  unfold Obligations.CellsAtPortsNotUp
  refine ⟨fun k rx s h probe echo => ?_, fun k rx s running h => acts_cell_deaf running (builds_false h),
    fun k rx s h notLocal notFlood notOwn => ?_, fun k rx s running h => acts_relay_deaf running (builds_false h)⟩
  · rw [Acts, Ends, exec_cellCommand]
    exact run_ends h.running (receive_discarded h (by simp [isPortKind, probe, echo]) _)
  · rw [Acts, Ends, exec_relay]
    refine run_ends h.running ?_
    dsimp only
    rw [if_pos (forAnother_iff.2 ⟨notLocal, notFlood, notOwn⟩)]
    exact receive_discarded h (isPortKind_of_routed h.good notLocal) id

end notUp

/-! ## Relay (R13) -/

section relay

variable {k : Kind} {rx : Rx} {s : State} {f : FrameNo}

theorem acts_relay {u : State} (h : Arrives k rx .up s) (notZero : f ≠ 0) (notOwn : f ≠ s.own) (dest : rx.dest.toNat = f.val)
    (relayed : relayCell (heard s rx) k rx = u) : Acts (.relay k rx) s u [] := by
  have notLocal : rx.dest ≠ 0 := by
    intro zero
    rw [zero] at dest
    exact notZero (Fin.ext dest.symm)
  have notFlood : rx.dest.toNat ≠ 63 := by
    have := f.isLt
    omega
  have notHere : rx.dest.toNat ≠ s.own.val := fun h => notOwn (Fin.ext (dest.symm.trans h))
  rw [Acts, Ends, exec_relay]
  refine run_ends h.running ?_
  dsimp only
  rw [if_pos (forAnother_iff.2 ⟨notLocal, notFlood, notHere⟩), receive_heard h, sortCell_relay notLocal notFlood notHere,
    Act.on, relayed]

/-- The relay's three tests, in their order. -/
theorem relayCell_eq (u : State) (dest : rx.dest.toNat = f.val) : relayCell u k rx =
    match (if u.own = 0 then none else u.route f) with
    | none => u.modCounters rx.port (fun c => { c with noroute := c.noroute + 1 })
    | some r =>
      if r.port = rx.port then u.modCounters rx.port (fun c => { c with reflect := c.reflect + 1 })
      else if h : rx.hops.val < 7 then
        offer u r.port ⟨{ rxCell k rx with hops := ⟨rx.hops.val + 1, Nat.succ_lt_succ h⟩ }, none⟩
      else u.modCounters rx.port (fun c => { c with hops := c.hops + 1 }) := by
  have frame : (⟨rx.dest.toNat % 32, Nat.mod_lt _ (by decide)⟩ : FrameNo) = f := by
    apply Fin.ext
    have := f.isLt
    show rx.dest.toNat % 32 = f.val
    omega
  unfold relayCell
  rw [frame]
  rfl

/-- Settles O16, test by test. -/
theorem relayTestsAndOffer : Obligations.RelayTestsAndOffer := by
  unfold Obligations.RelayTestsAndOffer
  intro k rx s f h notZero notOwn dest drop
  have acts {u : State} (relayed : relayCell (heard s rx) k rx = u) : Acts (.relay k rx) s u [] :=
    acts_relay h notZero notOwn dest relayed
  have tests := relayCell_eq (k := k) (heard s rx) dest
  have own_heard : (heard s rx).own = s.own := rfl
  have route_heard : (heard s rx).route f = s.route f := rfl
  rw [own_heard, route_heard] at tests
  refine ⟨fun unnumbered => acts ?_, fun numbered => ?_⟩
  · rw [tests, if_pos unnumbered]
  · rw [if_neg numbered] at tests
    cases route : s.route f with
    | none => exact acts (by rw [tests, route])
    | some r =>
      rw [route] at tests
      dsimp only at tests ⊢
      by_cases back : r.port = rx.port
      · rw [if_pos back] at tests ⊢
        exact acts tests
      rw [if_neg back] at tests ⊢
      by_cases more : rx.hops.val < 7
      · rw [dif_pos more] at tests ⊢
        exact acts tests
      · rw [dif_neg more] at tests ⊢
        exact acts tests

end relay

/-! ## Floods (R9 to R11) -/

section floods

variable {k : Kind} {rx : Rx} {s : State}

theorem takeFlood_own {o : Act → Act} {a : Act} (notBeacon : k ≠ .beacon) (own : rx.origin = a.s.own) :
    takeFlood k rx o a = a.on (·.modCounters rx.port (fun c => { c with own := c.own + 1 })) := by
  have notHeard : ¬ (k = .beacon ∧ rx.hops = 0) := fun h => notBeacon h.1
  unfold takeFlood
  simp only [notHeard, if_false]
  rw [if_pos own]

theorem takeFlood_old {o : Act → Act} {a : Act} (notBeacon : k ≠ .beacon) (other : rx.origin ≠ a.s.own)
    (old : isNew (floodRecord (a.s.flood.get rx.origin) k) rx.incarnation rx.floodSeq = false) :
    takeFlood k rx o a = a := by
  have notHeard : ¬ (k = .beacon ∧ rx.hops = 0) := fun h => notBeacon h.1
  unfold takeFlood
  simp only [notHeard, if_false]
  rw [if_neg other, old, if_neg (by decide), if_neg notBeacon]

theorem takeFlood_new {o : Act → Act} {a : Act} (notBeacon : k ≠ .beacon) (other : rx.origin ≠ a.s.own)
    (new : isNew (floodRecord (a.s.flood.get rx.origin) k) rx.incarnation rx.floodSeq = true) :
    takeFlood k rx o a = o (a.on (fun s => floodCopies (recordFlood s k rx) k rx)) := by
  have notHeard : ¬ (k = .beacon ∧ rx.hops = 0) := fun h => notBeacon h.1
  unfold takeFlood
  simp only [notHeard, if_false]
  rw [if_neg other, if_pos new]

theorem isNew_iff (r : FloodRecord) (i q : BitVec 16) : isNew (some r) i q = true ↔
    (r.incarnation ≠ i ∨ (1 ≤ (q - r.sequence).toNat ∧ (q - r.sequence).toNat ≤ 32767)) := by
  simp [isNew, newer]

theorem recordFlood_spec (flooded : k = .trig ∨ k = .beacon ∨ k = .roll) :
    let v := recordFlood s k rx
    floodRecord (v.flood.get rx.origin) k = some ⟨rx.incarnation, rx.floodSeq⟩ ∧
    (∀ j, j ≠ k → floodRecord (v.flood.get rx.origin) j = floodRecord (s.flood.get rx.origin) j) ∧
    (∀ f, f ≠ rx.origin → v.flood.get f = s.flood.get f) ∧ { v with flood := s.flood } = s := by
  intro v
  have row : v.flood.get rx.origin = setFloodRecord (s.flood.get rx.origin) k ⟨rx.incarnation, rx.floodSeq⟩ :=
    get_upd_same ..
  rw [row]
  refine ⟨?_, fun j other => ?_, fun f other => get_upd_other _ _ _ _ other, rfl⟩
  · rcases flooded with rfl | rfl | rfl <;> rfl
  · rcases flooded with rfl | rfl | rfl <;> cases j <;> first | rfl | exact absurd rfl other

theorem floodCopies_none (held : s.own = 0 ∨ rx.hops.val = 7) : floodCopies s k rx = s := by
  unfold floodCopies
  refine dif_neg (fun h => ?_)
  rcases held with unnumbered | hops
  · exact h.1 unnumbered
  · have : rx.hops.val < 7 := h.2
    omega

theorem floodCopies_offers (h : rx.hops.val < 7) (numbered : s.own ≠ 0) :
    floodCopies s k rx = (([0, 1, 2, 3] : List PortIx).filter (fun p =>
      decide ((s.port p).state = .up ∧ p ≠ rx.port))).foldl (fun v p =>
        offer v p ⟨{ rxCell k rx with hops := ⟨rx.hops.val + 1, Nat.succ_lt_succ h⟩ }, none⟩) s := by
  have ports : s.upPorts.filter (· != rx.port) =
      ([0, 1, 2, 3] : List PortIx).filter (fun p => decide ((s.port p).state = .up ∧ p ≠ rx.port)) := by
    unfold State.upPorts allPorts
    rw [List.filter_filter]
    refine List.filter_congr (fun p _ => ?_)
    rw [Bool.eq_iff_iff]
    simp [State.isUp, and_comm]
  unfold floodCopies
  rw [dif_pos ⟨numbered, h⟩, ports]
  rfl

/-- Settles O17: the cells that are not new by `takeFlood_own` and `takeFlood_old`, the record and the copies of a new
one. -/
theorem floodNewness : Obligations.FloodNewness := by
  unfold Obligations.FloodNewness
  refine ⟨fun k rx s kind h flooded own => ?own, fun k rx s r kind h flooded other record same old => ?old,
    fun _ _ => rfl, isNew_iff, fun _ _ _ => recordFlood_spec,
    fun k rx s => ⟨floodCopies_none, fun h numbered => floodCopies_offers h numbered⟩⟩
  case own =>
    have notBeacon : k ≠ .beacon := by rcases kind with rfl | rfl <;> decide
    have ends := ends_flooded h flooded
    rw [takeFlood_own notBeacon own] at ends
    exact ends
  case old =>
    have notBeacon : k ≠ .beacon := by rcases kind with rfl | rfl <;> decide
    have notNew : isNew (floodRecord ((heard s rx).flood.get rx.origin) k) rx.incarnation rx.floodSeq = false := by
      show isNew (floodRecord (s.flood.get rx.origin) k) _ _ = false
      rw [record, isNew, same, old]
      simp
    have ends := ends_flooded h flooded
    rw [takeFlood_old notBeacon other notNew] at ends
    exact ends

end floods

/-! ## PROBE (R27) -/

section probes

variable {rx : Rx} {s : State} {serial : Serial} {q : PortIx} {number : BitVec 8}

theorem parseProbe_unfit {b : List Byte} (unfit : b.length ≠ 8 ∨ 3 < beAt b 6 1 ∨ beAt b 0 6 = 0) :
    parseProbe b = none := by
  refine dif_neg (fun fits => ?_)
  obtain ⟨length, port, serial⟩ := fits
  omega

theorem parseProbe_fits {b : List Byte} (nonzero : serial ≠ 0) (length : b.length = 8)
    (serial_eq : beAt b 0 6 = serial.toNat) (port_eq : beAt b 6 1 = q.val) (number_eq : beAt b 7 1 = number.toNat) :
    parseProbe b = some ⟨serial, q, number⟩ := by
  have fits : b.length = 8 ∧ beAt b 6 1 < 4 ∧ beAt b 0 6 ≠ 0 := by
    refine ⟨length, by rw [port_eq]; exact q.isLt, fun zero => nonzero (BitVec.eq_of_toNat_eq ?_)⟩
    rw [← serial_eq, zero]
    rfl
  unfold parseProbe
  rw [dif_pos fits]
  simp only [serial_eq, port_eq, number_eq, BitVec.ofNat_toNat, BitVec.setWidth_eq]

theorem takeProbe_fits {a : Act} (parsed : parseProbe rx.payload = some ⟨serial, q, number⟩) :
    takeProbe rx a =
      if serial = a.s.serial then changePort rx.port .faulted .loopback a
      else if (a.s.port rx.port).state = .training then
        tryTrained rx.port (a.on (fun s =>
          sendEcho (s.modPort rx.port (learnNeighbour ⟨serial, q, number⟩ rx)) ⟨serial, q, number⟩ rx))
      else if serial ≠ (a.s.port rx.port).partnerSerial ∨ rx.incarnation ≠ (a.s.port rx.port).partnerIncarnation then
        changePort rx.port .training .changed a
      else a.on (fun s =>
        sendEcho (s.modPort rx.port (refreshNeighbour s.now ⟨serial, q, number⟩ rx)) ⟨serial, q, number⟩ rx) := by
  unfold takeProbe
  rw [parsed]

theorem refreshNeighbour_eq (now : Nat) (f : ProbeFields) (r : Port) :
    refreshNeighbour now f rx r = { r with
      partnerPort := f.port, partnerFrame := rx.origin
      silenceSince := if r.partnerFrame = rx.origin then r.silenceSince else if rx.origin = 0 then none
        else if r.partnerFrame = 0 then some now else r.silenceSince } := by
  unfold refreshNeighbour setPartnerFrame
  by_cases same : r.partnerFrame = rx.origin
  · simp only [same, if_true]
  · simp only [same, if_false]

/-- Settles O18, by the state of the port and the identity the PROBE carries. -/
theorem probeTaken : Obligations.ProbeTaken := by
  unfold Obligations.ProbeTaken
  refine ⟨fun rx s unfit => ⟨fun h => ?unfitUp, fun h => ?unfitTraining⟩,
    fun s rx serial q number dest nonzero length serial_eq port_eq number_eq => ?fits⟩
  case unfitUp =>
    have ends := ends_local h (dest_of_good_local h.good rfl rfl)
    rw [cellOwner, takeProbe, parseProbe_unfit unfit] at ends
    exact ends
  case unfitTraining =>
    have ends := ends_training h rfl (dest_of_good_local h.good rfl rfl)
    rw [cellOwner, takeProbe, parseProbe_unfit unfit] at ends
    exact ends
  case fits =>
    intro echo
    have parsed := parseProbe_fits nonzero length serial_eq port_eq number_eq
    refine ⟨fun h => ?_, fun h => ?_⟩
    · have ends := ends_training h rfl dest
      have training : ((heardTraining s rx).port rx.port).state = .training := by
        rw [heardTraining, port_modPort_same]
        exact h.port
      have own_serial : (heardTraining s rx).serial = s.serial := rfl
      rw [cellOwner, takeProbe_fits parsed] at ends
      simp only [training, own_serial, if_true] at ends
      by_cases own : serial = s.serial
      · rw [if_pos own] at ends ⊢
        have record : changeRecord (heardTraining s rx).now ((heardTraining s rx).port rx.port) .faulted .loopback =
            (fun r : Port => { r with
              state := .faulted, cause := .loopback, noiseSince := none, quietSince := none
              trainingSince := none, lastProbe := none }) ((heardTraining s rx).port rx.port) := by
          rw [changeRecord, if_neg (by rw [training]; decide)]
          rfl
        rw [changePort_from_training_eq (f := fun r : Port => { r with
          state := .faulted, cause := .loopback, noiseSince := none, quietSince := none
          trainingSince := none, lastProbe := none }) training (by decide) record, heardTraining, modPort_modPort] at ends
        exact ends
      · rw [if_neg own] at ends ⊢
        rw [Act.on, heardTraining, modPort_modPort] at ends
        exact ends
    · have ends := ends_local h dest
      have up : ((heard s rx).port rx.port).state = .up := (port_heard ..).trans h.port
      have port_eq : (heard s rx).port rx.port = goodUp (s.port rx.port) := port_modPort_same ..
      have own_serial : (heard s rx).serial = s.serial := rfl
      have serial_eq : ((heard s rx).port rx.port).partnerSerial = (s.port rx.port).partnerSerial := by rw [port_eq]; rfl
      have incarnation_eq : ((heard s rx).port rx.port).partnerIncarnation = (s.port rx.port).partnerIncarnation := by
        rw [port_eq]; rfl
      rw [cellOwner, takeProbe_fits parsed] at ends
      simp only [up, own_serial, serial_eq, incarnation_eq, reduceCtorEq, if_false] at ends
      by_cases own : serial = s.serial
      · rw [if_pos own] at ends ⊢
        rw [changePort_from_up_eq up (f := fun r => { leftUp r with
          state := .faulted, cause := .loopback, noiseSince := none, quietSince := none
          trainingSince := none, lastProbe := none }) (changeRecord_faulted up), heard, modPort_modPort] at ends
        exact ends
      · rw [if_neg own] at ends ⊢
        by_cases another : serial ≠ (s.port rx.port).partnerSerial ∨ rx.incarnation ≠ (s.port rx.port).partnerIncarnation
        · rw [if_pos another] at ends ⊢
          rw [changePort_from_up_eq up (f := fun r => trainingRecord s.now .changed (leftUp r))
            (changeRecord_training_up up), heard, modPort_modPort] at ends
          exact ends
        · rw [if_neg another] at ends ⊢
          rw [Act.on, heard, modPort_modPort] at ends
          simp only [refreshNeighbour_eq] at ends
          exact ends

end probes

/-! ## ECHO and the delay filter (R28, R31) -/

section echoes

variable {rx : Rx} {s : State} {number : BitVec 8} {turnaround : Time}

theorem parseEcho_unfit {b : List Byte} (unfit : b.length ≠ 12) : parseEcho b = none := if_neg unfit

theorem parseEcho_fits {b : List Byte} (length : b.length = 12) (number_eq : beAt b 0 1 = number.toNat)
    (turnaround_eq : beAt b 4 8 = turnaround.toNat) : parseEcho b = some ⟨number, turnaround.toNat⟩ := by
  unfold parseEcho
  rw [if_pos length, number_eq, turnaround_eq, BitVec.ofNat_toNat, BitVec.setWidth_eq]

theorem takeEcho_unfit {a : Act} (unfit : rx.payload.length ≠ 12) : takeEcho rx a = a := by
  rw [takeEcho, parseEcho_unfit unfit]

theorem takeEcho_fits {a : Act} (parsed : parseEcho rx.payload = some ⟨number, turnaround.toNat⟩) :
    takeEcho rx a = tryTrained rx.port (a.on (·.modPort rx.port (fun r =>
      completeTrip r (rx.stamp + BitVec.ofInt 64 rx.steps) ⟨number, turnaround.toNat⟩))) := by
  unfold takeEcho
  rw [parsed]
  rfl

/-- The measurement of a round trip (R28). -/
def tripMeasurement (rx : Rx) (turnaround : Time) (o : OutstandingProbe) : Int :=
  ((rx.stamp + BitVec.ofInt 64 rx.steps - o.departure - o.steps).toInt - turnaround.toNat) / 2

theorem completeTrip_match {r : Port} {o : OutstandingProbe} (outstanding : r.outstanding = some o)
    (same : o.number = number) :
    completeTrip r (rx.stamp + BitVec.ofInt 64 rx.steps) ⟨number, turnaround.toNat⟩ =
      offerMeasurement { r with outstanding := none, trips := r.trips + 1 } (tripMeasurement rx turnaround o) := by
  unfold completeTrip
  rw [outstanding]
  exact if_neg (fun h => h same)

theorem completeTrip_other {r : Port} {arrival : Time} {e : EchoFields}
    (other : ∀ o, r.outstanding = some o → o.number ≠ e.number) : completeTrip r arrival e = r := by
  unfold completeTrip
  cases outstanding : r.outstanding with
  | none => rfl
  | some o => exact if_pos (other o outstanding)

/-- A port that is not TRAINING has no training to end. -/
theorem tryTrained_up {p : PortIx} {a : Act} (up : (a.s.port p).state = .up) : tryTrained p a = a := by
  unfold tryTrained trainingDone
  rw [up]
  rfl

theorem modPort_self {s : State} {p : PortIx} {f : Port → Port} (h : f (s.port p) = s.port p) : s.modPort p f = s := by
  have ports : upd s.ports p f = s.ports := by
    rw [upd_congr (g := fun _ => s.port p) h]
    exact upd_self rfl
  rw [State.modPort, ports]

theorem offerMeasurement_state (r : Port) (m : Int) : (offerMeasurement r m).state = r.state := by
  unfold offerMeasurement
  repeat' split
  all_goals rfl

theorem completeTrip_state (r : Port) (arrival : Time) (e : EchoFields) : (completeTrip r arrival e).state = r.state := by
  unfold completeTrip
  split
  · rfl
  · split
    · rfl
    · exact offerMeasurement_state ..

theorem echo_up (h : Arrives .echo rx .up s) (dest : rx.dest = 0)
    (parsed : parseEcho rx.payload = some ⟨number, turnaround.toNat⟩) :
    Acts (.echo rx) s ((heard s rx).modPort rx.port (fun r =>
      completeTrip r (rx.stamp + BitVec.ofInt 64 rx.steps) ⟨number, turnaround.toNat⟩)) [] := by
  have ends := ends_local h dest
  rw [cellOwner, takeEcho_fits parsed, tryTrained_up] at ends
  · exact ends
  · rw [on_s, port_modPort_same, completeTrip_state]
    exact (port_heard ..).trans h.port

theorem echo_training (h : Arrives .echo rx .training s) (dest : rx.dest = 0)
    (parsed : parseEcho rx.payload = some ⟨number, turnaround.toNat⟩) :
    Ends (.echo rx) s (tryTrained rx.port ⟨(heardTraining s rx).modPort rx.port (fun r =>
      completeTrip r (rx.stamp + BitVec.ofInt 64 rx.steps) ⟨number, turnaround.toNat⟩), []⟩) := by
  have ends := ends_training h rfl dest
  rw [cellOwner, takeEcho_fits parsed] at ends
  exact ends

theorem offerMeasurement_spec (r : Port) (m : Int) :
    (m < 0 → offerMeasurement r m = { r with outliers := r.outliers + 1 }) ∧
    (0 ≤ m → r.samples.length < 4 → offerMeasurement r m = { r with samples := r.samples ++ [m.toNat] }) ∧
    (0 ≤ m → r.samples.length = 4 → (m - (r.samples.sum / 4 : Nat)).natAbs ≤ 100 →
      offerMeasurement r m = { r with samples := r.samples.drop 1 ++ [m.toNat] }) ∧
    (0 ≤ m → r.samples.length = 4 → 100 < (m - (r.samples.sum / 4 : Nat)).natAbs →
      offerMeasurement r m = { r with outliers := r.outliers + 1 }) := by
  have mean (four : r.samples.length = 4) : filteredDelay r = r.samples.sum / 4 := by
    have nonempty : r.samples ≠ [] := by
      intro empty
      rw [empty] at four
      cases four
    rw [filteredDelay, if_neg nonempty, four]
  have limit : outlierLimit = 100 := rfl
  unfold offerMeasurement
  refine ⟨fun negative => if_pos negative, fun pos few => ?_, fun pos four near => ?_, fun pos four far => ?_⟩
  · rw [if_neg (by omega), if_pos few]
  · rw [if_neg (by omega), if_neg (by omega), mean four, limit, if_pos near]
  · rw [if_neg (by omega), if_neg (by omega), mean four, limit, if_neg (by omega)]

/-- Settles O19, by the outstanding probe. -/
theorem echoAndDelayFilter : Obligations.EchoAndDelayFilter := by
  unfold Obligations.EchoAndDelayFilter
  refine ⟨fun rx s unfit => ⟨fun h => ?unfitUp, fun h => ?unfitTraining⟩,
    fun s rx number turnaround dest length number_eq turnaround_eq => ?fits, offerMeasurement_spec⟩
  case unfitUp =>
    have ends := ends_local h (dest_of_good_local h.good rfl rfl)
    rw [cellOwner, takeEcho_unfit unfit] at ends
    exact ends
  case unfitTraining =>
    have ends := ends_training h rfl (dest_of_good_local h.good rfl rfl)
    rw [cellOwner, takeEcho_unfit unfit] at ends
    exact ends
  case fits =>
    intro m
    have parsed := parseEcho_fits length number_eq turnaround_eq
    refine ⟨fun h => ?_, fun h => ⟨fun o outstanding same => ?_, fun other => ?_⟩⟩
    · have ends := echo_up h dest parsed
      have outstanding_heard : ((heard s rx).port rx.port).outstanding = (s.port rx.port).outstanding := by
        rw [heard, port_modPort_same]
        rfl
      have unchanged (other : ∀ o, (s.port rx.port).outstanding = some o → o.number ≠ number) :
          Acts (.echo rx) s (heard s rx) [] := by
        rw [modPort_self (completeTrip_other (by rw [outstanding_heard]; exact other))] at ends
        exact ends
      cases outstanding : (s.port rx.port).outstanding with
      | none => exact unchanged (fun o some_eq => by rw [outstanding] at some_eq; cases some_eq)
      | some o =>
        dsimp only
        split
        case isTrue same =>
          rw [outstanding] at outstanding_heard
          rw [modPort_congr (g := fun r => offerMeasurement { r with outstanding := none, trips := r.trips + 1 } (m o))
            (completeTrip_match outstanding_heard same)] at ends
          exact ends
        case isFalse other =>
          refine unchanged (fun o' some_eq => ?_)
          rw [outstanding] at some_eq
          cases some_eq
          exact other
    · have ends := echo_training h dest parsed
      rw [heardTraining, modPort_modPort] at ends
      rw [modPort_congr (g := fun r => offerMeasurement
        { r with lastNull := false, outstanding := none, trips := r.trips + 1 } (m o))
        (completeTrip_match (r := { s.port rx.port with lastNull := false }) outstanding same)] at ends
      exact ends
    · have ends := echo_training h dest parsed
      rw [heardTraining, modPort_modPort] at ends
      rw [modPort_congr (g := fun r => { r with lastNull := false })
        (completeTrip_other (r := { s.port rx.port with lastNull := false }) other)] at ends
      exact ends

end echoes

/-! ## The end of training (R29, R40) -/

theorem trainingDone_iff {now t : Nat} {r : Port} (training : r.state = .training) (since : r.trainingSince = some t) :
    trainingDone now r = true ↔ r.lock = true ∧ 2 ≤ r.trips ∧ r.partnerSerial ≠ 0 ∧ now ≤ t + trainingLimit := by
  simp [trainingDone, training, since, and_assoc]

/-- The record of a port that enters UP at a moment (R29). -/
def trainedRecord (now : Nat) (r : Port) : Port :=
  { r with
    state := .up, cause := .trained, settling := 4, health := 0, lastNull := false, trainingSince := none
    silenceSince := if r.partnerFrame = 0 then none else some now }

/-- Settles O20: the four conditions are `trainingDone`, and the change to UP is a port-gained event. -/
theorem trainingSucceeds : Obligations.TrainingSucceeds := by
  unfold Obligations.TrainingSucceeds
  intro s p t posts training since
  have record : changeRecord s.now (s.port p) .up .trained = trainedRecord s.now (s.port p) := by
    rw [changeRecord, if_neg (fun h => h.2 rfl)]
    rfl
  unfold tryTrained
  simp only [trainingDone_iff training since]
  refine ite_congr rfl (fun _ => ?_) (fun _ => rfl)
  rw [changePort_to_up (by rw [training]; decide), changed_eq record]
  rfl

end Sys2Proof.PortCells

/-! SUPPORT. What the exchange unit writes by itself (10): runs of bytes in host memory, notice lanes with their faults,
mirrors and Stream Status entries, and what the end of an act can change. -/

namespace Sys2Proof.Delivery

open Sys2Proof Sys2Proof.Machine Sys2Proof.Statements

/-! ## Runs of bytes -/

theorem writeHost_stored {s : State} {a : Nat} {bs : List Byte} (h : Writable s.mem a bs.length) :
    ∃ m, Stored s.mem m a bs ∧ writeHost s a bs = .ok { s with mem := m } :=
  ⟨_, ⟨memByte_store s.mem a bs, rfl, rfl⟩, writeHost_ok h⟩

theorem writeHost_fault {s : State} {a x : Nat} {bs : List Byte} (h : firstFault s.mem.writeFaults a bs.length = some x) :
    writeHost s a bs = .error x := writeHost_error h

/-- What can fault is as before where bytes are stored. -/
theorem stored_firstFault {m m' : Memory} {a : Nat} {bs : List Byte} (h : Stored m m' a bs) (b len : Nat) :
    firstFault m'.writeFaults b len = firstFault m.writeFaults b len := by rw [h.writeFaults]

/-- A byte stored just below a run makes the run longer. -/
theorem stored_cons {m m' m'' : Memory} {a : Nat} {b : Byte} {bs : List Byte} (tail : Stored m m' (a + 1) bs)
    (head : Stored m' m'' a [b]) : Stored m m'' a (b :: bs) where
  bytes x := by
    rw [head.bytes, tail.bytes]
    simp only [List.length_cons, List.length_nil]
    by_cases first : x = a
    · subst first
      simp
    · rw [if_neg (by omega)]
      by_cases inside : a + 1 ≤ x ∧ x < a + 1 + bs.length
      · obtain ⟨i, rfl⟩ : ∃ i, x = a + 1 + i := ⟨x - (a + 1), by omega⟩
        rw [if_pos inside, if_pos (by omega)]
        have shift : a + 1 + i - a = i + 1 := by omega
        rw [shift, Nat.add_sub_cancel_left, List.getD_cons_succ]
      · rw [if_neg inside, if_neg (by omega)]
  readFaults := head.readFaults.trans tail.readFaults
  writeFaults := head.writeFaults.trans tail.writeFaults

/-- A write inside a run that does not fault does not fault. -/
theorem writable_sub {m : Memory} {a len b n : Nat} (h : Writable m a len) (low : a ≤ b) (high : b + n ≤ a + len) :
    Writable m b n := firstFault_sub h low high

theorem writeRuns_two {s : State} {a b : Nat} {as bs : List Byte} :
    (∀ x, firstFault s.mem.writeFaults a as.length = some x → writeRuns s [(a, as), (b, bs)] = (s, some x)) ∧
    (Writable s.mem a as.length → ∃ m, Stored s.mem m a as ∧
      (∀ x, firstFault s.mem.writeFaults b bs.length = some x →
        writeRuns s [(a, as), (b, bs)] = ({ s with mem := m }, some x)) ∧
      (Writable s.mem b bs.length → ∃ m', Stored m m' b bs ∧
        writeRuns s [(a, as), (b, bs)] = ({ s with mem := m' }, none))) := by
  refine ⟨fun x fault => ?_, fun first => ?_⟩
  · rw [writeRuns, writeHost_fault fault]
  · obtain ⟨m, stored, written⟩ := writeHost_stored first
    refine ⟨m, stored, fun x fault => ?_, fun second => ?_⟩
    · have fault' : firstFault ({ s with mem := m } : State).mem.writeFaults b bs.length = some x := by
        rw [← fault]
        exact stored_firstFault stored _ _
      rw [writeRuns, written]
      dsimp only
      rw [writeRuns, writeHost_fault fault']
    · have second' : Writable ({ s with mem := m } : State).mem b bs.length := (stored_firstFault stored _ _).trans second
      obtain ⟨m', stored', written'⟩ := writeHost_stored second'
      refine ⟨m', stored', ?_⟩
      rw [writeRuns, written]
      dsimp only
      rw [writeRuns, written']
      rfl

/-! ## Notice lanes (R176) -/

theorem length_noticeFields_le (n : Notice) : (noticeFields n).length ≤ 56 := by
  cases n <;> simp only [noticeFields, List.length_append, length_leBytes, length_zeros] <;> decide

theorem length_padTo {n : Nat} {bs : List Byte} (h : bs.length ≤ n) : (padTo n bs).length = n := by
  simp only [padTo, List.length_append, length_zeros]
  omega

/-- A lane record behind its flag. -/
def laneBody (p : PendingNotice) : List Byte := leBytes 1 p.merges ++ zeros 6 ++ padTo 56 (noticeFields p.notice)

theorem length_laneBody (p : PendingNotice) : (laneBody p).length = 63 := by
  simp only [laneBody, List.length_append, length_leBytes, length_zeros, length_padTo (length_noticeFields_le p.notice)]

theorem laneRecord_eq (p : PendingNotice) :
    leBytes 1 1 ++ leBytes 1 p.merges ++ zeros 6 ++ padTo 56 (noticeFields p.notice) = 1#8 :: laneBody p := by
  rw [List.append_assoc, List.append_assoc, laneBody, List.append_assoc]
  rfl

section lanes

variable {s : State} {k : NoticeIx} {n : Notice}

theorem laneTake_full (full : (s.ex.lanes.get k).full = true) :
    laneTake s k n = (setLane s k ⟨true, some (joinPending (s.ex.lanes.get k).pending n)⟩, none) := by
  rw [laneTake, full]
  rfl

theorem laneTake_empty (empty : (s.ex.lanes.get k).full = false) :
    laneTake s k n = writeLane s k (joinPending (s.ex.lanes.get k).pending n) := by
  rw [laneTake, empty]
  rfl

theorem writeLane_fits {p : PendingNotice} (fits : Writable s.mem (laneAddress s k) 64) :
    ∃ m, Stored s.mem m (laneAddress s k)
        (leBytes 1 1 ++ leBytes 1 p.merges ++ zeros 6 ++ padTo 56 (noticeFields p.notice)) ∧
      writeLane s k p = ({ setLane s k ⟨true, none⟩ with mem := m }, none) := by
  have body : Writable s.mem (laneAddress s k + 1) (laneBody p).length :=
    writable_sub fits (by omega) (length_laneBody p ▸ Nat.le_refl _)
  have flag : Writable s.mem (laneAddress s k) (leBytes 1 1).length := writable_sub fits (Nat.le_refl _) (by simp)
  obtain ⟨m, storedBody, _, thenFlag⟩ := writeRuns_two.2 body
  obtain ⟨m', storedFlag, written⟩ := thenFlag flag
  refine ⟨m', laneRecord_eq p ▸ stored_cons storedBody storedFlag, ?_⟩
  unfold writeLane laneRuns
  rw [← laneBody, written]
  rfl

theorem writeLane_bodyFault {p : PendingNotice} {x : Nat}
    (fault : firstFault s.mem.writeFaults (laneAddress s k + 1) 63 = some x) :
    writeLane s k p = (setLane s k ⟨false, some p⟩, some x) := by
  rw [← length_laneBody p] at fault
  unfold writeLane laneRuns
  rw [← laneBody, writeRuns_two.1 x fault]

theorem writeLane_flagFault {p : PendingNotice} {x : Nat} (body : Writable s.mem (laneAddress s k + 1) 63)
    (fault : firstFault s.mem.writeFaults (laneAddress s k) 1 = some x) :
    ∃ m, Stored s.mem m (laneAddress s k + 1)
        (leBytes 1 p.merges ++ zeros 6 ++ padTo 56 (noticeFields p.notice)) ∧
      writeLane s k p = ({ setLane s k ⟨false, some p⟩ with mem := m }, some x) := by
  rw [← length_laneBody p] at body
  obtain ⟨m, stored, flagFault, _⟩ := writeRuns_two (b := laneAddress s k) (bs := leBytes 1 1) |>.2 body
  refine ⟨m, stored, ?_⟩
  unfold writeLane laneRuns
  rw [← laneBody, flagFault x fault]
  rfl

/-- The state in which a lane takes a notice: an ERRORS notice is counted first (R193). -/
def lanePosted (s : State) (n : Notice) : State :=
  if noticeLane n = 11 then s.modEx (fun e => { e with errorsPosted := e.errorsPosted + 1 }) else s

theorem lanePosted_lanes (s : State) (n : Notice) : (lanePosted s n).ex.lanes = s.ex.lanes := by
  unfold lanePosted
  split <;> rfl

theorem lanePosted_mem (s : State) (n : Notice) : (lanePosted s n).mem = s.mem := by
  unfold lanePosted
  split <;> rfl

theorem lanePosted_address (s : State) (n : Notice) (k : NoticeIx) : laneAddress (lanePosted s n) k = laneAddress s k := by
  unfold lanePosted
  split <;> rfl

theorem lanePosted_other (h : noticeLane n ≠ 11) : lanePosted s n = s := if_neg h

theorem takeNotice_closed (closed : s.memOpen = false) : takeNotice s n = s := by
  unfold takeNotice takeErrors
  dsimp only
  rw [closed, if_pos rfl, if_pos rfl, ite_self]

/-- A notice at an open exchange: its lane takes it, and a fault is judged by the lane. -/
theorem takeNotice_open (isOpen : s.memOpen = true) : takeNotice s n =
    match laneTake (lanePosted s n) (noticeLane n) n with
    | (t, none) => t
    | (t, some x) => if noticeLane n = 11 then enterBroken t
      else takeNotice t (.errors .memoryFault .memoryFault .laneWrite (BitVec.ofNat 64 x) 1) := by
  unfold takeNotice takeErrors
  simp only [isOpen, Bool.true_eq_false, if_false]
  by_cases errors : noticeLane n = errorsLane
  · have posted : lanePosted s n = s.modEx (fun e => { e with errorsPosted := e.errorsPosted + 1 }) := if_pos errors
    rw [posted, errors, if_pos rfl]
    generalize laneTake (s.modEx _) errorsLane n = r
    obtain ⟨t, _ | x⟩ := r <;> rfl
  · have other : noticeLane n ≠ 11 := errors
    rw [lanePosted_other errors, if_neg errors]
    generalize laneTake s (noticeLane n) n = r
    obtain ⟨t, _ | x⟩ := r
    · rfl
    · dsimp only [laneFault]
      rw [if_neg errors, if_neg other]
      rfl

/-- A notice that its lane takes. -/
theorem takeNotice_taken {t : State} (isOpen : s.memOpen = true)
    (taken : laneTake (lanePosted s n) (noticeLane n) n = (t, none)) : takeNotice s n = t := by
  rw [takeNotice_open isOpen, taken]

/-- A notice whose lane write faults. -/
theorem takeNotice_fault {t : State} {x : Nat} (isOpen : s.memOpen = true)
    (fault : laneTake (lanePosted s n) (noticeLane n) n = (t, some x)) :
    takeNotice s n = if noticeLane n = 11 then enterBroken t
      else takeNotice t (.errors .memoryFault .memoryFault .laneWrite (BitVec.ofNat 64 x) 1) := by
  rw [takeNotice_open isOpen, fault]

end lanes

/-- A notice at its lane, by what the lane holds and where a write faults. -/
theorem takeNotice_spec (s : State) (n : Notice) :
    let k := noticeLane n
    let b := s.ex.lanes.get k
    let base := areaBase s + 0x400 + 0x40 * k.val
    let p : PendingNotice := match b.pending with
      | none => ⟨n, 0⟩
      | some p => ⟨mergeNotice p.notice n, min (p.merges + 1) 255⟩
    let v := if k = 11 then s.modEx (fun e => { e with errorsPosted := e.errorsPosted + 1 }) else s
    (s.memOpen = false → takeNotice s n = s) ∧
    (s.memOpen = true → b.full = true → takeNotice s n = setLane v k ⟨true, some p⟩) ∧
    (s.memOpen = true → b.full = false → Writable s.mem base 64 →
      ∃ m, Stored s.mem m base
          (leBytes 1 1 ++ leBytes 1 p.merges ++ zeros 6 ++ padTo 56 (noticeFields p.notice)) ∧
        takeNotice s n = { setLane v k ⟨true, none⟩ with mem := m }) ∧
    let stops (m : Memory) (x : Nat) : Prop :=
      if k = 11 then takeNotice s n = enterBroken { setLane v k ⟨false, some p⟩ with mem := m }
      else takeNotice s n = takeNotice { setLane s k ⟨false, some p⟩ with mem := m }
        (.errors .memoryFault .memoryFault .laneWrite (BitVec.ofNat 64 x) 1)
    (∀ x, s.memOpen = true → b.full = false → firstFault s.mem.writeFaults (base + 1) 63 = some x → stops s.mem x) ∧
    (∀ x, s.memOpen = true → b.full = false → Writable s.mem (base + 1) 63 →
      firstFault s.mem.writeFaults base 1 = some x →
      ∃ m, Stored s.mem m (base + 1) (leBytes 1 p.merges ++ zeros 6 ++ padTo 56 (noticeFields p.notice)) ∧ stops m x) := by
  intro k b base p v
  have v_eq : v = lanePosted s n := rfl
  have v_lanes : v.ex.lanes.get k = b := by rw [v_eq, lanePosted_lanes]
  have v_mem : v.mem = s.mem := lanePosted_mem s n
  have base_eq : laneAddress v k = base := lanePosted_address s n k
  have empty_eq (empty : b.full = false) : laneTake v k n = writeLane v k p := by
    rw [laneTake_empty (by rw [v_lanes]; exact empty), v_lanes]
    rfl
  refine ⟨takeNotice_closed, fun isOpen full => ?full, fun isOpen empty fits => ?fits, ?faults⟩
  case full =>
    refine takeNotice_taken isOpen ?_
    show laneTake v k n = _
    rw [laneTake_full (by rw [v_lanes]; exact full), v_lanes]
    rfl
  case fits =>
    rw [← base_eq, ← v_mem] at fits
    obtain ⟨m, stored, written⟩ := writeLane_fits (p := p) fits
    rw [base_eq, v_mem] at stored
    exact ⟨m, stored, takeNotice_taken isOpen ((empty_eq empty).trans written)⟩
  case faults =>
    intro stops
    have stops_of {m : Memory} {x : Nat} (isOpen : s.memOpen = true)
        (fault : laneTake v k n = ({ setLane v k ⟨false, some p⟩ with mem := m }, some x)) : stops m x := by
      have taken := takeNotice_fault isOpen fault
      show if k = 11 then _ else _
      by_cases errors : k = 11
      · rw [if_pos errors] at taken ⊢
        exact taken
      · have v_self : v = s := if_neg errors
        rw [if_neg errors, v_self] at taken
        rw [if_neg errors]
        exact taken
    refine ⟨fun x isOpen empty fault => ?_, fun x isOpen empty body fault => ?_⟩
    · rw [← base_eq, ← v_mem] at fault
      refine stops_of isOpen ?_
      rw [empty_eq empty, writeLane_bodyFault fault, ← v_mem]
      rfl
    · rw [← base_eq, ← v_mem] at fault body
      obtain ⟨m, stored, written⟩ := writeLane_flagFault (p := p) body fault
      rw [base_eq, v_mem] at stored
      exact ⟨m, stored, stops_of isOpen ((empty_eq empty).trans written)⟩

/-- Settles O23: `takeNotice_spec`, and the lane and fields of each notice. -/
theorem noticeLanes : Obligations.NoticeLanes := by
  unfold Obligations.NoticeLanes
  refine ⟨takeNotice_spec, ?_⟩
  intro lane
  exact ⟨fun _ _ _ => ⟨rfl, rfl⟩, fun _ _ _ _ => ⟨rfl, rfl⟩, fun _ _ _ _ => ⟨rfl, rfl⟩, fun _ _ _ _ => ⟨rfl, rfl⟩,
    fun _ _ _ _ _ _ _ => ⟨rfl, rfl⟩, fun _ => ⟨rfl, rfl⟩, fun _ => ⟨rfl, rfl⟩, fun _ _ => ⟨rfl, rfl⟩,
    fun _ _ _ _ _ => ⟨rfl, rfl⟩, rfl, rfl⟩

/-! ## Writes of the area (R149, R180) -/

section area

variable {s : State} {w : What} {a : Nat} {bs : List Byte}

theorem writeArea_fits (isOpen : s.memOpen = true) (fits : Writable s.mem a bs.length) :
    ∃ m, Stored s.mem m a bs ∧ writeArea s w a bs = { s with mem := m } := by
  obtain ⟨m, stored, written⟩ := writeHost_stored fits
  refine ⟨m, stored, ?_⟩
  rw [writeArea, isOpen, if_neg (by decide), written]

theorem writeArea_fault {x : Nat} (isOpen : s.memOpen = true) (fault : firstFault s.mem.writeFaults a bs.length = some x) :
    writeArea s w a bs = takeNotice s (.errors .memoryFault .memoryFault w (BitVec.ofNat 64 x) 1) := by
  rw [writeArea, isOpen, if_neg (by decide), writeHost_fault fault]
  rfl

end area

theorem counterBytes_eq (cs : List Count) : counterBytes cs = cs.flatMap (fun c => leBytes 4 c.toNat) :=
  (List.flatMap_def ..).symm

theorem length_counterBytes (cs : List Count) : (counterBytes cs).length = 4 * cs.length := by
  rw [counterBytes_eq]
  induction cs with
  | nil => rfl
  | cons c cs ih =>
    rw [List.flatMap_cons, List.length_append, ih, length_leBytes, List.length_cons]
    omega

theorem padTo_eq {n k : Nat} {bs : List Byte} (h : bs.length + k = n) : padTo n bs = bs ++ zeros k := by
  have rest : n - bs.length = k := by omega
  rw [padTo, rest]

theorem statusBytes_eq (x : Slot) : statusBytes x =
    leBytes 1 (roleCode x.role) ++ leBytes 1 (streamStateCode x.state) ++ leBytes 1 (streamCauseCode x.cause) ++
      leBytes 1 (flagCode x.selfHalt + 2 * flagCode x.peerHalt) ++ leBytes 2 x.tag.toNat ++ leBytes 1 x.peer.val ++
      zeros 1 ++ leBytes 2 (if x.openAbsent then 0 else x.openNumber.toNat) ++ leBytes 1 x.unresolved ++ zeros 1 ++
      leBytes 4 x.creditLimit.toNat ++ leBytes 4 x.released.toNat ++ leBytes 4 x.releaseMark.toNat ++
      leBytes 4 x.doneCount.toNat ++ zeros 4 := by
  refine padTo_eq ?_
  simp only [List.length_append, length_leBytes, length_zeros]

theorem length_statusBytes (x : Slot) : (statusBytes x).length = 32 := by
  rw [statusBytes_eq]
  simp only [List.length_append, length_leBytes, length_zeros]

theorem portEntryBytes_eq (s : State) (p : PortIx) :
    let r := s.port p
    let c := (s.link p).counters
    portEntryBytes s p = leBytes 1 (portStateCode r.state) ++ leBytes 1 (portCauseCode r.cause) ++
      leBytes 1 r.health ++ leBytes 1 r.partnerFrame.val ++
      leBytes 4 (if r.samples = [] then 0 else r.samples.sum / r.samples.length) ++ leBytes 8 r.partnerSerial.toNat ++
      [c.delimit, c.length, c.check, c.kind, c.trainingDiscard, c.own, c.noroute, c.reflect, c.hops, c.tDrops,
        c.cDrops, c.dDrops, c.flush, c.reroute].flatMap (fun c => leBytes 4 c.toNat) ++ zeros 8 := by
  intro r c
  rw [← counterBytes_eq]
  refine padTo_eq ?_
  have counters : (portCounterBytes (s.link p).counters).length = 56 := length_counterBytes _
  simp only [List.length_append, length_leBytes, counters]

theorem length_portEntryBytes (s : State) (p : PortIx) : (portEntryBytes s p).length = 80 := by
  rw [portEntryBytes_eq, ← counterBytes_eq]
  simp only [List.length_append, length_leBytes, length_zeros, length_counterBytes, List.length_cons, List.length_nil]

theorem counterBlock_eq (s : State) :
    let r := s.reach.counters
    let o := s.roster.counters
    let t := s.tb.counters
    let g := s.trig.counters
    let n := s.notes.counters
    counterBlock s = [r.learned, r.improved, r.late, r.stale, r.far, r.malformed, r.conflict, r.lost,
       o.helloForwarded, o.helloDropped, o.verdictForwarded, o.verdictDropped, o.leaveDropped, o.rollIgnored,
       t.accepted, t.ignored, t.far, t.nodelay, t.held, t.excursion, t.steps, t.losses, t.gaps,
       g.fired, g.late, g.dropped, g.merged, g.localOnly, g.outputOff, g.trigIgnored, g.trigMalformed, g.mutedEdge,
       g.cancelled, n.sent, n.accepted, n.busy, n.notAttached, n.refused, n.malformed, n.unconfirmed, n.ignored,
       s.ex.ordersDone, s.ex.ordersFailed, s.ex.errorsPosted, s.stream.unmatched].flatMap (fun c => leBytes 4 c.toNat) := by
  intro r o t g n
  simp only [counterBlock, reachCounterBytes, rosterCounterBytes, timeCounterBytes, triggerCounterBytes, noteCounterBytes,
    counterBytes_eq, ← List.flatMap_append, List.cons_append, List.nil_append]
  rfl

theorem length_counterBlock (s : State) : (counterBlock s).length = 180 := by
  rw [counterBlock_eq, ← counterBytes_eq, length_counterBytes]
  rfl

theorem upstreamPort_value (s : State) : portValue (upstreamPort s) =
    match (if s.tb.master = 0 ∨ s.tb.master = s.own then none else s.route s.tb.master) with
    | some r => r.port.val
    | none => 0xFF := by
  unfold upstreamPort
  by_cases noUpstream : s.tb.master = 0 ∨ s.tb.master = s.own
  · rw [if_pos noUpstream, if_pos noUpstream]
    rfl
  · rw [if_neg noUpstream, if_neg noUpstream]
    cases s.route s.tb.master <;> rfl

theorem timebaseSummaryBytes_eq (s : State) : timebaseSummaryBytes s =
    leBytes 1 (timeStateCode s.tb.state) ++ leBytes 1 s.tb.master.val ++
      leBytes 1 (match (if s.tb.master = 0 ∨ s.tb.master = s.own then none else s.route s.tb.master) with
        | some r => r.port.val
        | none => 0xFF) ++
      leBytes 1 (s.tb.distance.getD 0xFF) ++ leBytes 1 (flagCode s.tb.lastOffset.isSome) ++ zeros 3 ++
      leBytes 8 (BitVec.ofInt 64 (s.tb.lastOffset.getD 0)).toNat := by
  rw [← upstreamPort_value]
  rfl

/-- Where a mirror ends in the Exchange Area. -/
theorem mirror_inside (s : State) (m : Mirror) : mirrorOffset m + (mirrorBytes s m).length ≤ 0x1800 := by
  cases m with
  | port p =>
    have := p.isLt
    show 0x40 + 0x50 * p.val + (portEntryBytes s p).length ≤ _
    rw [length_portEntryBytes]
    omega
  | roster =>
    show 0x20 + (rosterSummaryBytes s).length ≤ _
    simp only [rosterSummaryBytes, List.length_append, length_leBytes]
    omega
  | timebase =>
    show 0x28 + (timebaseSummaryBytes s).length ≤ _
    simp only [timebaseSummaryBytes, List.length_append, length_leBytes, length_zeros]
    omega
  | origin =>
    show 0x18 + (originBytes s.store).length ≤ _
    rw [originBytes, length_leBytes]
    omega
  | counters =>
    show 0x180 + (counterBlock s).length ≤ _
    rw [length_counterBlock]
    omega

/-! ## What the delivery changes -/

/-- Memory `m'` is `m` but for the bytes of the Exchange Area at a base. -/
structure AreaOnly (base : Nat) (m m' : Memory) : Prop where
  outside : ∀ a, (a < base ∨ base + 0x1800 ≤ a) → memByte m' a = memByte m a
  readFaults : m'.readFaults = m.readFaults
  writeFaults : m'.writeFaults = m.writeFaults

theorem AreaOnly.refl (base : Nat) (m : Memory) : AreaOnly base m m := ⟨fun _ _ => rfl, rfl, rfl⟩

theorem AreaOnly.trans {base : Nat} {m m' m'' : Memory} (h : AreaOnly base m m') (k : AreaOnly base m' m'') :
    AreaOnly base m m'' :=
  ⟨fun a out => (k.outside a out).trans (h.outside a out), k.readFaults.trans h.readFaults,
    k.writeFaults.trans h.writeFaults⟩

/-- `t` is `u` but for the lanes, the count of errors and memory inside the Exchange Area. -/
structure Touches (u t : State) : Prop where
  only : OnlyExchange u t
  exchange : { t.ex with lanes := u.ex.lanes, errorsPosted := u.ex.errorsPosted } = u.ex
  memory : AreaOnly (areaBase u) u.mem t.mem

/-- From an open exchange `u` the exchange has come to BROKEN in `t`. -/
structure Breaks (u t : State) : Prop where
  fromOpen : u.memOpen = true
  broken : t.ex.state = .broken
  delivers : Delivers u t
  memory : AreaOnly (areaBase u) u.mem t.mem

/-- What the delivery of posts can make of a state. -/
def Delivered (u t : State) : Prop := Touches u t ∨ Breaks u t

theorem Touches.refl (u : State) : Touches u u := ⟨rfl, rfl, .refl _ _⟩

theorem Touches.area {u t : State} (h : Touches u t) : t.ex.area = u.ex.area :=
  (congrArg Exchange.area h.exchange :)

theorem Touches.state {u t : State} (h : Touches u t) : t.ex.state = u.ex.state :=
  (congrArg Exchange.state h.exchange :)

theorem Touches.areaBase {u t : State} (h : Touches u t) : areaBase t = areaBase u := by
  unfold Machine.areaBase
  rw [h.area]

theorem Touches.memOpen {u t : State} (h : Touches u t) : t.memOpen = u.memOpen := by
  unfold State.memOpen
  rw [h.state]

theorem Touches.trans {s t u : State} (h : Touches s t) (k : Touches t u) : Touches s u where
  only := h.only.trans k.only
  exchange := by
    rw [← h.exchange]
    exact congrArg (fun e : Exchange => { e with lanes := s.ex.lanes, errorsPosted := s.ex.errorsPosted }) k.exchange
  memory := h.memory.trans (h.areaBase ▸ k.memory)

theorem Touches.breaks {s t u : State} (h : Touches s t) (k : Breaks t u) : Breaks s u where
  fromOpen := h.memOpen ▸ k.fromOpen
  broken := k.broken
  delivers := h.only.delivers.trans k.delivers
  memory := h.memory.trans (h.areaBase ▸ k.memory)

theorem Touches.delivered {s t u : State} (h : Touches s t) (k : Delivered t u) : Delivered s u :=
  k.imp h.trans h.breaks

/-- Bytes written inside the Exchange Area. -/
theorem touches_writeHost {s t : State} {off : Nat} {bs : List Byte} (inside : off + bs.length ≤ 0x1800)
    (written : writeHost s (areaBase s + off) bs = .ok t) : Touches s t := by
  unfold writeHost at written
  split at written
  · cases written
  · next m memWritten =>
    cases written
    refine ⟨rfl, rfl, fun a out => ?_, ?_, ?_⟩
    · rw [memByte_memWrite _ _ _ _ memWritten, if_neg (by omega)]
    all_goals
      unfold memWrite at memWritten
      split at memWritten
      · cases memWritten
      · cases memWritten
        rfl

theorem touches_setLane (s : State) (k : NoticeIx) (b : LaneBelief) : Touches s (setLane s k b) := ⟨rfl, rfl, .refl _ _⟩

/-- A lane's record lies in the Exchange Area. -/
theorem touches_writeRuns_lane (s : State) (k : NoticeIx) (p : PendingNotice) :
    Touches s (writeRuns s (laneRuns s k p)).1 := by
  have low := k.isLt
  unfold laneRuns
  rw [← laneBody, writeRuns]
  have body_at : laneAddress s k + 1 = areaBase s + (0x400 + 0x40 * k.val + 1) := by unfold laneAddress; omega
  have flag_at : laneAddress s k = areaBase s + (0x400 + 0x40 * k.val) := by unfold laneAddress; omega
  split
  · exact .refl s
  · next t written =>
    rw [body_at] at written
    have body := touches_writeHost (by rw [length_laneBody]; omega) written
    rw [writeRuns, flag_at, ← body.areaBase]
    split
    · exact body
    · next u written' =>
      exact body.trans (touches_writeHost (by rw [length_leBytes]; omega) written')

theorem touches_laneTake (s : State) (k : NoticeIx) (n : Notice) : Touches s (laneTake s k n).1 := by
  unfold laneTake writeLane
  dsimp only
  have runs := touches_writeRuns_lane s k (joinPending (s.ex.lanes.get k).pending n)
  split
  · exact touches_setLane ..
  · split <;>
    · next e =>
      rw [e] at runs
      exact runs.trans (touches_setLane ..)

theorem sendSlotCell_mem (s : State) (n : SlotIx) (k : Kind) (b : List Byte) (w : BitVec 32) :
    (sendSlotCell s n k b w).mem = s.mem := by
  unfold sendSlotCell
  dsimp only
  split <;> rfl

theorem closeForExchange_mem (r : CloseReason) (c : StreamCause) (s : State) (n : SlotIx) :
    (closeForExchange r c s n).mem = s.mem := by
  unfold closeForExchange
  dsimp only
  split
  · rfl
  · split
    · rfl
    · exact sendSlotCell_mem ..

theorem closeAllForExchange_mem (r : CloseReason) (c : StreamCause) (s : State) :
    (closeAllForExchange r c s).mem = s.mem := by
  unfold closeAllForExchange
  induction allSlots generalizing s with
  | nil => rfl
  | cons n ns ih => rw [List.foldl_cons, ih, closeForExchange_mem]

theorem breaks_enterBroken {s : State} (isOpen : s.memOpen = true) : Breaks s (enterBroken s) where
  fromOpen := isOpen
  broken := rfl
  delivers := enterBroken_delivers s
  memory := by
    have same : (enterBroken s).mem = s.mem := by
      rw [enterBroken, modEx_mem, closeAllForExchange_mem]
      rfl
    rw [same]
    exact .refl _ _

theorem delivered_takeErrors (s : State) (n : Notice) : Delivered s (takeErrors s n) := by
  unfold takeErrors
  split
  case isTrue => exact .inl (.refl s)
  case isFalse notClosed =>
    have isOpen : s.memOpen = true := by simpa using notClosed
    let v := s.modEx (fun e => { e with errorsPosted := e.errorsPosted + 1 })
    have counted : Touches s v := ⟨rfl, rfl, .refl _ _⟩
    have taken := counted.trans (touches_laneTake v errorsLane n)
    split
    case h_1 e =>
      rw [e] at taken
      exact .inl taken
    case h_2 t x e =>
      rw [e] at taken
      have broke : Breaks t (enterBroken t) := breaks_enterBroken (taken.memOpen.trans isOpen)
      exact .inr (taken.breaks broke)

theorem delivered_takeNotice (s : State) (n : Notice) : Delivered s (takeNotice s n) := by
  unfold takeNotice
  dsimp only
  split
  · exact delivered_takeErrors s n
  · split
    · exact .inl (.refl s)
    · next notErrors notClosed =>
      have taken := touches_laneTake s (noticeLane n) n
      cases took : laneTake s (noticeLane n) n with
      | mk t fault =>
        rw [took] at taken
        cases fault with
        | none => exact .inl taken
        | some x =>
          rw [laneFault, if_neg notErrors]
          exact taken.delivered (delivered_takeErrors ..)

theorem delivered_writeArea {s : State} {w : What} {off : Nat} {bs : List Byte} (inside : off + bs.length ≤ 0x1800) :
    Delivered s (writeArea s w (areaBase s + off) bs) := by
  unfold writeArea
  split
  · exact .inl (.refl s)
  · split
    · next t written => exact .inl (touches_writeHost inside written)
    · exact delivered_takeErrors ..

theorem delivered_deliver (s : State) (p : Post) : Delivered s (deliver s p) := by
  cases p with
  | mirror m =>
    have inside := mirror_inside s m
    show Delivered s (writeArea s .mirrorWrite (areaBase s + mirrorOffset m) (mirrorBytes s m))
    exact delivered_writeArea inside
  | status n =>
    show Delivered s (writeArea s .statusWrite (statusAddress s n) (statusBytes (s.slot n)))
    have at_offset : statusAddress s n = areaBase s + (0x1000 + 0x20 * n.val) := by unfold statusAddress; omega
    have := n.isLt
    rw [at_offset]
    exact delivered_writeArea (by rw [length_statusBytes]; omega)
  | notice n => exact delivered_takeNotice s n

theorem memOpen_broken {s : State} (h : s.ex.state = .broken) : s.memOpen = false := by
  rw [State.memOpen, h]
  rfl

/-- Once BROKEN nothing more is delivered, so the posts leave what the last one that counts has left. -/
theorem delivered_posts (ps : List Post) (s : State) : Delivered s (ps.foldl deliver s) := by
  induction ps generalizing s with
  | nil => exact .inl (.refl s)
  | cons p ps ih =>
    rw [List.foldl_cons]
    rcases delivered_deliver s p with touched | broke
    · exact touched.delivered (ih _)
    · rw [posts_closed ps _ (memOpen_broken broke.broken)]
      exact .inr broke

theorem finish_spec (u : State) (posts : List Post) (noLeave : u.roster.leave = none) :
    let t := finish ⟨u, posts⟩
    t = posts.foldl deliver u ∧
    (posts = [] → t = u) ∧
    (u.memOpen = false → t = u) ∧
    (t.ex.state = u.ex.state → OnlyExchange u t ∧
      { t.ex with lanes := u.ex.lanes, errorsPosted := u.ex.errorsPosted } = u.ex) ∧
    (t.ex.state ≠ u.ex.state → t.ex.state = .broken ∧ Delivers u t) ∧
    (∀ a, (a < areaBase u ∨ areaBase u + 0x1800 ≤ a) → memByte t.mem a = memByte u.mem a) ∧
    t.mem.readFaults = u.mem.readFaults ∧ t.mem.writeFaults = u.mem.writeFaults := by
  intro t
  have t_eq : t = posts.foldl deliver u := finish_no_leave ⟨u, posts⟩ noLeave
  have delivered : Delivered u t := t_eq ▸ delivered_posts posts u
  have memory : AreaOnly (areaBase u) u.mem t.mem := delivered.elim Touches.memory Breaks.memory
  refine ⟨t_eq, fun none => by rw [t_eq, none]; rfl, fun closed => by rw [t_eq, posts_closed _ _ closed], ?_, ?_,
    memory.outside, memory.readFaults, memory.writeFaults⟩
  · intro same
    rcases delivered with touched | broke
    · exact ⟨touched.only, touched.exchange⟩
    · have closed := memOpen_broken (same.symm.trans broke.broken)
      rw [broke.fromOpen] at closed
      cases closed
  · intro changed
    rcases delivered with touched | broke
    · exact absurd touched.state changed
    · exact ⟨broke.broken, broke.delivers⟩

/-- Settles O22: the writes of the area, their bytes, and what the posts together can change. -/
theorem postsTouchOnlyTheExchange : Obligations.PostsTouchOnlyTheExchange := by
  unfold Obligations.PostsTouchOnlyTheExchange
  refine ⟨fun s m isOpen => ?mirrors, fun s n isOpen => ?status, fun _ _ => rfl, fun s => ?bytes, finish_spec⟩
  case mirrors =>
    intro a b
    have a_eq : areaBase s + mirrorOffset m = a := by cases m <;> rfl
    have deliver_eq : deliver s (.mirror m) = writeArea s .mirrorWrite a b := by rw [← a_eq]; rfl
    rw [deliver_eq]
    exact ⟨writeArea_fits isOpen, fun x => writeArea_fault isOpen⟩
  case status =>
    intro a x b
    have b_eq : b = statusBytes (s.slot n) := (statusBytes_eq _).symm
    have deliver_eq : deliver s (.status n) = writeArea s .statusWrite a b := by rw [b_eq]; rfl
    rw [deliver_eq]
    exact ⟨writeArea_fits isOpen, fun x => writeArea_fault isOpen⟩
  case bytes => exact ⟨portEntryBytes_eq s, rfl, timebaseSummaryBytes_eq s, rfl, counterBlock_eq s⟩

end Sys2Proof.Delivery

/-! SUPPORT. The exchange unit's own events (10): what an exchange reset and BROKEN leave (R182, R183), the attach
(R169), and the reads of the order chain (R170, R171). -/

namespace Sys2Proof.ExchangeEvents

open Sys2Proof Sys2Proof.Machine Sys2Proof.Statements Sys2Proof.PortUnits Sys2Proof.PortQueues Sys2Proof.Delivery

/-! ## Slots closed for the exchange (R142) -/

section cut

variable (now : Nat) (x : Slot)

theorem cutBlock_state : (cutBlock now x).state = x.state := by unfold cutBlock; split <;> rfl

theorem cutBlock_peer : (cutBlock now x).peer = x.peer := by unfold cutBlock; split <;> rfl

theorem cutBlock_tag : (cutBlock now x).tag = x.tag := by unfold cutBlock; split <;> rfl

theorem cutBlock_openNumber : (cutBlock now x).openNumber = x.openNumber := by unfold cutBlock; split <;> rfl

theorem cutBlock_role : (cutBlock now x).role = x.role := by unfold cutBlock; split <;> rfl

end cut

/-- A slot as an exchange reset or BROKEN leaves it. -/
def exchangeClosed (s : State) (cause : StreamCause) (x : Slot) : Slot :=
  let y := cutBlock s.now x
  if x.state = .closed then x else { y with
    state := .closed, cause := cause, strandDeadline := none, closeDeadline := none, openOrder := none
    finishOrder := none, drainMode := none, fetched := [], endBlock := none, nextRecord := none, stop := none
    fetchEnded := true, writeStop := false, sending := none, offer := none
    counters := if x.state ≠ .offered ∧ s.route x.peer = none then
      { y.counters with unsent := y.counters.unsent + 1 } else y.counters }

/-- The CLOSE that a slot of `s` sends, offered in `v`. -/
def closeOffered (s : State) (reason : CloseReason) (v : State) (n : SlotIx) : State :=
  let x := s.slot n
  if x.state = .closed ∨ x.state = .offered then v else match s.route x.peer with
    | none => v
    | some r => offer v r.port ⟨ownCell s .close x.peer.val
        (closePayload x.tag x.openNumber (if x.role = .source then 0 else 1) reason), none⟩

/-- The CLOSE of a slot just changed, sent or counted UNSENT. -/
theorem sendClose_modSlot {v : State} {n : SlotIx} {f : Slot → Slot} {x : Slot} {reason : CloseReason}
    (peer : (f (v.slot n)).peer = x.peer) (tag : (f (v.slot n)).tag = x.tag)
    (openNumber : (f (v.slot n)).openNumber = x.openNumber) (role : (f (v.slot n)).role = x.role) :
    sendClose (v.modSlot n f) n reason = match v.route x.peer with
      | none => v.modSlot n (fun y => { f y with counters := { (f y).counters with unsent := (f y).counters.unsent + 1 } })
      | some r => offer (v.modSlot n f) r.port ⟨ownCell v .close x.peer.val
          (closePayload x.tag x.openNumber (if x.role = .source then 0 else 1) reason), none⟩ := by
  unfold sendClose sendSlotCell slotDirection
  rw [slot_modSlot_same]
  dsimp only
  rw [peer, tag, openNumber, role, route_modSlot]
  cases v.route x.peer with
  | none => exact modSlot_modSlot ..
  | some r => rfl

theorem closeForExchange_eq (reason : CloseReason) (cause : StreamCause) (v : State) (n : SlotIx) :
    closeForExchange reason cause v n = closeOffered v reason (v.modSlot n (exchangeClosed v cause)) n := by
  unfold closeForExchange closeOffered
  by_cases closed : (v.slot n).state = .closed
  · have same : exchangeClosed v cause (v.slot n) = v.slot n := if_pos closed
    simp only [closed, if_true, true_or, modSlot_self same]
  · have drops {c : SlotCounters} (counters :
        (if (v.slot n).state ≠ .offered ∧ v.route (v.slot n).peer = none then
          { (cutBlock v.now (v.slot n)).counters with unsent := (cutBlock v.now (v.slot n)).counters.unsent + 1 }
        else (cutBlock v.now (v.slot n)).counters) = c) :
        exchangeClosed v cause (v.slot n) =
          { dropRunning (cutBlock v.now (v.slot n)) with
            state := .closed, cause := cause, openOrder := none, finishOrder := none, counters := c } := by
      rw [← counters]
      unfold exchangeClosed
      dsimp only
      rw [if_neg closed]
      rfl
    dsimp only
    rw [cutOff_eq, modSlot_modSlot]
    simp only [closed, if_false, false_or]
    by_cases offered : (v.slot n).state = .offered
    · simp only [offered, if_true]
      exact modSlot_congr (drops (if_neg (fun h => h.1 offered))).symm
    · simp only [offered, if_false]
      rw [sendClose_modSlot (x := v.slot n) ?peer ?tag ?openNumber ?role]
      case peer => exact cutBlock_peer ..
      case tag => exact cutBlock_tag ..
      case openNumber => exact cutBlock_openNumber ..
      case role => exact cutBlock_role ..
      cases route : v.route (v.slot n).peer with
      | none => exact modSlot_congr (drops (if_pos ⟨offered, route⟩)).symm
      | some r =>
        have reachable : ¬ (v.route (v.slot n).peer = none) := by rw [route]; exact Option.some_ne_none r
        dsimp only
        rw [modSlot_congr (g := exchangeClosed v cause) (drops (if_neg (fun h => reachable h.2))).symm]

/-- What the cells that slots send are made of is the same in two states. -/
structure SameSenders (s v : State) : Prop where
  now : v.now = s.now
  ports : v.ports = s.ports
  reach : v.reach = s.reach
  own : v.own = s.own
  incarnation : v.store.incarnation = s.store.incarnation

theorem exchangeClosed_congr {s v : State} (same : SameSenders s v) (cause : StreamCause) (x : Slot) :
    exchangeClosed v cause x = exchangeClosed s cause x := by
  unfold exchangeClosed State.route
  rw [same.now, same.reach]

theorem offer_links {v w : State} (links : v.links = w.links) (ports : v.ports = w.ports) (p : PortIx) (q : Queued) :
    (offer v p q).links = (offer w p q).links := by
  unfold offer State.modLink State.port
  dsimp only
  rw [links, ports]

theorem closeOffered_links {s v u w : State} {n : SlotIx} (same : SameSenders s v) (slot : v.slot n = s.slot n)
    (links : u.links = w.links) (ports : u.ports = w.ports) (reason : CloseReason) :
    (closeOffered v reason u n).links = (closeOffered s reason w n).links := by
  have cell (k : Kind) (d : Nat) (b : List Byte) : ownCell v k d b = ownCell s k d b := by
    unfold ownCell
    rw [same.own, same.incarnation]
  have route (f : FrameNo) : v.route f = s.route f := by unfold State.route; rw [same.reach]
  unfold closeOffered
  rw [slot]
  dsimp only
  split
  · exact links
  · rw [route]
    split
    · exact links
    · rw [cell]
      exact offer_links links ports _ _

theorem closeOffered_frame (s v : State) (reason : CloseReason) (n : SlotIx) :
    { closeOffered s reason v n with links := v.links } = v := by
  unfold closeOffered
  dsimp only
  split
  · rfl
  · split <;> rfl

theorem closeOffered_ports (s v : State) (reason : CloseReason) (n : SlotIx) :
    (closeOffered s reason v n).ports = v.ports := (congrArg State.ports (closeOffered_frame s v reason n) :)

/-- Slots closed one after the other: each by itself, with the CLOSE cells offered in that order. -/
theorem foldl_closeForExchange {reason : CloseReason} {cause : StreamCause} {s : State} (ns : List SlotIx)
    (nodup : ns.Nodup) (v w : State) (same : SameSenders s v) (slots : ∀ n ∈ ns, v.slot n = s.slot n)
    (links : v.links = w.links) (ports : v.ports = w.ports) :
    let t := ns.foldl (closeForExchange reason cause) v
    (∀ n, t.slot n = if n ∈ ns then exchangeClosed s cause (v.slot n) else v.slot n) ∧
    t.links = (ns.foldl (closeOffered s reason) w).links ∧ t.stream.unmatched = v.stream.unmatched ∧
    { t with stream := v.stream, links := v.links } = v := by
  induction ns generalizing v w with
  | nil => exact ⟨fun _ => rfl, links, rfl, rfl⟩
  | cons n ns ih =>
    obtain ⟨absent, nodup⟩ := List.nodup_cons.1 nodup
    let u := v.modSlot n (exchangeClosed v cause)
    let v' := closeOffered v reason u n
    have frame : { v' with stream := v.stream, links := v.links } = v :=
      congrArg (fun x : State => { x with stream := v.stream, links := v.links }) (closeOffered_frame v u reason n)
    have stream : v'.stream = u.stream := (congrArg State.stream (closeOffered_frame v u reason n) :)
    have slot (m : SlotIx) : v'.slot m = if m = n then exchangeClosed s cause (v.slot n) else v.slot m := by
      have : v'.slot m = u.slot m := by unfold State.slot; rw [stream]
      rw [this, slot_modSlot, exchangeClosed_congr same]
    have same' : SameSenders s v' :=
      ⟨(congrArg State.now frame :).trans same.now, (congrArg State.ports frame :).trans same.ports,
        (congrArg State.reach frame :).trans same.reach, (congrArg State.own frame :).trans same.own,
        (congrArg (fun x : State => x.store.incarnation) frame :).trans same.incarnation⟩
    have slots' : ∀ m ∈ ns, v'.slot m = s.slot m := fun m inside => by
      rw [slot, if_neg (ne_of_mem_of_not_mem inside absent)]
      exact slots m (List.mem_cons_of_mem _ inside)
    have ports' : v'.ports = (closeOffered s reason w n).ports := by
      rw [closeOffered_ports, closeOffered_ports]
      exact ports
    have links' : v'.links = (closeOffered s reason w n).links :=
      closeOffered_links (u := u) same (slots n (List.mem_cons_self ..)) links ports reason
    obtain ⟨slots_t, links_t, unmatched_t, frame_t⟩ :=
      ih nodup v' (closeOffered s reason w n) same' slots' links' ports'
    rw [List.foldl_cons, List.foldl_cons, closeForExchange_eq]
    refine ⟨fun m => ?_, links_t, ?_, ?_⟩
    · rw [slots_t, slot]
      by_cases at_n : m = n
      · subst at_n
        simp [absent]
      · simp [at_n]
    · rw [unmatched_t, stream]
      rfl
    · exact (congrArg (fun x : State => { x with stream := v.stream, links := v.links }) frame_t).trans frame

/-- Every slot closed for the exchange, from a state that has the slots and links of `s`. -/
theorem closeAllForExchange_spec {s v : State} (same : SameSenders s v) (stream : v.stream = s.stream)
    (links : v.links = s.links) (reason : CloseReason) (cause : StreamCause) :
    let t := closeAllForExchange reason cause v
    ClosedForExchange s t cause reason ∧ t.stream.unmatched = s.stream.unmatched ∧
      { t with stream := s.stream, links := s.links } = v := by
  intro t
  have slot (n : SlotIx) : v.slot n = s.slot n := by unfold State.slot; rw [stream]
  obtain ⟨slots_t, links_t, unmatched_t, frame_t⟩ :=
    foldl_closeForExchange (reason := reason) (cause := cause) allSlots allSlots_nodup v s same (fun n _ => slot n) links
      same.ports
  have t_eq : t = allSlots.foldl (closeForExchange reason cause) v := rfl
  generalize allSlots.foldl (closeForExchange reason cause) v = u at slots_t links_t unmatched_t frame_t t_eq
  clear_value t
  subst t_eq
  rw [stream, links] at frame_t
  rw [stream] at unmatched_t
  refine ⟨⟨fun n => ?_, ?_⟩, unmatched_t, frame_t⟩
  · have at_n := slots_t n
    rw [if_pos (mem_allSlots n), slot] at at_n
    exact at_n
  · have offers : closeOffered s reason = fun v n =>
        let x := s.slot n
        if x.state = .closed ∨ x.state = .offered then v else match s.route x.peer with
          | none => v
          | some r => offer v r.port ⟨ownCell s .close x.peer.val
              (closePayload x.tag x.openNumber (if x.role = .source then 0 else 1) reason), none⟩ := rfl
    rw [offers, allSlots] at links_t
    exact links_t

/-! ## Exchange reset and BROKEN (R182, R183) -/

theorem exchangeReset_spec (s : State) :
    let t := exchangeReset s
    t.ex = { s.ex with
      mask := 0, stallCause := none, stalls := [], chain := .head, notPosted := false, lastSequence := none
      window := [], mark := none, lanes := Exchange.reset.lanes } ∧
    t.notes = { s.notes with window := [], waiting := [], inbox := NotePath.reset.inbox } ∧
    t.roster = { s.roster with leave := none } ∧
    t.store = { s.store with storing := s.store.storing.map (fun x => { x with order := none }) } ∧
    ClosedForExchange s t .exchangeReset .exchangeReset ∧
    t.stream.unmatched = s.stream.unmatched ∧
    { t with
      ex := s.ex, notes := s.notes, roster := s.roster, store := s.store, stream := s.stream, links := s.links } = s := by
  intro t
  have same : SameSenders s (clearExchange (abandonOrders s)) := ⟨rfl, rfl, rfl, rfl, rfl⟩
  obtain ⟨closed, unmatched, frame⟩ := closeAllForExchange_spec same rfl rfl .exchangeReset .exchangeReset
  generalize closed_eq : closeAllForExchange .exchangeReset .exchangeReset (clearExchange (abandonOrders s)) = u at closed unmatched frame
  have t_eq : t = u := closed_eq
  clear_value t
  subst t_eq
  exact ⟨(congrArg State.ex frame :), (congrArg State.notes frame :), (congrArg State.roster frame :),
    (congrArg State.store frame :), closed, unmatched,
    (congrArg (fun x : State => { x with
      ex := s.ex, notes := s.notes, roster := s.roster, store := s.store, stream := s.stream, links := s.links }) frame :)⟩

theorem enterBroken_spec (s : State) :
    let t := enterBroken s
    t.ex = { s.ex with state := .broken, window := [], stalls := [] } ∧
    t.notes = { s.notes with window := [], waiting := [] } ∧
    t.roster = { s.roster with leave := none } ∧
    t.store = { s.store with storing := s.store.storing.map (fun x => { x with order := none }) } ∧
    ClosedForExchange s t .exchangeBroken .exchangeBroken ∧
    t.stream.unmatched = s.stream.unmatched ∧
    { t with
      ex := s.ex, notes := s.notes, roster := s.roster, store := s.store, stream := s.stream, links := s.links } = s := by
  intro t
  have same : SameSenders s (abandonOrders s) := ⟨rfl, rfl, rfl, rfl, rfl⟩
  obtain ⟨closed, unmatched, frame⟩ := closeAllForExchange_spec same rfl rfl .exchangeBroken .exchangeBroken
  generalize closed_eq : closeAllForExchange .exchangeBroken .exchangeBroken (abandonOrders s) = u at closed unmatched frame
  have t_eq : t = u.modEx (fun e => { e with state := .broken }) := congrArg (State.modEx · _) closed_eq
  clear_value t
  subst t_eq
  exact ⟨(congrArg (fun x : State => { x.ex with state := ExState.broken }) frame :), (congrArg State.notes frame :),
    (congrArg State.roster frame :), (congrArg State.store frame :), closed, unmatched,
    (congrArg (fun x : State => { x with
      ex := s.ex, notes := s.notes, roster := s.roster, store := s.store, stream := s.stream, links := s.links }) frame :)⟩

/-! ## Attach (R169) -/

theorem memRead_bytesIn {m : Memory} {a len : Nat} (h : Readable m a len) : memRead m a len = .ok (bytesIn m a len) :=
  memRead_ok h

/-- What an attach posts: every header mirror and every Stream Status entry. -/
theorem attachPosts_eq : attachPosts =
    [.mirror (.port 0), .mirror (.port 1), .mirror (.port 2), .mirror (.port 3), .mirror .roster, .mirror .timebase,
      .mirror .origin, .mirror .counters] ++ (List.finRange 64).map (fun n => .status n) := rfl

section header

variable {s : State} {ps : List Post}

theorem readHeader_attached (reads : Readable s.mem (areaBase s) 16) (format : leAt (bytesIn s.mem (areaBase s) 16) 0 4 = 1) :
    readHeader ⟨s, ps⟩ =
      ⟨{ s with ex := { s.ex with
          state := .attached, stallCause := none, stalls := [], notPosted := false
          chain := .headField (BitVec.ofNat 64 (leAt (bytesIn s.mem (areaBase s) 16) 8 8)) } },
        ps ++ attachPosts ++ if s.store.origin = .defaults then [.notice (.errors .settingsLost .settingsLost .none 0 1)]
          else []⟩ := by
  unfold readHeader
  dsimp only
  rw [memRead_bytesIn reads]
  dsimp only
  rw [if_pos format]
  unfold attached
  dsimp only [on_s, modEx_store]
  by_cases defaults : s.store.origin = .defaults
  · simp only [defaults, if_true]
    rfl
  · simp only [defaults, if_false, List.append_nil]
    rfl

theorem readHeader_badHeader (reads : Readable s.mem (areaBase s) 16)
    (format : leAt (bytesIn s.mem (areaBase s) 16) 0 4 ≠ 1) :
    readHeader ⟨s, ps⟩ = ⟨{ s with ex := stalledBy .header .badHeader s.ex },
      ps ++ [.notice (.errors .badHeader .badHeader .none (BitVec.ofNat 64 (areaBase s)) 1)]⟩ := by
  unfold readHeader
  dsimp only
  rw [memRead_bytesIn reads]
  dsimp only
  rw [if_neg format]
  rfl

theorem readHeader_fault {x : Nat} (fault : firstFault s.mem.readFaults (areaBase s) 16 = some x) :
    readHeader ⟨s, ps⟩ = ⟨{ s with ex := stalledBy .header .memoryFault s.ex }, ps ++ [faultPost .headerRead x]⟩ := by
  unfold readHeader
  dsimp only
  rw [memRead_error fault]
  rfl

end header

theorem exchangeReset_keeps (s : State) : (exchangeReset s).ex.baseHi = s.ex.baseHi ∧ (exchangeReset s).mem = s.mem ∧
    (exchangeReset s).store.origin = s.store.origin := by
  obtain ⟨ex, _, _, store, _, _, frame⟩ := exchangeReset_spec s
  generalize exchangeReset s = t at *
  exact ⟨by rw [ex], (congrArg State.mem frame :), by rw [store]⟩

/-- The state an attach starts from: after the exchange reset, outside DETACHED. -/
def beforeAttach (s : State) : State := if s.ex.state = .detached then s else exchangeReset s

theorem beforeAttach_keeps (s : State) : (beforeAttach s).ex.baseHi = s.ex.baseHi ∧ (beforeAttach s).mem = s.mem ∧
    (beforeAttach s).store.origin = s.store.origin := by
  unfold beforeAttach
  split
  · exact ⟨rfl, rfl, rfl⟩
  · exact exchangeReset_keeps s

/-- The exchange unit as an attach starts: DETACHED with no area. -/
def detachedEx (s : State) (lo : BitVec 32) : Exchange :=
  { (beforeAttach s).ex with baseLo := lo, attachFault := false, state := .detached, area := none }

section attach

variable {s : State} {lo : BitVec 32} {a : Act}

theorem ends_baseLo (running : s.inReset = false)
    (act : attach lo ⟨{ beforeAttach s with ex := { (beforeAttach s).ex with baseLo := lo, attachFault := false } }, []⟩ = a) :
    Ends (.baseLo lo) s a := by
  show execBaseLo lo s = _
  unfold execBaseLo
  refine run_ends running ?_
  rw [← act]
  unfold writeBaseLo beforeAttach
  dsimp only [on_s]
  by_cases detached : s.ex.state = .detached
  · rw [if_pos detached, if_pos detached]
    rfl
  · rw [if_neg detached, if_neg detached]
    unfold Act.on
    dsimp only
    generalize exchangeReset s = t
    rfl

theorem attach_header (address : BitVec 64) (address_eq : s.ex.baseHi ++ lo = address) (nonzero : address ≠ 0)
    (aligned : address.toNat % 4096 = 0) :
    attach lo ⟨{ beforeAttach s with ex := { (beforeAttach s).ex with baseLo := lo, attachFault := false } }, []⟩ =
      readHeader ⟨{ beforeAttach s with ex := { detachedEx s lo with area := some address } }, []⟩ := by
  have named : attachAddress { (beforeAttach s).ex with baseLo := lo, attachFault := false } lo = address := by
    rw [← address_eq, ← (beforeAttach_keeps s).1]
    generalize beforeAttach s = t
    rfl
  unfold attach detachedEx
  dsimp only
  rw [named, if_neg nonzero, areaAlignment, if_neg (fun h => h aligned)]
  generalize beforeAttach s = t
  rfl

theorem attach_detached (address : BitVec 64) (address_eq : s.ex.baseHi ++ lo = address) :
    (address = 0 → attach lo ⟨{ beforeAttach s with ex := { (beforeAttach s).ex with baseLo := lo, attachFault := false } }, []⟩ =
      ⟨{ beforeAttach s with ex := detachedEx s lo }, []⟩) ∧
    (address ≠ 0 → address.toNat % 4096 ≠ 0 →
      attach lo ⟨{ beforeAttach s with ex := { (beforeAttach s).ex with baseLo := lo, attachFault := false } }, []⟩ =
        ⟨{ beforeAttach s with ex := { detachedEx s lo with attachFault := true } }, []⟩) := by
  have named : attachAddress { (beforeAttach s).ex with baseLo := lo, attachFault := false } lo = address := by
    rw [← address_eq, ← (beforeAttach_keeps s).1]
    generalize beforeAttach s = t
    rfl
  unfold attach detachedEx
  dsimp only
  rw [named, areaAlignment]
  generalize beforeAttach s = t
  refine ⟨fun zero => ?_, fun nonzero unaligned => ?_⟩
  · rw [if_pos zero]
    rfl
  · rw [if_neg nonzero, if_pos unaligned]
    rfl

end attach

/-- Settles O26: the attach address by address, `exchangeReset_spec` and `enterBroken_spec`. -/
theorem baseLoWriteAndReset : Obligations.BaseLoWriteAndReset := by
  unfold Obligations.BaseLoWriteAndReset
  refine ⟨fun s lo running => ?_, exchangeReset_spec, enterBroken_spec⟩
  intro r e address header written
  have detached := attach_detached (s := s) (lo := lo) address rfl
  let v : State := { beforeAttach s with ex := { detachedEx s lo with area := some address } }
  have v_mem : v.mem = s.mem := (beforeAttach_keeps s).2.1
  have v_origin : v.store.origin = s.store.origin := (beforeAttach_keeps s).2.2
  have v_base : areaBase v = address.toNat := rfl
  refine ⟨fun zero => ends_baseLo running (detached.1 zero),
    fun nonzero unaligned => ends_baseLo running (detached.2 nonzero unaligned),
    fun nonzero aligned reads format => ?_, fun nonzero aligned reads format => ?_,
    fun x nonzero aligned fault => ?_⟩ <;>
    refine ends_baseLo running ((attach_header address rfl nonzero aligned).trans ?_)
  · have attached_eq := readHeader_attached (s := v) (ps := []) (by rw [v_mem, v_base]; exact reads)
      (by rw [v_mem, v_base]; exact format)
    have link : leAt (bytesIn v.mem (areaBase v) 16) 8 8 = leAt header 8 8 := by rw [v_mem, v_base]
    rw [link, v_origin, attachPosts_eq, List.nil_append] at attached_eq
    exact attached_eq
  · have bad := readHeader_badHeader (s := v) (ps := []) (by rw [v_mem, v_base]; exact reads)
      (by rw [v_mem, v_base]; exact format)
    rw [v_base, BitVec.ofNat_toNat, BitVec.setWidth_eq] at bad
    exact bad
  · exact readHeader_fault (s := v) (ps := []) (by rw [v_mem, v_base]; exact fault)

/-! ## The order chain (R170, R171) -/

section chain

variable {s : State} {ps : List Post}

theorem rereadTail_head {z : BitVec 64} (chain : s.ex.chain = .headField z) :
    (Readable s.mem (areaBase s + 8) 8 → rereadTail ⟨s, ps⟩ =
      ⟨{ s with ex := { s.ex with chain := .headField (BitVec.ofNat 64 (leNat (bytesIn s.mem (areaBase s + 8) 8))) } }, ps⟩) ∧
    (∀ x, firstFault s.mem.readFaults (areaBase s + 8) 8 = some x → rereadTail ⟨s, ps⟩ =
      ⟨{ s with ex := stalledBy .linkRead .memoryFault s.ex }, ps ++ [faultPost .orderRead x]⟩) := by
  unfold rereadTail
  dsimp only
  rw [chain]
  dsimp only
  refine ⟨fun reads => ?_, fun x fault => ?_⟩
  · rw [memRead_bytesIn reads]
    rfl
  · rw [memRead_error fault]
    rfl

theorem rereadTail_last {v z : BitVec 64} (chain : s.ex.chain = .last v z) :
    (Readable s.mem v.toNat 8 → rereadTail ⟨s, ps⟩ = judgeMark
      ⟨{ s with ex := { s.ex with chain := .last v (BitVec.ofNat 64 (leNat (bytesIn s.mem v.toNat 8))) } }, ps⟩) ∧
    (∀ x, firstFault s.mem.readFaults v.toNat 8 = some x → rereadTail ⟨s, ps⟩ =
      ⟨{ s with ex := stalledBy .linkRead .memoryFault s.ex }, ps ++ [faultPost .orderRead x]⟩) := by
  unfold rereadTail
  dsimp only
  rw [chain]
  dsimp only
  refine ⟨fun reads => ?_, fun x fault => ?_⟩
  · rw [memRead_bytesIn reads]
    rfl
  · rw [memRead_error fault]
    rfl

theorem rereadTail_none (chain : s.ex.chain = .absent ∨ s.ex.chain = .head) : rereadTail ⟨s, ps⟩ = ⟨s, ps⟩ := by
  unfold rereadTail
  dsimp only
  rcases chain with chain | chain <;> rw [chain]

theorem breaksChain_iff (e : Exchange) (b : List Byte) : breaksChain e b = false ↔
    ∀ l, e.lastSequence = some l → BitVec.ofNat 32 (leAt b 8 4) = l + 1 := by
  unfold breaksChain
  cases e.lastSequence <;> simp

theorem orderRoom_iff (e : Exchange) : orderRoom e = true ↔ e.window.length < 16 :=
  decide_eq_true_iff

/-- A record read whole and judged, by the room of the window, where the read faults, and what the record holds. -/
theorem readOrder_spec (s : State) (ps : List Post) (v : BitVec 64) :
    let b := bytesIn s.mem v.toNat 64
    let q := BitVec.ofNat 32 (leAt b 8 4)
    let u : State := { s with ex := { s.ex with
      lastSequence := some q, chain := .last v (BitVec.ofNat 64 (leAt b 0 8)), notPosted := false
      window := s.ex.window ++ [{
        address := v, sequence := q, kind := BitVec.ofNat 8 (leAt b 0x0C 1), parameters := bytesAt b 0x10 48
        status := .dispatched }] } }
    let follows := ∀ l, s.ex.lastSequence = some l → q = l + 1
    let room := s.ex.window.length < 16
    (¬ room → readOrder v ⟨s, ps⟩ = ⟨s, ps⟩) ∧
    (∀ x, room → firstFault s.mem.readFaults v.toNat 64 = some x → readOrder v ⟨s, ps⟩ =
      ⟨{ s with ex := stalledBy (.orderRead v) .memoryFault s.ex }, ps ++ [faultPost .orderRead x]⟩) ∧
    (room → Readable s.mem v.toNat 64 →
      (leAt b 0x0D 1 ≠ 1 → readOrder v ⟨s, ps⟩ = ⟨{ s with ex := { s.ex with notPosted := true } }, ps⟩) ∧
      (leAt b 0x0D 1 = 1 → ¬ follows → readOrder v ⟨s, ps⟩ =
        ⟨{ s with ex := stalledBy (.orderRead v) .brokenChain s.ex },
          ps ++ [.notice (.errors .brokenChain .brokenChain .none v 1)]⟩) ∧
      (leAt b 0x0D 1 = 1 → follows → readOrder v ⟨s, ps⟩ = if s.ex.lastSequence.isSome then ⟨u, ps⟩
        else writeMark ⟨{ u with ex := { u.ex with mark := some (q - 1) } }, ps⟩ (q - 1))) := by
  intro b q u follows room
  have chain : breaksChain s.ex b = false ↔ follows := breaksChain_iff s.ex b
  have isPosted : posted = 1 := rfl
  unfold readOrder
  dsimp only
  refine ⟨fun full => ?_, fun x space fault => ?_, fun space reads => ?_⟩
  · rw [if_pos (Bool.eq_false_iff.2 (fun h => full ((orderRoom_iff _).1 h)))]
  · rw [if_neg (by rw [(orderRoom_iff _).2 space]; decide), orderRecordSize, memRead_error fault]
    rfl
  · rw [if_neg (by rw [(orderRoom_iff _).2 space]; decide), orderRecordSize, memRead_bytesIn reads]
    dsimp only
    refine ⟨fun notPosted => ?_, fun wasPosted breaks => ?_, fun wasPosted fits => ?_⟩
    · rw [isPosted, if_pos notPosted]
      rfl
    · rw [← chain, Bool.not_eq_false] at breaks
      rw [isPosted, if_neg (fun h => h wasPosted), if_pos breaks]
      have address : BitVec.ofNat 64 v.toNat = v := by simp
      unfold stall Act.error
      rw [address]
      rfl
    · rw [← chain] at fits
      have joined : (⟨s, ps⟩ : Act).on (·.modEx (fun e => { e with
          window := e.window ++ [orderOf v b], lastSequence := some (orderOf v b).sequence
          chain := .last v (BitVec.ofNat 64 (leAt b 0 8)), notPosted := false })) = ⟨u, ps⟩ := rfl
      have goes_on : ¬ breaksChain s.ex b = true := by rw [fits]; decide
      rw [isPosted, if_neg (fun h => h wasPosted), if_neg goes_on]
      unfold fetchOrder
      dsimp only
      rw [joined]
      cases s.ex.lastSequence with
      | none => rfl
      | some l => rfl

theorem retryCompletion_spec (s : State) (ps : List Post) (q : BitVec 32) :
    ((∀ o c, windowOrder s q = some o → o.status ≠ .completing c) → retryCompletion ⟨s, ps⟩ q = ⟨s, ps⟩) ∧
    ∀ o c, windowOrder s q = some o → o.status = .completing c →
      retryCompletion ⟨s, ps⟩ q = complete ⟨s, ps⟩ q c.outcome c.detail c.results := by
  unfold retryCompletion
  dsimp only
  refine ⟨fun none_held => ?_, fun o c found held => ?_⟩
  · cases found : windowOrder s q with
    | none => rfl
    | some o =>
      dsimp only
      cases status : o.status with
      | dispatched => rfl
      | held => rfl
      | completing c => exact absurd status (none_held o c found)
  · rw [found]
    dsimp only
    rw [held]
    unfold complete
    dsimp only
    rw [found]

theorem endStall_eq (s : State) : endStall s = if s.ex.state = .stalled ∧ s.ex.stalls = [] then
    { s with ex := { s.ex with state := .attached, stallCause := none } } else s := rfl

/-- A read that stalled the exchange, made again: it leaves the set of stall accesses first. -/
theorem retryRead_spec (s : State) (ps : List Post) :
    let w (x : StallAccess) : State := { s with ex := { s.ex with stalls := s.ex.stalls.filter (fun y => y != x) } }
    let base := areaBase s
    let header := bytesIn s.mem base 16
    let written : List Post :=
      [.mirror (.port 0), .mirror (.port 1), .mirror (.port 2), .mirror (.port 3), .mirror .roster, .mirror .timebase,
        .mirror .origin, .mirror .counters] ++ (List.finRange 64).map (fun n => .status n)
    (∀ q, retryRead ⟨s, ps⟩ (.completion q) = ⟨s, ps⟩) ∧
    (∀ v, retryRead ⟨s, ps⟩ (.orderRead v) = readOrder v ⟨w (.orderRead v), ps⟩) ∧
    (Readable s.mem base 16 → leAt header 0 4 = 1 → retryRead ⟨s, ps⟩ .header =
      ⟨{ s with ex := { s.ex with
          state := .attached, stallCause := none, stalls := [], notPosted := false
          chain := .headField (BitVec.ofNat 64 (leAt header 8 8)) } },
        ps ++ written ++ if s.store.origin = .defaults then [.notice (.errors .settingsLost .settingsLost .none 0 1)]
          else []⟩) ∧
    (Readable s.mem base 16 → leAt header 0 4 ≠ 1 → retryRead ⟨s, ps⟩ .header =
      ⟨{ s with ex := stalledBy .header .badHeader (w .header).ex },
        ps ++ [.notice (.errors .badHeader .badHeader .none (BitVec.ofNat 64 base) 1)]⟩) ∧
    (∀ x, firstFault s.mem.readFaults base 16 = some x → retryRead ⟨s, ps⟩ .header =
      ⟨{ s with ex := stalledBy .header .memoryFault (w .header).ex }, ps ++ [faultPost .headerRead x]⟩) ∧
    (s.ex.chain = .absent ∨ s.ex.chain = .head → retryRead ⟨s, ps⟩ .linkRead = ⟨w .linkRead, ps⟩) ∧
    (∀ z, s.ex.chain = .headField z → Readable s.mem (base + 8) 8 → retryRead ⟨s, ps⟩ .linkRead =
      ⟨{ s with ex := { (w .linkRead).ex with
        chain := .headField (BitVec.ofNat 64 (leNat (bytesIn s.mem (base + 8) 8))) } }, ps⟩) ∧
    (∀ v z, s.ex.chain = .last v z → Readable s.mem v.toNat 8 → retryRead ⟨s, ps⟩ .linkRead = judgeMark
      ⟨{ s with ex := { (w .linkRead).ex with
        chain := .last v (BitVec.ofNat 64 (leNat (bytesIn s.mem v.toNat 8))) } }, ps⟩) ∧
    (∀ a x, (∃ z, s.ex.chain = .headField z ∧ a = base + 8) ∨ (∃ v z, s.ex.chain = .last v z ∧ a = v.toNat) →
      firstFault s.mem.readFaults a 8 = some x → retryRead ⟨s, ps⟩ .linkRead =
        ⟨{ s with ex := stalledBy .linkRead .memoryFault (w .linkRead).ex }, ps ++ [faultPost .orderRead x]⟩) := by
  intro w base header written
  refine ⟨fun _ => rfl, fun _ => rfl, fun reads format => ?_, fun reads format => ?_, fun x fault => ?_,
    fun chain => ?_, fun z chain reads => ?_, fun v z chain reads => ?_, fun a x place fault => ?_⟩
  · exact readHeader_attached (s := w .header) (ps := ps) reads format
  · exact readHeader_badHeader (s := w .header) (ps := ps) reads format
  · exact readHeader_fault (s := w .header) (ps := ps) fault
  · exact rereadTail_none (s := w .linkRead) chain
  · exact (rereadTail_head (s := w .linkRead) chain).1 reads
  · exact (rereadTail_last (s := w .linkRead) chain).1 reads
  · rcases place with ⟨z, chain, rfl⟩ | ⟨v, z, chain, rfl⟩
    · exact (rereadTail_head (s := w .linkRead) chain).2 x fault
    · exact (rereadTail_last (s := w .linkRead) chain).2 x fault

theorem ends_nudgeOrderChain {a : Act} (running : s.inReset = false) (act : nudgeOrders ⟨s, []⟩ = a) :
    Ends .nudgeOrderChain s a := by
  show execNudgeOrderChain s = _
  unfold execNudgeOrderChain
  exact run_ends running act

theorem nudgeOrders_attached (state : s.ex.state = .attached) : nudgeOrders ⟨s, ps⟩ = resumeFetch ⟨s, ps⟩ := by
  unfold nudgeOrders
  dsimp only
  rw [state]

theorem nudgeOrders_tail (state : s.ex.state = .attached) (tail : nextOrderAddress s.ex = none) :
    nudgeOrders ⟨s, ps⟩ = rereadTail ⟨s, ps⟩ := by
  rw [nudgeOrders_attached state, resumeFetch]
  dsimp only
  rw [tail]

theorem nudgeOrders_next {v : BitVec 64} (state : s.ex.state = .attached) (next : nextOrderAddress s.ex = some v) :
    nudgeOrders ⟨s, ps⟩ = if s.ex.notPosted = false then ⟨s, ps⟩
      else readOrder v ⟨{ s with ex := { s.ex with notPosted := false } }, ps⟩ := by
  rw [nudgeOrders_attached state, resumeFetch]
  dsimp only
  rw [next]
  rfl

theorem nextOrderAddress_head (chain : s.ex.chain = .headField 0) : nextOrderAddress s.ex = none := by
  unfold nextOrderAddress
  rw [chain]
  rfl

theorem nextOrderAddress_last {v : BitVec 64} (chain : s.ex.chain = .last v 0) : nextOrderAddress s.ex = none := by
  unfold nextOrderAddress
  rw [chain]
  rfl

/-- Settles O27, by the exchange state and the chain position; the accesses made again by their own lemmas. -/
theorem nudgeOrderChain : Obligations.NudgeOrderChain := by
  unfold Obligations.NudgeOrderChain
  refine ⟨fun s running => ⟨fun closed => ?closed, fun state v next go => ?go, fun state v next stopped => ?stopped,
    fun state chain reads => ?head, fun v state chain reads => ?last, fun state => ?stalled,
    fun x state chain fault => ?headFault, fun v x state chain fault => ?lastFault⟩, endStall_eq, retryCompletion_spec,
    retryRead_spec, readOrder_spec⟩
  all_goals refine ends_nudgeOrderChain running ?_
  case closed =>
    unfold nudgeOrders
    dsimp only
    rcases closed with state | state <;> rw [state]
  case go => rw [nudgeOrders_next state next, if_pos go]
  case stopped => rw [nudgeOrders_next state next, if_neg (by rw [stopped]; decide)]
  case head =>
    rw [nudgeOrders_tail state (nextOrderAddress_head chain)]
    exact (rereadTail_head chain).1 reads
  case last =>
    rw [nudgeOrders_tail state (nextOrderAddress_last chain)]
    exact (rereadTail_last chain).1 reads
  case stalled =>
    unfold nudgeOrders
    dsimp only
    rw [state]
    rfl
  case headFault =>
    rw [nudgeOrders_tail state (nextOrderAddress_head chain)]
    exact (rereadTail_head chain).2 x fault
  case lastFault =>
    rw [nudgeOrders_tail state (nextOrderAddress_last chain)]
    exact (rereadTail_last chain).2 x fault

end chain

end Sys2Proof.ExchangeEvents

/-! SUPPORT. The order window (10): which order its owner takes (R172), the fetch of the next record (R171), the
completion of an order (R173) and the reclaim mark (R174). -/

namespace Sys2Proof.OrderWindow

open Sys2Proof Sys2Proof.Machine Sys2Proof.Statements Sys2Proof.PortUnits Sys2Proof.Delivery Sys2Proof.ExchangeEvents

/-! ## The owner's next order (R172) -/

/-- A code read back, where every value is listed and no two share a code. -/
theorem ofCode_iff {α : Type} {all : List α} {code : α → Nat} (listed : ∀ k, k ∈ all)
    (injective : ∀ k l, code k = code l → k = l) (k : α) (n : Nat) : ofCode all code n = some k ↔ code k = n := by
  unfold ofCode
  refine ⟨fun found => by simpa using List.find?_some found, fun coded => ?_⟩
  cases found : all.find? (fun a => code a == n) with
  | none => exact absurd (List.find?_eq_none.1 found k (listed k)) (by simp [coded])
  | some l => rw [injective l k ((by simpa using List.find?_some found : code l = n).trans coded.symm)]

theorem orderKindOfCode_iff (k : OrderKind) (n : Nat) : orderKindOfCode n = some k ↔ orderKindCode k = n :=
  ofCode_iff (fun k => by cases k <;> decide) (fun k l => by cases k <;> cases l <;> decide) k n

theorem byteOwner_eq (k : Byte) : byteOwner k = (orderKindOfCode k.toNat).elim .exchange orderOwner := by
  unfold byteOwner
  cases orderKindOfCode k.toNat <;> rfl

theorem nextOrder_iff (s : State) (w : OrderOwner) (o : Order) :
    let waits (x : Order) : Prop :=
      x.status = .dispatched ∧ (orderKindOfCode x.kind.toNat).elim .exchange orderOwner = w
    nextOrder s w = some o ↔ waits o ∧ ∃ before after, s.ex.window = before ++ o :: after ∧ ∀ x ∈ before, ¬ waits x := by
  intro waits
  have waits_iff (x : Order) :
      (decide (x.status = .dispatched) && decide (byteOwner x.kind = w)) = true ↔ waits x := by
    rw [byteOwner_eq, Bool.and_eq_true, decide_eq_true_iff, decide_eq_true_iff]
  unfold nextOrder
  rw [List.find?_eq_some_iff_append]
  refine and_congr (waits_iff o) (exists_congr fun before => exists_congr fun after => and_congr_right fun _ => ?_)
  refine forall_congr' fun x => imp_congr_right fun _ => ?_
  rw [Bool.not_eq_true', ← Bool.not_eq_true]
  exact not_congr (waits_iff x)

theorem orderRow_oldest {k : OrderKind} {o : Order} {s : State} (oldest : Oldest k o s) (f : Act → Order → Act) :
    orderRow (some k) f ⟨s, []⟩ = f ⟨s, []⟩ o := by
  have taken : orderFor s (some k) = some o := by
    unfold orderFor
    dsimp only
    rw [oldest.oldest, Option.filter_some, if_pos (decide_eq_true oldest.kind)]
  unfold orderRow
  rw [taken]

/-- What an order row does, its order found. -/
theorem ends_order {c : Instr} {k : OrderKind} {o : Order} {s : State} {f : Act → Order → Act} {a : Act}
    (row : exec c s = run (orderRow (some k) f) s) (oldest : Oldest k o s) (act : f ⟨s, []⟩ o = a) : Ends c s a := by
  show exec c s = _
  rw [row]
  exact run_ends oldest.running ((orderRow_oldest oldest f).trans act)

/-! ## The reclaim mark (R174) -/

section mark

variable {s : State} {ps : List Post} {m : BitVec 32}

theorem writeMark_closed (closed : s.memOpen = false) : writeMark ⟨s, ps⟩ m = ⟨s, ps⟩ := by
  unfold writeMark
  dsimp only
  rw [closed]
  rfl

theorem writeMark_fits (isOpen : s.memOpen = true) (fits : Writable s.mem (areaBase s + 0x10) 4) :
    ∃ v, Stored s.mem v (areaBase s + 0x10) (leBytes 4 m.toNat) ∧ writeMark ⟨s, ps⟩ m = ⟨{ s with mem := v }, ps⟩ := by
  obtain ⟨v, stored, written⟩ := writeHost_stored (s := s) (a := areaBase s + 0x10) (bs := leBytes 4 m.toNat)
    (by rw [length_leBytes]; exact fits)
  refine ⟨v, stored, ?_⟩
  unfold writeMark
  dsimp only
  rw [isOpen, if_pos rfl, written]

theorem writeMark_fault {x : Nat} (isOpen : s.memOpen = true)
    (fault : firstFault s.mem.writeFaults (areaBase s + 0x10) 4 = some x) :
    writeMark ⟨s, ps⟩ m = ⟨s, ps ++ [faultPost .mirrorWrite x]⟩ := by
  have fault' : firstFault s.mem.writeFaults (areaBase s + 0x10) (leBytes 4 m.toNat).length = some x := by
    rw [length_leBytes]
    exact fault
  unfold writeMark
  dsimp only
  rw [isOpen, if_pos rfl, writeHost_fault fault']
  rfl

end mark

/-- What the mark is judged to be, by the window and the last record's link. -/
def MarkJudged (e : Exchange) (m : BitVec 32) : Prop :=
  (∃ o rest, e.window = o :: rest ∧ m = o.sequence - 1) ∨
    ∃ l, e.window = [] ∧ e.lastSequence = some l ∧ ((∃ v, e.chain = .last v 0) ∧ m = l - 1 ∨ ¬ (∃ v, e.chain = .last v 0) ∧ m = l)

theorem judgedMark_eq {e : Exchange} {m : BitVec 32} (fetched : e.lastSequence ≠ none) (judged : MarkJudged e m) :
    judgedMark e = some m := by
  unfold judgedMark
  obtain ⟨last, last_eq⟩ := Option.ne_none_iff_exists'.1 fetched
  rw [last_eq]
  dsimp only
  rcases judged with ⟨o, rest, window, rfl⟩ | ⟨l, window, l_eq, place⟩
  · rw [window]
  · rw [window]
    obtain rfl : last = l := Option.some.inj (last_eq.symm.trans l_eq)
    dsimp only
    rcases place with ⟨⟨v, chain⟩, rfl⟩ | ⟨chain, rfl⟩
    · rw [chain]
      rfl
    · cases position : e.chain with
      | last v link =>
        dsimp only
        rw [if_neg]
        rintro rfl
        exact chain ⟨v, position⟩
      | absent => rfl
      | head => rfl
      | headField v => rfl

theorem judgeMark_none {s : State} {ps : List Post} (h : s.ex.mark = none ∨ s.ex.lastSequence = none) :
    judgeMark ⟨s, ps⟩ = ⟨s, ps⟩ := by
  unfold judgeMark
  dsimp only
  rcases h with h | h
  · rw [h]
  · have unjudged : judgedMark s.ex = none := by
      unfold judgedMark
      rw [h]
    rw [unjudged]
    cases s.ex.mark <;> rfl

theorem judgeMark_judged {s : State} {ps : List Post} {old m : BitVec 32} (mark : s.ex.mark = some old)
    (fetched : s.ex.lastSequence ≠ none) (judged : MarkJudged s.ex m) :
    judgeMark ⟨s, ps⟩ = if newer m old then writeMark ⟨{ s with ex := { s.ex with mark := some m } }, ps⟩ m else ⟨s, ps⟩ := by
  unfold judgeMark
  dsimp only
  rw [mark, judgedMark_eq fetched judged]
  rfl

theorem judgeMark_spec (s : State) (ps : List Post) :
    let e := s.ex
    let tail := ∃ v, e.chain = .last v 0
    let judged (m : BitVec 32) := (∃ o rest, e.window = o :: rest ∧ m = o.sequence - 1) ∨
      ∃ l, e.window = [] ∧ e.lastSequence = some l ∧ (tail ∧ m = l - 1 ∨ ¬ tail ∧ m = l)
    let ad := areaBase s + 0x10
    (e.mark = none ∨ e.lastSequence = none → judgeMark ⟨s, ps⟩ = ⟨s, ps⟩) ∧
    ∀ old m, e.mark = some old → e.lastSequence ≠ none → judged m →
      let u : State := { s with ex := { e with mark := some m } }
      (newer m old = false → judgeMark ⟨s, ps⟩ = ⟨s, ps⟩) ∧
      (newer m old = true → s.memOpen = false → judgeMark ⟨s, ps⟩ = ⟨u, ps⟩) ∧
      (newer m old = true → s.memOpen = true → Writable s.mem ad 4 →
        ∃ v, Stored s.mem v ad (leBytes 4 m.toNat) ∧ judgeMark ⟨s, ps⟩ = ⟨{ u with mem := v }, ps⟩) ∧
      (∀ x, newer m old = true → s.memOpen = true → firstFault s.mem.writeFaults ad 4 = some x →
        judgeMark ⟨s, ps⟩ = ⟨u, ps ++ [faultPost .mirrorWrite x]⟩) := by
  intro e tail judged ad
  refine ⟨judgeMark_none, fun old m mark fetched place => ?_⟩
  intro u
  rw [judgeMark_judged mark fetched place]
  refine ⟨fun still => ?_, fun advances closed => ?_, fun advances isOpen fits => ?_, fun x advances isOpen fault => ?_⟩
  · rw [still]
    rfl
  · rw [if_pos advances]
    exact writeMark_closed (s := u) closed
  · rw [if_pos advances]
    exact writeMark_fits (s := u) isOpen fits
  · rw [if_pos advances]
    exact writeMark_fault (s := u) isOpen fault

/-! ## The fetch (R171) -/

section fetch

variable {s : State} {a : Act}

theorem orderToFetch_none (h : s.ex.state ≠ .attached ∨ 16 ≤ s.ex.window.length ∨ s.ex.notPosted = true ∨
    nextOrderAddress s.ex = none) : orderToFetch s.ex = none := by
  unfold orderToFetch
  by_cases open_ : s.ex.state = .attached ∧ orderRoom s.ex = true ∧ s.ex.notPosted = false
  · rw [if_pos open_]
    obtain ⟨state, room, posted⟩ := open_
    have room' := (orderRoom_iff _).1 room
    rcases h with h | h | h | h
    · exact absurd state h
    · omega
    · rw [posted] at h
      exact absurd h (by decide)
    · exact h
  · exact if_neg open_

theorem ends_orderFetch (running : s.inReset = false) (act : orderFetch ⟨s, []⟩ = a) : Ends .orderFetch s a := by
  show execOrderFetch s = _
  unfold execOrderFetch
  exact run_ends running act

theorem orderFetch_reads {v : BitVec 64} (state : s.ex.state = .attached) (room : s.ex.window.length < 16)
    (posted : s.ex.notPosted = false) (next : nextOrderAddress s.ex = some v) :
    orderFetch ⟨s, []⟩ = readOrder v ⟨s, []⟩ := by
  unfold orderFetch orderToFetch
  dsimp only
  rw [if_pos ⟨state, (orderRoom_iff _).2 room, posted⟩, next]

theorem nextOrderAddress_spec (e : Exchange) (v z : BitVec 64) :
    (e.chain = .absent ∨ e.chain = .head → nextOrderAddress e = none) ∧
    (e.chain = .headField v ∨ e.chain = .last z v → nextOrderAddress e = if v = 0 then none else some v) := by
  unfold nextOrderAddress
  constructor <;> rintro (chain | chain) <;> rw [chain]

end fetch

/-- Settles O29: `nextOrder_iff`, the mark's writing, and `readOrder_spec` where a record is due. -/
theorem orderFetch : Obligations.OrderFetch := by
  unfold Obligations.OrderFetch
  refine ⟨fun o => ?parameters, nextOrderAddress_spec, rfl, nextOrder_iff,
    fun s ps m => ⟨writeMark_closed, writeMark_fits, fun x => writeMark_fault⟩,
    fun s running => ⟨fun idle => ?idle, fun v state room posted next => ?reads⟩⟩
  case parameters => exact ⟨⟨rfl, rfl, rfl, rfl⟩, ⟨rfl, rfl⟩, ⟨rfl, rfl⟩, rfl, ⟨rfl, rfl⟩, rfl,
    ⟨rfl, rfl, rfl, rfl, rfl, rfl, rfl, rfl, rfl, rfl, rfl⟩, ⟨rfl, rfl⟩, ⟨rfl, rfl, rfl⟩, ⟨rfl, rfl⟩⟩
  case idle =>
    refine ends_orderFetch running ?_
    unfold Machine.orderFetch
    dsimp only
    rw [orderToFetch_none idle]
  case reads =>
    intro b q u
    obtain ⟨_, fault, whole⟩ := readOrder_spec s [] v
    have read {a : Act} (act : readOrder v ⟨s, []⟩ = a) : Ends .orderFetch s a :=
      ends_orderFetch running ((orderFetch_reads state room posted next).trans act)
    refine ⟨fun x faults => read (fault x room faults), fun reads unposted => read ((whole room reads).1 unposted),
      fun l reads isPosted last breaks => read ((whole room reads).2.1 isPosted (fun follows => breaks (follows l last))),
      fun l reads isPosted last fits => read ?_, fun reads isPosted first => read ?_⟩
    · rw [(whole room reads).2.2 isPosted (fun k last' => by rwa [← Option.some.inj (last.symm.trans last')]), last]
      rfl
    · rw [(whole room reads).2.2 isPosted (fun k last => by rw [first] at last; exact absurd last (by simp)), first]
      rfl

/-! ## Completion (R173) -/

section completion

variable {s : State} {ps : List Post} {q : BitVec 32} {o : Order} {c : Completion}

/-- What a fault on a completion write leaves. -/
def completionStalled (s : State) (ps : List Post) (o : Order) (c : Completion) (m : Memory) (x : Nat) : Act :=
  ⟨{ s with
      mem := m
      ex := stalledBy (.completion o.sequence) .memoryFault { s.ex with window := s.ex.window.map (fun w =>
        if w.sequence = o.sequence then { w with status := .completing c } else w) } }, ps ++ [faultPost .orderWrite x]⟩

theorem complete_eq (found : windowOrder s q = some o) :
    complete ⟨s, ps⟩ q c.outcome c.detail c.results = writeCompletion ⟨s, ps⟩ o c := by
  unfold complete
  dsimp only
  rw [found]

theorem complete_absent {r : Outcome} {d : Nat} {b : List Byte} (absent : windowOrder s q = none) :
    complete ⟨s, ps⟩ q r d b = ⟨s, ps⟩ := by
  unfold complete
  dsimp only
  rw [absent]

theorem writeRuns_cons_fault {a x : Nat} {bs : List Byte} {rest : List (Nat × List Byte)}
    (fault : firstFault s.mem.writeFaults a bs.length = some x) : writeRuns s ((a, bs) :: rest) = (s, some x) := by
  rw [writeRuns, writeHost_fault fault]

theorem writeRuns_cons_fits {a : Nat} {bs : List Byte} {rest : List (Nat × List Byte)}
    (fits : Writable s.mem a bs.length) :
    ∃ m, Stored s.mem m a bs ∧ writeRuns s ((a, bs) :: rest) = writeRuns { s with mem := m } rest := by
  obtain ⟨m, stored, written⟩ := writeHost_stored fits
  exact ⟨m, stored, by rw [writeRuns, written]⟩

theorem writeCompletion_fault {m : Memory} {x : Nat}
    (runs : writeRuns s (completionRuns o.address.toNat c) = ({ s with mem := m }, some x)) :
    writeCompletion ⟨s, ps⟩ o c = completionStalled s ps o c m x := by
  unfold writeCompletion
  dsimp only
  rw [runs]
  rfl

theorem writeCompletion_fits {m : Memory}
    (runs : writeRuns s (completionRuns o.address.toNat c) = ({ s with mem := m }, none)) :
    writeCompletion ⟨s, ps⟩ o c = (judgeMark ⟨{ s with
            mem := m
            ex := { s.ex with
              window := s.ex.window.filter (fun w => w.sequence != o.sequence)
              stalls := s.ex.stalls.filter (fun x => x != .completion o.sequence)
              ordersDone := if c.outcome = .done then s.ex.ordersDone + 1 else s.ex.ordersDone
              ordersFailed := if c.outcome = .done then s.ex.ordersFailed else s.ex.ordersFailed + 1 } }, ps⟩).post
          (.notice (.orders 1 o.sequence (decide (c.outcome ≠ .done)))) := by
  unfold writeCompletion
  dsimp only
  rw [runs]
  dsimp only
  unfold orderDone
  dsimp only
  by_cases outcome : c.outcome = .done
  · simp only [outcome, ne_eq, not_true_eq_false, decide_false, Bool.false_eq_true, if_false, if_true]
    rfl
  · simp only [outcome, ne_eq, not_false_eq_true, decide_true, if_true, if_false]
    rfl

theorem length_resultsArea (r : List Byte) : (resultsArea r).length = 16 := by
  unfold resultsArea padTo
  rw [List.length_take, List.length_append, length_zeros]
  omega

theorem writeCompletion_spec (s : State) (ps : List Post) (o : Order) (c : Completion) :
    let ad := o.address.toNat
    let answer : List Byte := leBytes 1 (outcomeCode c.outcome) ++ leBytes 1 c.detail
    let results : List Byte := (padTo 16 c.results).take 16
    let ends := writeCompletion ⟨s, ps⟩ o c
    (Writable s.mem (ad + 0x0D) 51 →
      ∃ m m₁ m₂, Stored s.mem m₁ (ad + 0x0E) answer ∧ Stored m₁ m₂ (ad + 0x30) results ∧ Stored m₂ m (ad + 0x0D) [2] ∧
        ends = (judgeMark ⟨{ s with
            mem := m
            ex := { s.ex with
              window := s.ex.window.filter (fun w => w.sequence != o.sequence)
              stalls := s.ex.stalls.filter (fun x => x != .completion o.sequence)
              ordersDone := if c.outcome = .done then s.ex.ordersDone + 1 else s.ex.ordersDone
              ordersFailed := if c.outcome = .done then s.ex.ordersFailed else s.ex.ordersFailed + 1 } }, ps⟩).post
          (.notice (.orders 1 o.sequence (decide (c.outcome ≠ .done))))) ∧
    (∀ x, firstFault s.mem.writeFaults (ad + 0x0E) 2 = some x → ends = completionStalled s ps o c s.mem x) ∧
    (∀ x, Writable s.mem (ad + 0x0E) 2 → firstFault s.mem.writeFaults (ad + 0x30) 16 = some x →
      ∃ m, Stored s.mem m (ad + 0x0E) answer ∧ ends = completionStalled s ps o c m x) ∧
    (∀ x, Writable s.mem (ad + 0x0E) 2 → Writable s.mem (ad + 0x30) 16 →
      firstFault s.mem.writeFaults (ad + 0x0D) 1 = some x →
      ∃ m m₁, Stored s.mem m₁ (ad + 0x0E) answer ∧ Stored m₁ m (ad + 0x30) results ∧
        ends = completionStalled s ps o c m x) := by
  intro ad answer results ends
  have answer_length : answer.length = 2 := rfl
  have results_length : results.length = 16 := length_resultsArea c.results
  have first (fits : Writable s.mem (ad + 0x0E) 2) :
      ∃ m, Stored s.mem m (ad + 0x0E) answer ∧ writeRuns s (completionRuns ad c) =
        writeRuns { s with mem := m } [(ad + 0x30, results), (ad + 0x0D, leBytes 1 doneState)] :=
    writeRuns_cons_fits (by rw [answer_length]; exact fits)
  have second (m : Memory) : (∀ x, firstFault m.writeFaults (ad + 0x30) 16 = some x →
        writeRuns { s with mem := m } [(ad + 0x30, results), (ad + 0x0D, leBytes 1 doneState)] = ({ s with mem := m }, some x)) ∧
      (Writable m (ad + 0x30) 16 → ∃ m', Stored m m' (ad + 0x30) results ∧
        (∀ x, firstFault m.writeFaults (ad + 0x0D) 1 = some x →
          writeRuns { s with mem := m } [(ad + 0x30, results), (ad + 0x0D, leBytes 1 doneState)] =
            ({ s with mem := m' }, some x)) ∧
        (Writable m (ad + 0x0D) 1 → ∃ m'', Stored m' m'' (ad + 0x0D) [2] ∧
          writeRuns { s with mem := m } [(ad + 0x30, results), (ad + 0x0D, leBytes 1 doneState)] =
            ({ s with mem := m'' }, none))) := by
    have two := writeRuns_two (s := { s with mem := m }) (a := ad + 0x30) (b := ad + 0x0D) (as := results)
      (bs := leBytes 1 doneState)
    rw [results_length] at two
    exact two
  refine ⟨fun fits => ?_, fun x fault => ?_, fun x fits fault => ?_, fun x fits fits' fault => ?_⟩
  · obtain ⟨m₁, stored₁, runs₁⟩ := first (writable_sub fits (by omega) (by omega))
    have keeps (b n : Nat) (h : Writable s.mem b n) : Writable m₁ b n := (stored_firstFault stored₁ b n).trans h
    obtain ⟨m₂, stored₂, _, last⟩ := (second m₁).2 (keeps _ _ (writable_sub fits (by omega) (by omega)))
    obtain ⟨m, stored, runs⟩ := last (keeps _ _ (writable_sub fits (by omega) (by omega)))
    exact ⟨m, m₁, m₂, stored₁, stored₂, stored, writeCompletion_fits (runs₁.trans runs)⟩
  · exact writeCompletion_fault (writeRuns_cons_fault (bs := answer) (by rw [answer_length]; exact fault))
  · obtain ⟨m, stored, runs⟩ := first fits
    exact ⟨m, stored, writeCompletion_fault (runs.trans ((second m).1 x ((stored_firstFault stored _ _).trans fault)))⟩
  · obtain ⟨m₁, stored₁, runs₁⟩ := first fits
    obtain ⟨m, stored, faults, _⟩ := (second m₁).2 ((stored_firstFault stored₁ _ _).trans fits')
    exact ⟨m, m₁, stored₁, stored,
      writeCompletion_fault (runs₁.trans (faults x ((stored_firstFault stored₁ _ _).trans fault)))⟩

end completion

/-- Settles O30: `writeCompletion_spec` and `judgeMark_spec`, and the two orders that only complete. -/
theorem orderCompletion : Obligations.OrderCompletion := by
  unfold Obligations.OrderCompletion
  refine ⟨rfl, rfl, orderKindOfCode_iff, fun s ps q o c found => ?_, judgeMark_spec, fun s ps q r d b => complete_absent,
    fun s o oldest => ends_order rfl oldest rfl, fun s o running oldest unnamed => ?_⟩
  · rw [complete_eq found]
    exact writeCompletion_spec s ps o c
  · have taken : orderFor s none = some o := by
      unfold orderFor
      dsimp only
      rw [oldest, Option.filter_some, if_pos (decide_eq_true unnamed)]
    show execBadKind s = _
    unfold execBadKind
    refine run_ends running ?_
    unfold orderRow
    rw [taken]

end Sys2Proof.OrderWindow

/-! SUPPORT. The orders of the port units (R41, R42) and the store of the settings (R189). -/

namespace Sys2Proof.PortOrders

open Sys2Proof Sys2Proof.Machine Sys2Proof.Statements Sys2Proof.PortUnits Sys2Proof.OrderWindow

/-! ## A port that a host arms, holds or releases (R38) -/

section ports

variable {s : State} {o : Order} {p : PortIx}

/-- A port's record as a hold leaves it. -/
def heldRecord (r : Port) : Port :=
  { r with state := .held, cause := .hold, noiseSince := none, quietSince := none, trainingSince := none, lastProbe := none }

theorem changeRecord_held {now : Nat} {r : Port} (up : r.state ≠ .up) : changeRecord now r .held .hold = heldRecord r := by
  rw [changeRecord, if_neg (fun h => up h.1)]
  rfl

theorem changeRecord_held_up {now : Nat} {r : Port} (up : r.state = .up) :
    changeRecord now r .held .hold = heldRecord (leftUp r) := by
  rw [changeRecord, if_pos ⟨up, by decide⟩]
  rfl

/-- A hold, by the state of the port. -/
theorem holdPort_eq (s : State) (ps : List Post) (p : PortIx) : holdPort p ⟨s, ps⟩ = match (s.port p).state with
    | .dark | .lockout => ⟨s.modPort p heldRecord, ps ++ portReport p .held .hold⟩
    | .training =>
      ⟨(s.modPort p heldRecord).modLink p (fun l => { l with line := none }), ps ++ portReport p .held .hold⟩
    | .up => portLossEvent p ⟨s.modPort p (fun r => heldRecord (leftUp r)), ps ++ portReport p .held .hold⟩
    | .held | .faulted => ⟨s, ps⟩ := by
  unfold holdPort
  dsimp only
  cases state : (s.port p).state with
  | held => rfl
  | faulted => rfl
  | dark => exact changePort_still_eq (by simp [state]) (by simp [state]) (by decide) (changeRecord_held (by simp [state]))
  | lockout => exact changePort_still_eq (by simp [state]) (by simp [state]) (by decide) (changeRecord_held (by simp [state]))
  | training => exact changePort_from_training_eq state (by decide) (changeRecord_held (by simp [state]))
  | up => exact changePort_from_up_eq (f := fun r => heldRecord (leftUp r)) state (changeRecord_held_up state)

/-- A release of a HELD port. -/
theorem releasePort_held {ps : List Post} (state : (s.port p).state = .held) : releasePort p ⟨s, ps⟩ =
    ⟨s.modPort p (darkRecord s.now .release), ps ++ portReport p .dark .release⟩ := by
  unfold releasePort
  rw [if_pos state]
  exact changePort_still_eq (by simp [state]) (by simp [state]) (by decide) (changeRecord_dark (by simp [state]))

end ports

/-- Settles O32, by the port's state and its enable setting. -/
theorem armPort : Obligations.ArmPort := by
  unfold Obligations.ArmPort
  intro s o oldest
  have ends {a : Act} (act : armOrder ⟨s, []⟩ o = a) : Ends .armPort s a := ends_order rfl oldest act
  refine ⟨fun outside => ends (if_pos outside), fun p index => ?_⟩
  have inside : ¬ 3 < portParameter o := by omega
  have port : portOf (portParameter o) = p := by rw [index]; exact Fin.ext (Nat.mod_eq_of_lt p.isLt)
  refine ⟨fun state => ends ?_, fun state enabled => ?_, fun state enabled => ends ?_⟩
  · unfold armOrder
    dsimp only
    rw [if_neg inside, port, if_pos state]
  · intro u
    have still : (s.port p).state ≠ .up := by rw [state]; decide
    have port_u : u.port p = trainingRecord s.now .armed (s.port p) := port_modPort_same ..
    refine ⟨ends ?_, by rw [port_u]; rfl, by rw [port_u]; rfl, by rw [port_u]; rfl, ?_⟩
    · unfold armOrder
      dsimp only
      rw [if_neg inside, port, if_neg (fun h => h state), if_pos enabled,
        changePort_still_eq still (by rw [state]; decide) (by decide) (changeRecord_training still)]
      rfl
    · have running : u.inReset = false := oldest.running
      unfold portOutput
      rw [running, port_u]
      rfl
  · have still : (s.port p).state ≠ .up := by rw [state]; decide
    unfold armOrder
    dsimp only
    rw [if_neg inside, port, if_neg (fun h => h state), if_neg (by rw [enabled]; decide),
      changePort_still_eq still (by rw [state]; decide) (by decide) (changeRecord_held still)]
    rfl

/-- Settles O33, by the action and the port's state. -/
theorem holdPort : Obligations.HoldPort := by
  unfold Obligations.HoldPort
  intro s o oldest
  have ends {a : Act} (act : holdPortOrder ⟨s, []⟩ o = a) : Ends .holdPort s a := ends_order rfl oldest act
  refine ⟨fun outside => ends (if_pos outside), fun p index => ?_⟩
  have inside : ¬ 3 < portParameter o := by omega
  have port : portOf (portParameter o) = p := by rw [index]; exact Fin.ext (Nat.mod_eq_of_lt p.isLt)
  intro idle
  refine ⟨fun action => ends ?_, fun action => ?_, fun action => ?_⟩
  · unfold holdPortOrder
    dsimp only
    rw [if_neg inside, if_pos action]
    rfl
  · have known : ¬ 1 < holdAction o := by omega
    have hold : holdPortOrder ⟨s, []⟩ o = if (s.port p).state = .faulted then complete ⟨s, []⟩ o.sequence .wrongState
        else done (Machine.holdPort p ⟨s, []⟩) o := by
      unfold holdPortOrder
      dsimp only
      rw [if_neg inside, if_neg known, if_pos action, port]
    rw [holdPort_eq] at hold
    cases state : (s.port p).state <;> rw [state] at hold <;> exact ends hold
  · have known : ¬ 1 < holdAction o := by omega
    have release : holdPortOrder ⟨s, []⟩ o = if (s.port p).state = .held then done (releasePort p ⟨s, []⟩) o
        else complete ⟨s, []⟩ o.sequence .wrongState := by
      unfold holdPortOrder
      dsimp only
      rw [if_neg inside, if_neg known, if_neg (by omega), port]
    by_cases state : (s.port p).state = .held
    · rw [if_pos state]
      rw [if_pos state, releasePort_held state] at release
      exact ends release
    · rw [if_neg state]
      rw [if_neg state] at release
      exact ends release

/-! ## The store of the settings (R189) -/

theorem storeAct_post {f : Act → Act} {a : Act} (changed : originFlags (f a).s.store ≠ originFlags a.s.store) :
    storeAct f a = (f a).post (.mirror .origin) := if_neg changed

/-- Settles O42: the settings origin field shows the store in progress, so that each of the two writes it. -/
theorem storeSettings : Obligations.StoreSettings := by
  unfold Obligations.StoreSettings
  refine ⟨fun s o oldest => ⟨fun busy => ?_, fun free => ?_⟩, fun s t verified running storing => ?_⟩
  · exact ends_order rfl oldest (if_pos busy)
  · refine ends_order rfl oldest ?_
    unfold storeOrder
    have notBusy : ¬ s.store.storing.isSome = true := by rw [free]; decide
    dsimp only
    rw [if_neg notBusy, storeAct_post]
    · rfl
    · intro same
      have shown : (some (⟨some o.sequence, s.store.working, false⟩ : Storing)).isSome = s.store.storing.isSome :=
        congrArg (fun x => x.2.2.2) same
      rw [free] at shown
      exact absurd shown (by simp)
  · intro x a
    show execStoreEnd verified s = _
    unfold execStoreEnd
    refine run_ends running ?_
    have ended : storeAct (fun a => a.on (·.modStore (endStore t verified))) ⟨s, []⟩ = a := by
      have record : endStore t verified s.store = x := by
        unfold endStore
        cases verified with
        | false => rfl
        | true => cases changed : t.changed <;> simp [x, changed]
      rw [storeAct_post]
      · show (⟨{ s with store := endStore t verified s.store }, [.mirror .origin]⟩ : Act) = a
        rw [record]
      · intro same
        have shown : (endStore t verified s.store).storing.isSome = s.store.storing.isSome :=
          congrArg (fun x => x.2.2.2) same
        rw [storing] at shown
        unfold endStore at shown
        cases verified <;> exact absurd shown (by simp)
    unfold storeEnd
    dsimp only
    rw [storing]
    dsimp only
    rw [ended] <;> rfl

end Sys2Proof.PortOrders

/-! SUPPORT. The snapshots of READ_STATE (R175, R194): items laid out at their widths, and the order itself. -/

namespace Sys2Proof.ReadState

open Sys2Proof Sys2Proof.Machine Sys2Proof.Statements Sys2Proof.PortUnits Sys2Proof.Delivery Sys2Proof.OrderWindow

/-! ## Items laid out (R194) -/

/-- An item as the statements write it: its width and its bytes. -/
def pairOf : Item → Nat × List Byte
  | .num w v => item w v
  | .record n r => (n, r)

theorem place_eq (b : List Byte) (x : Item) :
    place b x = padTo ((b.length + (pairOf x).1 - 1) / (pairOf x).1 * (pairOf x).1) b ++ (pairOf x).2 := by
  cases x <;> rfl

/-- Items that end within the kind's length are laid out as `laidOut` says. -/
theorem layout_laidOut {k : SnapshotKind} {items : List Item} {pairs : List (Nat × List Byte)} {extents : List (Nat × Nat)}
    (pairs_eq : items.map pairOf = pairs) (extents_eq : items.map Item.extent = extents)
    (fits : extents.foldl itemEnd 8 ≤ snapshotLength k) : layout k items = laidOut k pairs := by
  have head : (snapshotHead k).length = 8 := rfl
  rw [layout_whole k items (by rw [length_places, head, extents_eq]; exact fits), laidOut, ← pairs_eq, List.foldl_map]
  congr 2
  funext b x
  exact place_eq b x

theorem pairs_flatten {α : Type} {l : List α} {g : α → List Item} {pairs : α → List (Nat × List Byte)}
    (each : ∀ x, (g x).map pairOf = pairs x) : ((l.map g).flatten).map pairOf = l.flatMap pairs := by
  rw [List.map_flatten, List.map_map, List.flatMap_def]
  congr 2
  funext x
  exact each x

theorem extents_flatten {α : Type} {l : List α} {g : α → List Item} {extents : List (Nat × Nat)}
    (each : ∀ x, (g x).map Item.extent = extents) :
    ((l.map g).flatten).map Item.extent = l.flatMap (fun _ => extents) := by
  rw [List.map_flatten, List.map_map, List.flatMap_def]
  congr 2
  funext x
  exact each x

theorem length_layout (k : SnapshotKind) (items : List Item) : (layout k items).length = snapshotLength k := by
  unfold layout padTo
  rw [List.length_take, List.length_append, length_zeros]
  omega

theorem prefix_places (items : List Item) (b : List Byte) : b <+: items.foldl place b := by
  induction items generalizing b with
  | nil => exact List.prefix_rfl
  | cons x xs ih =>
    refine List.IsPrefix.trans ?_ (ih (place b x))
    rw [place_eq, padTo, List.append_assoc]
    exact List.prefix_append _ _

theorem layout_head (k : SnapshotKind) (items : List Item) : (layout k items).take 8 = snapshotHead k := by
  have longer : 8 ≤ snapshotLength k := by cases k <;> decide
  obtain ⟨rest, whole⟩ := prefix_places items (snapshotHead k)
  unfold layout padTo
  rw [List.take_take, Nat.min_eq_left longer, ← whole, List.append_assoc, List.take_left']
  rfl

theorem pairOf_orderItem (q : Option (BitVec 32)) : pairOf (orderItem q) = item 4 (q.elim 0 (fun x => x.toNat)) := by
  cases q <;> rfl

theorem pairs_recItems (r : Option Rec) : (recItems r).map pairOf = match r with
    | none => [item 8 0, item 4 0, item 1 0, item 1 0]
    | some r => [item 8 (r.address.elim 0 (fun a => a.toNat)), item 4 (r.number.elim 0 (fun b => b.toNat)),
        item 1 (stageCode r.stage), item 1 (r.outcome.elim 0 blockOutcomeCode)] := by
  cases r with
  | none => rfl
  | some r => cases address : r.address <;> cases number : r.number <;> cases outcome : r.outcome <;>
      simp only [recItems, address, number, outcome] <;> rfl

theorem zeros_zero : zeros 0 = [] := rfl

/-- Numbers laid out one after the other, where each place's padding is computed. -/
theorem place_num (b : List Byte) (w v : Nat) :
    place b (.num w v) = b ++ (zeros ((b.length + w - 1) / w * w - b.length) ++ leBytes w v) := List.append_assoc ..

theorem place_record (b : List Byte) (n : Nat) (r : List Byte) :
    place b (.record n r) = b ++ (zeros ((b.length + n - 1) / n * n - b.length) ++ r) := List.append_assoc ..

theorem identity_snapshot (s : State) (n : SlotIx) :
    let x := s.store
    snapshot s .identity n = leBytes 1 (snapshotKindCode .identity) ++ leBytes 1 1 ++ zeros 2 ++ leBytes 4 64 ++
      leBytes 2 x.identity.frameClass.toNat ++ zeros 6 ++
      leBytes 8 x.identity.serial.toNat ++ leBytes 4 x.identity.capabilities.toNat ++ leBytes 2 x.incarnation.toNat ++
      leBytes 2 0x47D3 ++ leBytes 1 0x44 ++ leBytes 1 Config.revision.toNat ++ zeros 30 := by
  intro x
  have fits : ((identitySnapshotItems x).foldl place (snapshotHead .identity)).length ≤ snapshotLength .identity := by
    have extents : (identitySnapshotItems x).map Item.extent =
      [(2, 2), (8, 8), (4, 4), (2, 2), (2, 2), (1, 1), (1, 1)] := rfl
    rw [length_places, extents]
    decide
  show layout .identity (identitySnapshotItems x) = _
  rw [layout_whole _ _ fits]
  simp only [identitySnapshotItems, snapshotHead, snapshotLength, padTo, List.foldl_cons, List.foldl_nil, place_num,
    List.length_append, length_leBytes, length_zeros, Nat.reduceAdd, Nat.reduceSub, Nat.reduceMul, Nat.reduceDiv,
    zeros_zero, List.nil_append, List.append_assoc]
  rfl

theorem timebase_snapshot (s : State) (n : SlotIx) :
    let t := s.tb
    let c := t.counters
    snapshot s .timebase n = leBytes 1 (snapshotKindCode .timebase) ++ leBytes 1 1 ++ zeros 2 ++ leBytes 4 128 ++
      leBytes 8 t.rackTime.toNat ++ leBytes 1 (timeStateCode t.state) ++
      leBytes 1 t.master.val ++ leBytes 1 (portValue (upstreamPort s)) ++
      leBytes 1 (t.distance.getD 0) ++ zeros 4 ++ leBytes 8 (BitVec.ofInt 64 t.correction).toNat ++
      leBytes 8 (BitVec.ofInt 64 (t.lastOffset.getD 0)).toNat ++ leBytes 1 (flagCode t.stepPending) ++
      leBytes 1 t.lockCount ++ leBytes 1 t.excursions ++ zeros 5 ++
      leBytes 8 (t.holdoverSince.elim 0 (fun m => s.now - m)) ++ leBytes 2 s.store.working.holdover ++ zeros 2 ++
      [c.accepted, c.ignored, c.far, c.nodelay, c.held, c.excursion, c.steps, c.losses, c.gaps].flatMap
        (fun c => leBytes 4 c.toNat) ++ zeros 32 := by
  intro t c
  have counters : (timeCounterBytes c).length = 36 := length_counterBytes _
  have fits : ((timebaseItems s).foldl place (snapshotHead .timebase)).length ≤ snapshotLength .timebase := by
    rw [length_places]
    simp only [timebaseItems, counterItems, flagItem, List.map_append, List.map_cons, List.map_nil, Item.extent]
    rw [counters]
    decide
  show layout .timebase (timebaseItems s) = _
  rw [layout_whole _ _ fits, ← counterBytes_eq]
  simp only [timebaseItems, counterItems, flagItem, snapshotHead, snapshotLength, padTo, List.cons_append, List.nil_append,
    List.foldl_cons, List.foldl_nil, place_num, place_record,
    List.length_append, length_leBytes, length_zeros, Nat.reduceAdd, Nat.reduceSub, Nat.reduceMul, Nat.reduceDiv,
    zeros_zero, List.append_assoc]
  rw [counters]
  cases t.holdoverSince <;> rfl

theorem roster_snapshot (s : State) (n : SlotIx) :
    let x := s.roster
    let c := x.counters
    snapshot s .roster n = laidOut .roster ([item 1 (standingCode x.standing), item 1 x.anchor.val,
        item 1 (flagCode (s.own != 0 && x.anchor == s.own)), item 1 (flagCode x.leavingLatch),
        item 1 (flagCode x.refusedLatch), item 1 (flagCode x.heldLatch), item 1 (flagCode x.rejoin),
        item 4 x.generation.toNat, item 1 x.issuer.val] ++
      allFrames.flatMap (fun f => [item 1 (entryStateCode (s.entry f).state), item 8 (s.entry f).serial.toNat]) ++
      allFrames.flatMap (fun f => match (s.entry f).identity with
        | none => [item 2 0, item 4 0, item 1 0, item 1 0, item 1 0, item 8 ((s.entry f).deadline.getD 0)]
        | some i => [item 2 i.frameClass.toNat, item 4 i.capabilities.toNat, item 1 (flagCode i.rejoin),
            item 1 i.entryFrame.val, item 1 i.entryPort.val, item 8 ((s.entry f).deadline.getD 0)]) ++
      [countItems [c.helloForwarded, c.helloDropped, c.verdictForwarded, c.verdictDropped, c.leaveDropped,
        c.rollIgnored]]) := by
  intro x c
  have counters : (rosterCounterBytes c).length = 24 := length_counterBytes _
  refine layout_laidOut (items := rosterItems s) (extents := [(1, 1), (1, 1), (1, 1), (1, 1), (1, 1), (1, 1), (1, 1), (4, 4), (1, 1)] ++
    allFrames.flatMap (fun _ => [(1, 1), (8, 8)]) ++
    allFrames.flatMap (fun _ => [(2, 2), (4, 4), (1, 1), (1, 1), (1, 1), (8, 8)]) ++ [(4, 24)]) ?_ ?_ (by decide +kernel)
  · unfold rosterItems counterItems rosterCounterBytes
    dsimp only
    rw [List.map_append, List.map_append, List.map_append, pairs_flatten (fun f => rfl), pairs_flatten (fun f => ?_),
      counterBytes_eq]
    · rfl
    · unfold identityItems
      cases (s.entry f).identity <;> rfl
  · unfold rosterItems counterItems
    dsimp only
    rw [List.map_append, List.map_append, List.map_append, extents_flatten (extents := [(1, 1), (8, 8)]) (fun f => ?_),
      extents_flatten (extents := [(2, 2), (4, 4), (1, 1), (1, 1), (1, 1), (8, 8)]) (fun f => ?_)]
    · rw [← counters]
      rfl
    · unfold identityItems
      cases (s.entry f).identity <;> rfl
    · rfl

theorem reach_snapshot (s : State) (n : SlotIx) :
    let c := s.reach.counters
    snapshot s .reach n = laidOut .reach (allFrames.flatMap (fun f => match s.route f with
        | none => [item 1 0, item 1 0, item 1 0, item 2 0, item 2 0, item 1 0, (4, zeros 20)]
        | some r =>
          let z := r.contents
          [item 1 1, item 1 r.hops, item 1 r.port.val, item 2 r.incarnation.toNat, item 2 r.sequence.toNat, item 1 r.age,
            (4, leBytes 1 z.frame.toNat ++ leBytes 1 z.anchorRank.toNat ++ leBytes 1 z.timeRank.toNat ++
              leBytes 1 z.timeState.toNat ++ leBytes 6 z.serial.toNat ++ leBytes 2 z.incarnation.toNat ++
              leBytes 4 z.generation.toNat ++ leBytes 1 z.followedAnchor.toNat ++ leBytes 1 z.followedMaster.toNat ++
              leBytes 1 z.standing.toNat ++ leBytes 1 z.leaving.toNat)]) ++
      [item 2 s.reach.ownSequence.toNat, item 1 (bitmap 8 allPorts s.reach.portSet.get).toNat,
        countItems [c.learned, c.improved, c.late, c.stale, c.far, c.malformed, c.conflict, c.lost]]) := by
  intro c
  have counters : (reachCounterBytes c).length = 32 := length_counterBytes _
  refine layout_laidOut (items := reachItems s) (extents :=
    allFrames.flatMap (fun _ => [(1, 1), (1, 1), (1, 1), (2, 2), (2, 2), (1, 1), (4, 20)]) ++ [(2, 2), (1, 1), (4, 32)])
    ?_ ?_ (by decide +kernel)
  · unfold reachItems counterItems reachCounterBytes
    dsimp only
    rw [List.append_assoc, List.map_append, pairs_flatten (fun f => ?_), counterBytes_eq]
    · rfl
    · unfold routeItems
      cases s.route f <;> rfl
  · unfold reachItems counterItems
    rw [List.append_assoc, List.map_append,
      extents_flatten (extents := [(1, 1), (1, 1), (1, 1), (2, 2), (2, 2), (1, 1), (4, 20)]) (fun f => ?_)]
    · rw [← counters]
      rfl
    · unfold routeItems
      cases s.route f <;> rfl

theorem ports_snapshot (s : State) (n : SlotIx) :
    snapshot s .ports n = laidOut .ports (allPorts.flatMap (fun p =>
    let r := s.port p
    let c := (s.link p).counters
    [item 1 (portStateCode r.state), item 1 (portCauseCode r.cause), item 1 r.health, item 1 r.settling,
      item 8 r.partnerSerial.toNat, item 1 r.partnerFrame.val, item 1 r.partnerPort.val, item 2 r.partnerIncarnation.toNat,
      item 1 r.samples.length, item 4 (r.samples.getD 0 0), item 4 (r.samples.getD 1 0), item 4 (r.samples.getD 2 0),
      item 4 (r.samples.getD 3 0), item 4 (if r.samples = [] then 0 else r.samples.sum / r.samples.length),
      item 2 r.attempts.toNat, item 1 r.probeNumber.toNat, item 1 (r.outstanding.elim 0 (fun o => o.number.toNat)),
      item 8 (r.outstanding.elim 0 (fun o => o.departure.toNat)), item 4 r.outliers.toNat, item 4 r.missedEchoes.toNat,
      countItems [c.delimit, c.length, c.check, c.kind, c.trainingDiscard, c.own, c.noroute, c.reflect, c.hops, c.tDrops,
        c.cDrops, c.dDrops, c.flush, c.reroute]])) := by
  refine layout_laidOut (items := portsItems s) (extents := allPorts.flatMap (fun _ =>
    [(1, 1), (1, 1), (1, 1), (1, 1), (8, 8), (1, 1), (1, 1), (2, 2), (1, 1), (4, 4), (4, 4), (4, 4), (4, 4), (4, 4), (2, 2),
      (1, 1), (1, 1), (8, 8), (4, 4), (4, 4), (4, 56)])) ?_ ?_ (by decide +kernel)
  · unfold portsItems
    refine pairs_flatten (fun p => ?_)
    unfold portItems
    dsimp only
    cases (s.port p).outstanding <;> rfl
  · unfold portsItems
    refine extents_flatten (fun p => ?_)
    have counters : (portCounterBytes (s.link p).counters).length = 56 := length_counterBytes _
    unfold portItems
    dsimp only
    rw [← counters]
    cases (s.port p).outstanding <;> rfl

theorem triggers_snapshot (s : State) (n : SlotIx) :
    let x := s.trig
    let c := x.counters
    snapshot s .triggers n = laidOut .triggers ([item 1 x.schedule.length] ++ (List.range 32).flatMap (fun i => match x.schedule[i]? with
        | none => [item 1 0, item 8 0, item 1 0, item 2 0, item 1 0]
        | some t => [item 1 t.lane.val, item 8 t.fireTime.toNat, item 1 t.origin.val, item 2 t.sequence.toNat,
            item 1 t.quality.toNat]) ++
      [item 8 s.tb.rackTime.toNat] ++ allLanes.flatMap (fun k =>
        let l := x.lanes.get k
        [item 1 (inputStageCode l.stage), item 1 (flagCode l.pulseEnd.isSome),
          item 4 (l.pulseEnd.elim 0 (fun e => e - s.now))]) ++
      [item 2 x.sequence.toNat, countItems [c.fired, c.late, c.dropped, c.merged, c.localOnly, c.outputOff, c.trigIgnored,
        c.trigMalformed, c.mutedEdge, c.cancelled]]) := by
  intro x c
  have counters : (triggerCounterBytes c).length = 40 := length_counterBytes _
  refine layout_laidOut (items := triggersItems s) (extents := [(1, 1)] ++
    (List.range 32).flatMap (fun _ => [(1, 1), (8, 8), (1, 1), (2, 2), (1, 1)]) ++ [(8, 8)] ++
    allLanes.flatMap (fun _ => [(1, 1), (1, 1), (4, 4)]) ++ [(2, 2)] ++ [(4, 40)]) ?_ ?_ (by decide +kernel)
  · unfold triggersItems counterItems triggerCounterBytes
    dsimp only
    rw [List.map_append, List.map_append, List.map_append, List.map_append, List.map_append,
      pairs_flatten (fun i => ?_), pairs_flatten (fun k => ?_), counterBytes_eq, List.append_assoc]
    · rfl
    · unfold laneItems
      cases (s.trig.lanes.get k).pulseEnd <;> rfl
    · unfold triggerItems
      cases s.trig.schedule[i]? <;> rfl
  · unfold triggersItems counterItems
    dsimp only
    rw [List.map_append, List.map_append, List.map_append, List.map_append, List.map_append,
      extents_flatten (extents := [(1, 1), (8, 8), (1, 1), (2, 2), (1, 1)]) (fun i => ?_),
      extents_flatten (extents := [(1, 1), (1, 1), (4, 4)]) (fun k => ?_)]
    · rw [← counters]
      rfl
    · unfold laneItems
      cases (s.trig.lanes.get k).pulseEnd <;> rfl
    · unfold triggerItems
      cases s.trig.schedule[i]? <;> rfl

theorem settings_snapshot (s : State) (n : SlotIx) :
    let x := s.store
    let w := x.working
    snapshot s .settings n = laidOut .settings [(8, leBytes 1 w.frame.val ++ leBytes 1 w.anchorRank.val ++ leBytes 1 w.timeRank.val ++
        leBytes 1 (bitmap 8 allPorts w.enable.get).toNat ++ leBytes 1 (wakeCode w.wake) ++ leBytes 1 w.threshold ++
        leBytes 2 w.holdLimit ++ leBytes 2 w.window ++ leBytes 2 w.holdover ++ zeros 4 ++ allLanes.flatMap (fun k =>
          let l := w.lanes.get k
          leBytes 1 (flagCode l.inputEnable + 2 * flagCode l.fallingEdge + 4 * flagCode l.outputEnable) ++ zeros 1 ++
            leBytes 2 l.lead ++ leBytes 2 l.width ++ zeros 2)),
      (8, leBytes 1 (flagCode w.filter.armed) ++ zeros 3 ++ leBytes 4 w.filter.required.toNat ++
        (List.finRange 4).flatMap (fun k =>
          let p := w.filter.patterns.get k
          leBytes 1 (flagCode p.enabled) ++ zeros 1 ++ leBytes 2 p.classValue.toNat ++ leBytes 2 p.classMask.toNat ++
            zeros 2 ++ leBytes 8 p.serialValue.toNat ++ leBytes 8 p.serialMask.toNat)),
      item 1 (settingsOriginCode x.origin), item 1 (flagCode x.modified), item 1 (flagCode x.storedValid),
      item 1 (flagCode x.storing.isSome)] := by
  intro x w
  refine layout_laidOut (items := settingsItems s.store) (extents := [(8, 144), (8, 104), (1, 1), (1, 1), (1, 1), (1, 1)])
    ?_ ?_ (by decide)
  · unfold settingsItems settingsImage filterImage
    rw [← List.flatMap_def, ← List.flatMap_def]
    rfl
  · have settings : (settingsImage w).length = 144 := rfl
    have filter : (filterImage w.filter).length = 104 := rfl
    rw [← settings, ← filter]
    rfl

theorem streamSlot_snapshot (s : State) (n : SlotIx) :
    let x := s.slot n
    let c := x.counters
    snapshot s .streamSlot n = laidOut .streamSlot ([item 1 (roleCode x.role), item 1 (streamStateCode x.state), item 1 (streamCauseCode x.cause),
        item 2 x.tag.toNat, item 1 x.peer.val, item 2 (if x.openAbsent then 0 else x.openNumber.toNat),
        item 2 (x.peerIncarnation.elim 0 (fun i => i.toNat)), item 4 x.blockSize, item 4 x.pace,
        item 1 (match x.gate with | .now => 0 | .atTime _ => 1 | .onLane _ => 2),
        item 8 (match x.gate with | .now => 0 | .atTime t => t.toNat | .onLane k => k.val),
        item 8 x.startTime.toNat, item 8 x.nextPace, item 1 x.interval, item 4 x.lateness, item 8 x.chainHead.toNat,
        item 1 (flagCode x.selfHalt), item 1 (flagCode x.peerHalt), item 1 (flagCode x.drain), item 4 x.creditLimit.toNat,
        item 1 x.unresolved, item 8 (x.strandDeadline.getD 0), item 8 (x.closeDeadline.getD 0),
        item 4 (x.openOrder.elim 0 (fun q => q.toNat)), item 4 (x.finishOrder.elim 0 (fun q => q.toNat)),
        countItems [c.openSent, c.blocksStarted, c.missedPace, c.creditSent, c.unsent, c.delivered, c.damaged,
          c.unconfirmed, c.discarded, c.rejected, c.ended, c.cutOff, c.stale, c.beyond, c.heldOff, c.gap, c.late,
          c.ackIgnored, c.faults], item 4 s.stream.unmatched.toNat] ++
      (List.range 16).flatMap (fun i => match x.fetched[i]? with
        | none => [item 8 0, item 4 0, item 1 0, item 1 0]
        | some r => [item 8 (r.address.elim 0 (fun a => a.toNat)), item 4 (r.number.elim 0 (fun b => b.toNat)),
            item 1 (stageCode r.stage), item 1 (r.outcome.elim 0 blockOutcomeCode)])) := by
  intro x c
  have counters : (slotCounterBytes c).length = 76 := length_counterBytes _
  refine layout_laidOut (items := slotItems s n) (extents := [(1, 1), (1, 1), (1, 1), (2, 2), (1, 1), (2, 2), (2, 2),
    (4, 4), (4, 4), (1, 1), (8, 8), (8, 8), (8, 8), (1, 1), (4, 4), (8, 8), (1, 1), (1, 1), (1, 1), (4, 4), (1, 1), (8, 8),
    (8, 8), (4, 4), (4, 4)] ++ [(4, 76)] ++ [(4, 4)] ++ (List.range 16).flatMap (fun _ => [(8, 8), (4, 4), (1, 1), (1, 1)]))
    ?_ ?_ (by decide +kernel)
  · unfold slotItems counterItems slotCounterBytes
    dsimp only
    rw [List.map_append, List.map_append, List.map_append, fetchWindow, pairs_flatten (fun i => ?_), counterBytes_eq]
    · simp only [List.map_cons, pairOf_orderItem]
      cases (s.slot n).peerIncarnation <;> rfl
    · rw [pairs_recItems]
  · unfold slotItems counterItems
    dsimp only
    rw [List.map_append, List.map_append, List.map_append, fetchWindow,
      extents_flatten (extents := [(8, 8), (4, 4), (1, 1), (1, 1)]) (fun i => ?_)]
    · rw [← counters]
      rfl
    · unfold recItems
      cases x.fetched[i]? <;> rfl

/-! ## The order (R175) -/

theorem snapshotKindOfCode_iff (k : SnapshotKind) (n : Nat) : snapshotKindOfCode n = some k ↔ snapshotKindCode k = n :=
  ofCode_iff (fun k => by cases k <;> decide) (fun k l => by cases k <;> cases l <;> decide) k n

theorem leNat_lt (bs : List Byte) : leNat bs < 256 ^ bs.length := by
  induction bs with
  | nil => exact Nat.one_pos
  | cons b bs ih =>
    have byte : b.toNat < 256 := b.isLt
    rw [leNat, List.length_cons, Nat.pow_succ]
    omega

theorem leAt_lt (bs : List Byte) (off n : Nat) : leAt bs off n < 256 ^ n := by
  refine Nat.lt_of_lt_of_le (leNat_lt _) (Nat.pow_le_pow_right (by decide) ?_)
  rw [bytesAt, List.length_take]
  exact Nat.min_le_left ..

/-- A write that faults leaves what stands below the faulting address. -/
theorem writeUpTo_stored {s : State} {a x : Nat} {bs : List Byte} (inside : a ≤ addressSpace)
    (fault : firstFault s.mem.writeFaults a bs.length = some x) :
    ∃ m, Stored s.mem m a (bs.take (x - a)) ∧ writeUpTo s a bs x = { s with mem := m } :=
  ⟨_, ⟨memByte_store s.mem a _, rfl, rfl⟩, writeUpTo_eq inside fault⟩

section order

variable {s : State} {o : Order} {k : SnapshotKind}

theorem length_snapshot (s : State) (k : SnapshotKind) (n : SlotIx) : (snapshot s k n).length = snapshotLength k :=
  length_layout ..

theorem writeSnapshot_fits (fits : Writable s.mem (readStatePointer o) (snapshotLength k)) :
    ∃ m, Stored s.mem m (readStatePointer o) (snapshot s k (slotOf (readStateSlot o))) ∧
      writeSnapshot ⟨s, []⟩ o k = complete ⟨{ s with mem := m }, []⟩ o.sequence .done 0 (leBytes 2 (snapshotLength k)) := by
  rw [← length_snapshot s k (slotOf (readStateSlot o))] at fits ⊢
  obtain ⟨m, stored, written⟩ := writeHost_stored fits
  refine ⟨m, stored, ?_⟩
  unfold writeSnapshot
  dsimp only
  rw [written]
  rfl

theorem writeSnapshot_fault {x : Nat} (fault : firstFault s.mem.writeFaults (readStatePointer o) (snapshotLength k) = some x) :
    readStatePointer o ≤ x ∧ ∃ m, Stored s.mem m (readStatePointer o)
        ((snapshot s k (slotOf (readStateSlot o))).take (x - readStatePointer o)) ∧
      writeSnapshot ⟨s, []⟩ o k =
        (complete ⟨{ s with mem := m }, []⟩ o.sequence .memoryFault).post (faultPost .snapshotWrite x) := by
  rw [← length_snapshot s k (slotOf (readStateSlot o))] at fault
  have inside : readStatePointer o ≤ addressSpace := Nat.le_of_lt (leAt_lt o.parameters 8 8)
  obtain ⟨m, stored, written⟩ := writeUpTo_stored inside fault
  refine ⟨(firstFault_some inside fault).1, m, stored, ?_⟩
  unfold writeSnapshot
  dsimp only
  rw [writeHost_fault fault]
  dsimp only [Act.on]
  rw [written]
  rfl

theorem readStateOrder_kind (kind : snapshotKindOfCode (readStateKind o) = some k) :
    readStateOrder ⟨s, []⟩ o =
      if readStatePointer o = 0 then badOrder ⟨s, []⟩ o 1
      else if readStateLength o < snapshotLength k then badOrder ⟨s, []⟩ o 2
      else if k = .streamSlot ∧ 63 < readStateSlot o then badOrder ⟨s, []⟩ o 3
      else writeSnapshot ⟨s, []⟩ o k := by
  unfold readStateOrder
  rw [kind]

end order

/-- Settles O31: the layouts, and the order by its first parameter out of range and its write. -/
theorem readState : Obligations.ReadState := by
  unfold Obligations.ReadState
  refine ⟨⟨rfl, rfl, rfl, rfl, rfl, rfl, rfl, rfl⟩, fun s n => ⟨identity_snapshot s n, ?timebase⟩, roster_snapshot,
    reach_snapshot, ports_snapshot, triggers_snapshot, settings_snapshot, streamSlot_snapshot,
    ⟨rfl, rfl, rfl, rfl, rfl, rfl, rfl, rfl, rfl, rfl, rfl, rfl, rfl, snapshotKindOfCode_iff⟩,
    fun s o oldest => ⟨fun unnamed => ?unnamed, fun k kind => ?kind⟩⟩
  case timebase =>
    refine (timebase_snapshot s n).trans ?_
    rw [upstreamPort_value] <;> rfl
  case unnamed =>
    refine ends_order rfl oldest ?_
    unfold readStateOrder
    rw [unnamed]
    rfl
  case kind =>
    intro ad bs
    have ends {a : Act} (act : readStateOrder ⟨s, []⟩ o = a) : Ends .readState s a := ends_order rfl oldest act
    rw [readStateOrder_kind kind] at ends
    refine ⟨length_snapshot .., layout_head .., fun null => ends (if_pos null), fun pointer short => ends ?_,
      fun pointer long stream slot => ends ?_, fun pointer long slot => ?_⟩
    · rw [if_neg pointer, if_pos short]
      rfl
    · rw [if_neg pointer, if_neg (Nat.not_lt.2 long), if_pos ⟨stream, slot⟩]
      rfl
    · have valid : ¬ (k = .streamSlot ∧ 63 < readStateSlot o) := fun ⟨stream, outside⟩ => by
        have := slot stream
        omega
      rw [if_neg pointer, if_neg (Nat.not_lt.2 long), if_neg valid] at ends
      refine ⟨fun fits => ?_, fun x fault => ?_⟩
      · obtain ⟨m, stored, act⟩ := writeSnapshot_fits fits
        exact ⟨m, stored, ends act⟩
      · obtain ⟨low, m, stored, act⟩ := writeSnapshot_fault fault
        exact ⟨low, m, stored, ends act⟩

end Sys2Proof.ReadState

/-! SUPPORT. The roster unit's standing, its choice of anchor and its acts (R62 to R69). -/

namespace Sys2Proof.RosterActs

open Sys2Proof Sys2Proof.Machine Sys2Proof.Statements Sys2Proof.PortUnits

/-! ## Frames, and vectors written at several places -/

theorem mem_allFrames (f : FrameNo) : f ∈ allFrames ↔ f ≠ 0 := by
  revert f
  decide

theorem allFrames_nodup : allFrames.Nodup := (List.nodup_finRange 32).tail

theorem get_foldl_upd {α : Type} {n : Nat} (g : Fin n → α → α) (ks : List (Fin n)) (nodup : ks.Nodup) (v : Vector α n)
    (k : Fin n) :
    (ks.foldl (fun v j => upd v j (g j)) v).get k = if k ∈ ks then g k (v.get k) else v.get k := by
  induction ks generalizing v with
  | nil => rfl
  | cons j ks ih =>
    obtain ⟨absent, nodup⟩ := List.nodup_cons.1 nodup
    rw [List.foldl_cons, ih nodup, get_upd]
    by_cases at_j : k = j
    · subst at_j
      simp [absent]
    · simp [at_j]

/-! ## The best of the candidates (R64) -/

section best

variable {rank : FrameNo → Nat} {f : FrameNo}

/-- A frame is the best one or comes after it. -/
def After (rank : FrameNo → Nat) (f g : FrameNo) : Prop := g = f ∨ rank g < rank f ∨ rank g = rank f ∧ f.val < g.val

theorem betterRank_iff (a b : Nat × Nat) : betterRank a b = true ↔ b.1 < a.1 ∨ a.1 = b.1 ∧ a.2 < b.2 := by
  simp [betterRank]

theorem after_not_better {g : FrameNo} (after : After rank f g) : ¬ betterRank (rank g, g.val) (rank f, f.val) = true := by
  rw [betterRank_iff]
  rcases after with rfl | lower | ⟨equal, later⟩ <;> dsimp only <;> omega

theorem after_better {g : FrameNo} (after : After rank f g) (other : g ≠ f) :
    betterRank (rank f, f.val) (rank g, g.val) = true := by
  rw [betterRank_iff]
  rcases after with same | lower | ⟨equal, later⟩
  · exact absurd same other
  · exact .inl lower
  · exact .inr ⟨equal.symm, later⟩

theorem foldl_best (rest : List FrameNo) (b : FrameNo) (mem : f ∈ b :: rest) (best : ∀ g ∈ b :: rest, After rank f g) :
    rest.foldl (fun b g => if betterRank (rank g, g.val) (rank b, b.val) then g else b) b = f := by
  induction rest generalizing b with
  | nil => exact (List.mem_singleton.1 mem).symm
  | cons g rest ih =>
    rw [List.foldl_cons]
    refine ih _ ?_ ?_
    · rcases List.mem_cons.1 mem with rfl | later
      · rw [if_neg (after_not_better (best g (by simp)))]
        exact List.mem_cons_self ..
      · rcases List.mem_cons.1 later with rfl | later
        · by_cases same : b = f
          · subst same
            simp
          · rw [if_pos (after_better (best b (by simp)) same)]
            exact List.mem_cons_self ..
        · exact List.mem_cons_of_mem _ later
    · intro h inside
      rcases List.mem_cons.1 inside with rfl | inside
      · split
        · exact best g (by simp)
        · exact best b (by simp)
      · exact best h (by simp [inside])

theorem bestBy_eq {fs : List FrameNo} (mem : f ∈ fs) (best : ∀ g ∈ fs, After rank f g) : bestBy rank fs = f := by
  cases fs with
  | nil => exact absurd mem (by simp)
  | cons b rest => exact foldl_best rest b mem best

/-- The best of a list of candidates whose ranks are those of a relation. -/
theorem bestBy_of_best {fs : List FrameNo} {candidate : FrameNo → Nat → Prop} {n : Nat}
    (listed : ∀ g, g ∈ fs ↔ ∃ m, candidate g m) (ranked : ∀ g m, candidate g m → rank g = m) (best : Best candidate f n) :
    bestBy rank fs = f := by
  obtain ⟨is, highest⟩ := best
  refine bestBy_eq ((listed f).2 ⟨n, is⟩) (fun g inside => ?_)
  obtain ⟨m, other⟩ := (listed g).1 inside
  unfold After
  rw [ranked g m other, ranked f n is]
  exact highest g m other

theorem bestBy_none {fs : List FrameNo} {candidate : FrameNo → Nat → Prop} (listed : ∀ g, g ∈ fs ↔ ∃ m, candidate g m)
    (none_is : ∀ g m, ¬ candidate g m) : bestBy rank fs = 0 := by
  have empty : fs = [] := List.eq_nil_iff_forall_not_mem.2 (fun g inside => by
    obtain ⟨m, is⟩ := (listed g).1 inside
    exact none_is g m is)
  rw [empty]
  rfl

end best

/-! ## Standing (R62) -/

section standing

variable {s : State}

theorem ownEntryIs_iff {st : EntryState} (notVacant : st ≠ .vacant) : ownEntryIs s st = true ↔ OwnEntry s st := by
  unfold ownEntryIs ownEntry OwnEntry
  by_cases absent : s.own = 0 ∨ (s.entry s.own).serial ≠ s.serial ∨ (s.entry s.own).state = .vacant
  · rw [if_pos absent]
    refine iff_of_false (by simp) ?_
    rintro ⟨own, serial, state, _⟩
    rcases absent with h | h | h
    · exact own h
    · exact h serial
    · exact notVacant (state.symm.trans h)
  · rw [if_neg absent]
    rw [not_or, not_or, Classical.not_not] at absent
    obtain ⟨own, serial, _⟩ := absent
    simp [own, serial, notVacant]

theorem isAnchor_iff : isAnchor s = true ↔ s.own ≠ 0 ∧ s.roster.anchor = s.own := by
  unfold isAnchor
  rw [Bool.and_eq_true, bne_iff_ne, beq_iff_eq]

theorem standingOf_spec (s : State) :
    let r := s.roster
    (s.own = 0 → standingOf s = .unnumbered) ∧
    (s.own ≠ 0 → r.leavingLatch = true → standingOf s = .leaving) ∧
    (s.own ≠ 0 → r.leavingLatch = false → r.anchor = s.own → standingOf s = .member) ∧
    (s.own ≠ 0 → r.leavingLatch = false → r.anchor ≠ s.own → r.anchor ≠ 0 → OwnEntry s .member →
      standingOf s = .member) ∧
    (s.own ≠ 0 → r.leavingLatch = false → r.anchor ≠ s.own → ¬ (r.anchor ≠ 0 ∧ OwnEntry s .member) →
      (r.refusedLatch = true → standingOf s = .refused) ∧
      (r.refusedLatch = false → r.anchor = 0 → standingOf s = .alone) ∧
      (r.refusedLatch = false → r.anchor ≠ 0 →
        ((r.heldLatch = true ∨ OwnEntry s .quarantined) → standingOf s = .held) ∧
        (r.heldLatch = false → ¬ OwnEntry s .quarantined → standingOf s = .seeking))) := by
  intro r
  have member := ownEntryIs_iff (s := s) (st := .member) (by decide)
  have quarantined := ownEntryIs_iff (s := s) (st := .quarantined) (by decide)
  unfold standingOf
  dsimp only
  refine ⟨fun own => if_pos own, fun own leaving => ?_, fun own stays anchor => ?_, fun own stays other follows entry => ?_,
    fun own stays other notMember => ?_⟩
  · rw [if_neg own, if_pos leaving]
  · rw [if_neg own, if_neg (Bool.eq_false_iff.1 stays), if_pos anchor]
  · rw [if_neg own, if_neg (Bool.eq_false_iff.1 stays), if_neg other, if_pos ⟨follows, member.2 entry⟩]
  · rw [if_neg own, if_neg (Bool.eq_false_iff.1 stays), if_neg other,
      if_neg (fun h => notMember ⟨h.1, member.1 h.2⟩)]
    have held_iff : (s.roster.heldLatch || ownEntryIs s .quarantined) = true ↔
        s.roster.heldLatch = true ∨ OwnEntry s .quarantined := by rw [Bool.or_eq_true, quarantined]
    refine ⟨fun refused => if_pos refused, fun clear alone => ?_, fun clear follows => ⟨fun held => ?_, fun notHeld entry => ?_⟩⟩
    · rw [if_neg (Bool.eq_false_iff.1 clear), if_pos alone]
    · rw [if_neg (Bool.eq_false_iff.1 clear), if_neg follows, if_pos (held_iff.2 held)]
    · rw [if_neg (Bool.eq_false_iff.1 clear), if_neg follows,
        if_neg (fun h => (held_iff.1 h).elim (Bool.eq_false_iff.1 notHeld) entry)]

theorem evaluateStanding_spec (s : State) : evaluateStanding s =
    if standingOf s = s.roster.standing then s
    else if standingOf s = .member then
      { s with roster := { s.roster with standing := .member, heldLatch := false, refusedLatch := false, rejoin := true } }
    else if standingOf s = .refused then { s with roster := { s.roster with standing := .refused, heldLatch := false } }
    else { s with roster := { s.roster with standing := standingOf s } } := by
  unfold evaluateStanding
  dsimp only
  by_cases same : standingOf s = s.roster.standing
  · rw [if_pos same, if_pos same]
  · rw [if_neg same, if_neg same]
    cases standingOf s <;> rfl

theorem sendsHello_iff (st : Standing) : sendsHello st = true ↔ st = .seeking ∨ st = .held := by
  rw [sendsHello, Bool.or_eq_true, beq_iff_eq, beq_iff_eq]

theorem helloOnStanding_spec (before : Standing) (s : State) :
    let sends (st : Standing) := st = .seeking ∨ st = .held
    let v := s.upPorts.foldl (fun v p => offer v p ⟨ownCell s .hello 0 (helloPayload s.serial s.store.identity.frameClass
      s.store.identity.capabilities s.own s.roster.anchor s.roster.rejoin 0 0), none⟩) s
    helloOnStanding before s =
      if ¬ sends s.roster.standing then { s with roster := { s.roster with lastHello := none } }
      else if sends before then s
      else { v with roster := { v.roster with lastHello := some s.now } } := by
  intro sends v
  unfold helloOnStanding
  simp only [sendsHello_iff]
  by_cases now_sends : sends s.roster.standing
  · rw [if_pos now_sends, if_neg (c := ¬ sends s.roster.standing) (fun h => h now_sends)]
    rfl
  · rw [if_neg now_sends, if_pos now_sends]
    rfl

end standing

/-! ## Acts of the unit (R63) -/

theorem rosterPlain_spec (f : State → State) (s : State) (ps : List Post) :
    let v := helloOnStanding s.roster.standing (evaluateStanding (f s))
    let changed := allFrames.filter (fun g =>
      decide ((s.entry g).state ≠ (v.entry g).state ∨ (s.entry g).serial ≠ (v.entry g).serial))
    let moved := v.roster.standing ≠ s.roster.standing
    let told : Act := if changed ≠ [] ∨ moved ∨ v.roster.anchor ≠ s.roster.anchor then
        ⟨v, ps ++ [.mirror .roster, .notice (.roster v.roster.generation v.roster.anchor v.roster.standing
          (bitmap 32 changed (fun _ => true)))]⟩
      else ⟨v, ps⟩
    let heard := changed.foldl (fun a g => a.race2 (streamEntryChanged g) (timeEntryChanged g)) told
    rosterPlain f ⟨s, ps⟩ = if moved then heard.race2 streamStandingChanged timeRetest else heard := by
  intro v changed moved told heard
  have changed_eq : changedFrames s.roster v.roster = changed := by
    refine List.filter_congr (fun g _ => ?_)
    rw [entryDiffers, Bool.decide_or, decide_not, decide_not]
    rfl
  have told_eq : (if changedFrames s.roster v.roster ≠ [] ∨ moved ∨ v.roster.anchor ≠ s.roster.anchor then
      rosterNotice ⟨v, ps⟩ (changedFrames s.roster v.roster) else ⟨v, ps⟩) = told := by
    rw [changed_eq]
    show _ = if _ then _ else _
    congr 1
    unfold rosterNotice Act.post
    dsimp only
    rw [List.append_assoc]
    rfl
  show rosterAct _ ⟨s, ps⟩ = _
  unfold rosterAct Act.each
  dsimp only [Act.on]
  rw [told_eq, changed_eq]

/-! ## The anchor (R64 to R69) -/

section anchor

variable {s : State} {f : FrameNo}

theorem ownAnchorRank_eq (s : State) : ownAnchorRank s = actingRank s s.store.working.anchorRank := rfl

theorem contentsOf_eq (s : State) (f : FrameNo) : contentsOf s f = (s.route f).map (·.contents) := rfl

theorem anchorReady_iff : anchorReady s f = true ↔ ∃ n, AnchorReady s f n := by
  unfold anchorReady AnchorReady
  rw [contentsOf_eq]
  cases s.route f with
  | none => simp
  | some r =>
    simp only [Option.map_some, Option.some.injEq, exists_eq_left', Bool.and_eq_true, bne_iff_ne, beq_iff_eq]
    refine ⟨fun ⟨rank, leaving⟩ => ⟨_, leaving, rfl, fun zero => rank (BitVec.eq_of_toNat_eq zero)⟩, ?_⟩
    rintro ⟨n, leaving, rfl, rank⟩
    exact ⟨fun zero => rank (by rw [zero]; rfl), leaving⟩

/-- The rank that a frame shows. -/
theorem anchorRankOf_ready {n : Nat} (other : f ≠ s.own) (ready : AnchorReady s f n) : anchorRankOf s f = n := by
  obtain ⟨r, route, _, rank, _⟩ := ready
  unfold anchorRankOf
  rw [if_neg other, contentsOf_eq, route]
  exact rank

theorem anchorRankOf_eq (s : State) (f : FrameNo) : anchorRankOf s f =
    if f = s.own then actingRank s s.store.working.anchorRank
    else (s.route f).elim 0 (fun r => r.contents.anchorRank.toNat) := by
  unfold anchorRankOf
  rw [contentsOf_eq, ownAnchorRank_eq]
  cases s.route f <;> rfl

/-- A frame that an election may choose, with its rank (R65). -/
def Elects (s : State) (f : FrameNo) (n : Nat) : Prop :=
  f ≠ 0 ∧ (f = s.own ∧ OwnEntry s .member ∧ n = actingRank s s.store.working.anchorRank ∧ n ≠ 0 ∨
    f ≠ s.own ∧ (s.entry f).state = .member ∧ AnchorReady s f n)

/-- A frame that advertises as anchor and is named, with its rank (R66, R67). -/
def Named (s : State) (f : FrameNo) (n : Nat) : Prop :=
  f ≠ 0 ∧ f ≠ s.own ∧ AdvertisesAnchor s f n ∧
    ∃ g r, g ≠ 0 ∧ s.route g = some r ∧ r.contents.followedAnchor.toNat = f.val

theorem anchorCandidates_iff : f ∈ anchorCandidates s ↔ ∃ n, Elects s f n := by
  unfold anchorCandidates Elects
  rw [List.mem_filter, mem_allFrames]
  by_cases own : f = s.own
  · rw [if_pos own, Bool.and_eq_true, bne_iff_ne, ownEntryIs_iff (by decide), ownAnchorRank_eq]
    constructor
    · rintro ⟨nonzero, entry, rank⟩
      exact ⟨_, nonzero, .inl ⟨own, entry, rfl, rank⟩⟩
    · rintro ⟨n, nonzero, ⟨_, entry, rfl, rank⟩ | ⟨other, _⟩⟩
      · exact ⟨nonzero, entry, rank⟩
      · exact absurd own other
  · rw [if_neg own, Bool.and_eq_true, anchorReady_iff, copyMember, beq_iff_eq]
    constructor
    · rintro ⟨nonzero, entry, n, ready⟩
      exact ⟨n, nonzero, .inr ⟨own, entry, ready⟩⟩
    · rintro ⟨n, nonzero, ⟨same, _⟩ | ⟨_, entry, ready⟩⟩
      · exact absurd same own
      · exact ⟨nonzero, entry, n, ready⟩

theorem anchorRankOf_elects {n : Nat} (elects : Elects s f n) : anchorRankOf s f = n := by
  obtain ⟨_, ⟨own, _, rank, _⟩ | ⟨other, _, ready⟩⟩ := elects
  · rw [anchorRankOf_eq, if_pos own, rank]
  · exact anchorRankOf_ready other ready

theorem advertisesAnchor_iff : advertisesAnchor s f = true ↔ ∃ n, AdvertisesAnchor s f n := by
  unfold advertisesAnchor AdvertisesAnchor
  rw [Bool.and_eq_true, anchorReady_iff, exists_and_right, contentsOf_eq]
  refine and_congr_right fun _ => ?_
  cases s.route f with
  | none => simp
  | some r => simp

theorem namedAnchors_iff : f ∈ namedAnchors s ↔ ∃ n, Named s f n := by
  have naming (g : FrameNo) : (match contentsOf s g with
      | some c => c.followedAnchor.toNat == f.val
      | none => false) = true ↔ ∃ r, s.route g = some r ∧ r.contents.followedAnchor.toNat = f.val := by
    rw [contentsOf_eq]
    cases s.route g <;> simp
  unfold namedAnchors Named
  rw [List.mem_filter, mem_allFrames, Bool.and_eq_true, Bool.and_eq_true, bne_iff_ne, advertisesAnchor_iff, List.any_eq_true]
  constructor
  · rintro ⟨nonzero, ⟨other, n, advertises⟩, g, inside, names⟩
    obtain ⟨r, route, followed⟩ := (naming g).1 names
    exact ⟨n, nonzero, other, advertises, g, r, (mem_allFrames g).1 inside, route, followed⟩
  · rintro ⟨n, nonzero, other, advertises, g, r, numbered, route, followed⟩
    exact ⟨nonzero, ⟨other, n, advertises⟩, g, (mem_allFrames g).2 numbered, (naming g).2 ⟨r, route, followed⟩⟩

theorem anchorRankOf_named {n : Nat} (named : Named s f n) : anchorRankOf s f = n :=
  anchorRankOf_ready named.2.1 named.2.2.1.1

theorem anchorFit_iff (follows : FrameNo) : anchorFit s follows = true ↔
    (follows = s.own ∧ actingRank s s.store.working.anchorRank ≠ 0) ∨ (follows ≠ s.own ∧ ∃ n, AnchorReady s follows n) := by
  unfold anchorFit
  by_cases own : follows = s.own
  · rw [if_pos own, bne_iff_ne, ownAnchorRank_eq]
    simp [own]
  · rw [if_neg own, anchorReady_iff]
    simp [own]

theorem seeksAnchor_iff : seeksAnchor s = true ↔
    s.roster.anchor = 0 ∧ s.own ≠ 0 ∧ s.roster.refusedLatch = false ∧ s.roster.leavingLatch = false := by
  simp [seeksAnchor, and_assoc]

theorem electAnchor_spec (s : State) :
    ((∀ f n, ¬ Elects s f n) → electAnchor s = setAnchor s 0) ∧
    (∀ f n, Best (Elects s) f n → f = s.own → electAnchor s = nameSelf s) ∧
    (∀ f n, Best (Elects s) f n → f ≠ s.own → electAnchor s = setAnchor s f) := by
  unfold electAnchor
  dsimp only
  refine ⟨fun nobody => ?_, fun f n best own => ?_, fun f n best other => ?_⟩
  · rw [bestBy_none (fun _ => anchorCandidates_iff) nobody, if_neg (fun h => h.1 rfl)]
  · rw [bestBy_of_best (fun _ => anchorCandidates_iff) (fun _ _ => anchorRankOf_elects) best, if_pos ⟨best.1.1, own⟩]
  · rw [bestBy_of_best (fun _ => anchorCandidates_iff) (fun _ _ => anchorRankOf_elects) best, if_neg (fun h => other h.2)]

theorem adoptOrMerge_spec (s : State) :
    let follows := s.roster.anchor
    let looks := follows = 0 ∧ s.own ≠ 0 ∧ s.roster.refusedLatch = false ∧ s.roster.leavingLatch = false
    let followedRank := if follows = s.own then actingRank s s.store.working.anchorRank
      else (s.route follows).elim 0 (fun r => r.contents.anchorRank.toNat)
    ((∀ f n, ¬ Named s f n) → adoptOrMerge s = s) ∧
    (∀ f n, Best (Named s) f n →
      (looks → adoptOrMerge s = setAnchor s f) ∧
      (¬ looks → follows ≠ 0 → (followedRank < n ∨ n = followedRank ∧ f.val < follows.val) →
        adoptOrMerge s = setAnchor s f) ∧
      (¬ looks → (follows = 0 ∨ n < followedRank ∨ n = followedRank ∧ follows.val ≤ f.val) → adoptOrMerge s = s)) := by
  intro follows looks followedRank
  unfold adoptOrMerge
  dsimp only
  refine ⟨fun nobody => ?_, fun f n best => ?_⟩
  · rw [bestBy_none (fun _ => namedAnchors_iff) nobody, if_pos rfl]
  · have nonzero : f ≠ 0 := best.1.1
    rw [bestBy_of_best (fun _ => namedAnchors_iff) (fun _ _ => anchorRankOf_named) best, if_neg nonzero,
      anchorRankOf_named best.1, anchorRankOf_eq]
    have better_iff : betterRank (n, f.val) (followedRank, follows.val) = true ↔
        followedRank < n ∨ n = followedRank ∧ f.val < follows.val := betterRank_iff _ _
    refine ⟨fun seeks => ?_, fun settled numbered better => ?_, fun settled worse => ?_⟩
    · rw [if_pos (seeksAnchor_iff.2 seeks)]
    · rw [if_neg (fun h => settled (seeksAnchor_iff.1 h)), if_pos ⟨numbered, better_iff.2 better⟩]
    · rw [if_neg (fun h => settled (seeksAnchor_iff.1 h)), if_neg]
      rintro ⟨numbered, better⟩
      have higher := better_iff.1 better
      rcases worse with zero | worse
      · exact numbered zero
      · omega

theorem setAnchor_spec (s : State) (m : FrameNo) :
    let ceases := s.own ≠ 0 ∧ s.roster.anchor = s.own ∧ m ≠ s.own
    let r : Roster := { s.roster with anchor := m, silenceSince := if m = 0 ∧ s.own ≠ 0 then some s.now else none }
    (¬ ceases → setAnchor s m = { s with roster := r }) ∧
    (ceases → ∃ es, setAnchor s m = { s with roster := { r with lastRoll := none, entries := es } } ∧
      ∀ f, es.get f = if f = 0 then s.entry f else { s.entry f with identity := none, deadline := none }) := by
  intro ceases r
  unfold setAnchor
  dsimp only
  refine ⟨fun stays => ?_, fun leaves => ?_⟩
  · rw [if_neg (fun h => stays ⟨(isAnchor_iff.1 h.1).1, (isAnchor_iff.1 h.1).2, h.2⟩)]
    rfl
  · obtain ⟨numbered, anchor, other⟩ := leaves
    rw [if_pos ⟨isAnchor_iff.2 ⟨numbered, anchor⟩, other⟩]
    refine ⟨_, rfl, fun f => ?_⟩
    refine (get_foldl_upd (g := fun _ (e : RosterEntry) => { e with identity := none, deadline := none }) _ allFrames_nodup _ f).trans ?_
    by_cases zero : f = 0
    · rw [if_pos zero, if_neg (fun inside => (mem_allFrames f).1 inside zero)]
      rfl
    · rw [if_neg zero, if_pos ((mem_allFrames f).2 zero)]
      rfl

theorem advertLeaving_eq (f : FrameNo) : advertLeaving f = fun s =>
    if (s.own ≠ 0 ∧ s.roster.anchor = s.own) ∧ (s.route f).any (fun r => r.contents.leaving != 0)
      then markLeaving s f else s := by
  funext s
  have shows_eq : showsLeaving s f = (s.route f).any (fun r => r.contents.leaving != 0) := by
    unfold showsLeaving
    rw [contentsOf_eq]
    cases s.route f <;> rfl
  unfold advertLeaving
  simp only [isAnchor_iff, shows_eq]

end anchor

/-- Settles O34: each function of the unit by its own lemma. -/
theorem standingAndRosterActs : Obligations.StandingAndRosterActs := by
  unfold Obligations.StandingAndRosterActs
  refine ⟨standingOf_spec, evaluateStanding_spec, helloOnStanding_spec, rosterPlain_spec, fun s => ?anchor, setAnchor_spec,
    fun f a => ?advert⟩
  case anchor =>
    obtain ⟨nobody, self, other⟩ := electAnchor_spec s
    obtain ⟨notNamed, named⟩ := adoptOrMerge_spec s
    intro rank follows fit elects names looks followedRank
    have fit_iff : anchorFit s follows = true ↔ fit := anchorFit_iff follows
    refine ⟨fun h => if_neg ?_, fun numbered unfit => if_pos ⟨numbered, ?_⟩, nobody, self, other, notNamed, named⟩
    · rintro ⟨numbered, unfit⟩
      rcases h with zero | isFit
      · exact numbered zero
      · rw [fit_iff.2 isFit] at unfit
        exact absurd unfit (by decide)
    · rw [← Bool.not_eq_true, fit_iff]
      exact unfit
  case advert =>
    rw [← advertLeaving_eq]
    rfl

end Sys2Proof.RosterActs

/-! SUPPORT. The roster unit's orders and the cells it takes (R70, R71, R73 to R75, R78, R80, R81). -/

namespace Sys2Proof.RosterCells

open Sys2Proof Sys2Proof.Machine Sys2Proof.Statements Sys2Proof.PortUnits Sys2Proof.PortQueues Sys2Proof.ReceivedCells
  Sys2Proof.PortCells Sys2Proof.OrderWindow Sys2Proof.ReadState Sys2Proof.RosterActs

/-! ## What an act of the unit depends on -/

theorem rosterPlain_congr {f g : State → State} {a : Act} (same : f a.s = g a.s) : rosterPlain f a = rosterPlain g a := by
  unfold rosterPlain rosterAct
  dsimp only [Act.on]
  rw [same]

theorem ends_rosterPlain_congr {c : Instr} {s : State} {f g : State → State} {a : Act} (ends : Ends c s (rosterPlain g a))
    (same : g a.s = f a.s) : Ends c s (rosterPlain f a) := by
  rw [← rosterPlain_congr same]
  exact ends

/-- Cells offered one after the other change the links alone. -/
theorem foldl_offer_frame {α : Type} (p : α → PortIx) (q : α → Queued) (xs : List α) (s : State) :
    { xs.foldl (fun v x => offer v (p x) (q x)) s with links := s.links } = s := by
  induction xs generalizing s with
  | nil => rfl
  | cons x xs ih =>
    rw [List.foldl_cons]
    exact congrArg (fun v : State => { v with links := s.links }) (ih (offer s (p x) (q x)))

theorem offerEach_frame (s : State) (ps : List PortIx) (c : Cell) : { offerEach s ps c with links := s.links } = s :=
  foldl_offer_frame id (fun _ => ⟨c, none⟩) ps s

theorem floodCopies_frame (s : State) (k : Kind) (rx : Rx) : { floodCopies s k rx with links := s.links } = s := by
  unfold floodCopies
  split
  · exact offerEach_frame ..
  · rfl

theorem issueRoster_frame (s : State) : { issueRoster s with links := s.links } =
    { s with roster := { s.roster with
      generation := s.roster.generation + 1, rollSequence := s.roster.rollSequence + 1 } } := by
  unfold issueRoster floodRoll
  exact offerEach_frame (s.modRoster _ |>.modRoster _) _ _

theorem issueRoster_roster (s : State) : (issueRoster s).roster = { s.roster with
    generation := s.roster.generation + 1, rollSequence := s.roster.rollSequence + 1 } :=
  (congrArg State.roster (issueRoster_frame s) :)

theorem issueRoster_spec (s : State) :
    let g := s.roster.generation + 1
    let q := s.roster.rollSequence + 1
    let roll : List Byte := beBytes 4 g.toNat ++ beBytes 1 s.roster.issuer.val ++ zeros 3 ++ allFrames.flatMap (fun f =>
      beBytes 1 (entryStateCode (s.entry f).state) ++ zeros 1 ++ beBytes 6 (s.entry f).serial.toNat)
    issueRoster s = s.upPorts.foldl (fun v p => offer v p ⟨ownCell s .roll 63 roll q, none⟩)
      { s with roster := { s.roster with generation := g, rollSequence := q } } := by
  intro g q roll
  have payload : rollPayload { s.roster with generation := g, rollSequence := q } = roll := by
    unfold rollPayload
    rw [← List.flatMap_def]
    rfl
  unfold issueRoster floodRoll
  dsimp only [modRoster_roster]
  rw [payload]
  rfl

/-! ## JOIN and LEAVE (R80, R81) -/

section joinAndLeave

variable {s : State}

theorem selfAnchorDue_iff : selfAnchorDue s = true ↔
    (s.roster.anchor = 0 ∧ s.own ≠ 0 ∧ s.roster.refusedLatch = false ∧ s.roster.leavingLatch = false ∧
      s.store.working.anchorRank ≠ 0 ∧ ∃ t, s.roster.silenceSince = some t ∧ t + 60000000 ≤ s.now) := by
  have limit : anchorSilenceLimit = 60000000 := rfl
  have silence : (match s.roster.silenceSince with
      | some t => decide (t + anchorSilenceLimit ≤ s.now)
      | none => false) = true ↔ ∃ t, s.roster.silenceSince = some t ∧ t + 60000000 ≤ s.now := by
    rw [limit]
    cases s.roster.silenceSince <;> simp
  have rank (stays : s.roster.leavingLatch = false) : ownAnchorRank s ≠ 0 ↔ s.store.working.anchorRank ≠ 0 := by
    rw [ownAnchorRank_eq, actingRank, stays]
    exact not_congr Fin.val_eq_zero_iff
  unfold selfAnchorDue
  rw [Bool.and_eq_true, Bool.and_eq_true, bne_iff_ne, seeksAnchor_iff]
  constructor
  · rintro ⟨⟨⟨anchor, own, clear, stays⟩, ranked⟩, silent⟩
    exact ⟨anchor, own, clear, stays, (rank stays).1 ranked, silence.1 silent⟩
  · rintro ⟨anchor, own, clear, stays, ranked, silent⟩
    exact ⟨⟨⟨anchor, own, clear, stays⟩, (rank stays).2 ranked⟩, silence.2 silent⟩

theorem cancelLeave_none {a : Act} (h : a.s.roster.leave = none) : cancelLeave a = a := by
  unfold cancelLeave
  rw [h]

theorem cancelLeave_some {a : Act} {l : LeaveOrder} (h : a.s.roster.leave = some l) : cancelLeave a =
    complete ⟨{ a.s with roster := { a.s.roster with leave := none } }, a.posts⟩ l.order .cancelled := by
  unfold cancelLeave
  rw [h]
  rfl

/-- The end of a JOIN, by the LEAVE order in progress. -/
theorem ends_cancelled {a : Act} {o : Order} (ends : Ends .join s (done (cancelLeave a) o)) :
    Ends .join s (match a.s.roster.leave with
      | none => complete a o.sequence .done
      | some l => complete (complete ⟨{ a.s with roster := { a.s.roster with leave := none } }, a.posts⟩ l.order .cancelled)
          o.sequence .done) := by
  cases leave : a.s.roster.leave with
  | none =>
    rw [cancelLeave_none leave] at ends
    exact ends
  | some l =>
    rw [cancelLeave_some leave] at ends
    exact ends

/-- JOIN in REFUSED or LEAVING, up to its completion. -/
theorem joinOrder_rejoins {o : Order} (again : s.roster.standing = .refused ∨ s.roster.standing = .leaving) :
    joinOrder ⟨s, []⟩ o = done (cancelLeave (rosterPlain selfAnchor (rosterPlain
      (fun s => { s with roster := { s.roster with refusedLatch := false, leavingLatch := false } }) ⟨s, []⟩))) o := by
  unfold joinOrder
  dsimp only
  rcases again with standing | standing <;> rw [standing] <;> rfl

/-- The leaving latch and the LEAVE order stay. -/
def SameLeave (s t : State) : Prop := t.roster.leavingLatch = s.roster.leavingLatch ∧ t.roster.leave = s.roster.leave

theorem SameLeave.trans {s t u : State} (h : SameLeave s t) (k : SameLeave t u) : SameLeave s u :=
  ⟨k.1.trans h.1, k.2.trans h.2⟩

theorem sameLeave_issueRoster (s : State) : SameLeave s (issueRoster s) := by
  unfold SameLeave
  rw [issueRoster_roster]
  exact ⟨rfl, rfl⟩

theorem sameLeave_setAnchor (s : State) (m : FrameNo) : SameLeave s (setAnchor s m) := by
  obtain ⟨stays, ceases⟩ := setAnchor_spec s m
  by_cases h : s.own ≠ 0 ∧ s.roster.anchor = s.own ∧ m ≠ s.own
  · obtain ⟨es, changed, _⟩ := ceases h
    rw [changed]
    exact ⟨rfl, rfl⟩
  · rw [stays h]
    exact ⟨rfl, rfl⟩

theorem sameLeave_nameSelf (s : State) : SameLeave s (nameSelf s) := sameLeave_issueRoster (s.modRoster _)

theorem sameLeave_electAnchor (s : State) : SameLeave s (electAnchor s) := by
  unfold electAnchor
  dsimp only
  split
  · exact sameLeave_nameSelf s
  · exact sameLeave_setAnchor s _

theorem sameLeave_retestAnchor (s : State) : SameLeave s (retestAnchor s) := by
  unfold retestAnchor
  split
  · exact sameLeave_electAnchor s
  · exact ⟨rfl, rfl⟩

theorem sendRouted_roster (s : State) (f : FrameNo) (c : Cell) : (sendRouted s f c).roster = s.roster := by
  unfold sendRouted
  split <;> rfl

/-- The state in which a LEAVE is announced. -/
def leaving (q : BitVec 32) (s : State) : State :=
  { s with roster := { s.roster with leavingLatch := true, leave := some ⟨q, s.now⟩ } }

theorem beginLeave_eq (q : BitVec 32) (s : State) : beginLeave q s = if isAnchor s then
    electAnchor (issueRoster ((leaving q s).modEntry s.own (fun e => { e with state := .leaving, deadline := none })))
  else retestAnchor (if s.roster.anchor = 0 then leaving q s else sendRouted (leaving q s) s.roster.anchor
    (ownCell s .leaveCell s.roster.anchor.val (beBytes 6 s.serial.toNat ++ zeros 2))) := rfl

theorem beginLeave_anchor {q : BitVec 32} (numbered : s.own ≠ 0) (anchor : s.roster.anchor = s.own) : beginLeave q s =
    electAnchor (issueRoster ((leaving q s).modEntry s.own (fun e => { e with state := .leaving, deadline := none }))) := by
  rw [beginLeave_eq, if_pos (isAnchor_iff.2 ⟨numbered, anchor⟩)]

theorem beginLeave_follower {q : BitVec 32} (other : s.roster.anchor ≠ s.own) (follows : s.roster.anchor ≠ 0) :
    beginLeave q s = retestAnchor (sendRouted (leaving q s) s.roster.anchor
       (ownCell s .leaveCell s.roster.anchor.val (beBytes 6 s.serial.toNat ++ zeros 2))) := by
  rw [beginLeave_eq, if_neg (fun h => other (isAnchor_iff.1 h).2), if_neg follows]

theorem beginLeave_alone {q : BitVec 32} (alone : s.roster.anchor = 0) : beginLeave q s = leaving q s := by
  have notAnchor : ¬ isAnchor s = true := fun h => by
    obtain ⟨numbered, anchor⟩ := isAnchor_iff.1 h
    exact numbered (anchor.symm.trans alone)
  rw [beginLeave_eq, if_neg notAnchor, if_pos alone]
  exact if_neg (fun h => h.1 alone)

theorem beginLeave_latched (q : BitVec 32) (s : State) : SameLeave (leaving q s) (beginLeave q s) := by
  rw [beginLeave_eq]
  split
  · exact (sameLeave_issueRoster ((leaving q s).modEntry _ _)).trans (sameLeave_electAnchor _)
  · split
    · exact sameLeave_retestAnchor _
    · refine SameLeave.trans ?_ (sameLeave_retestAnchor _)
      unfold SameLeave
      rw [sendRouted_roster]
      exact ⟨rfl, rfl⟩

theorem allClosed_iff : allClosed s = true ↔ ∀ n, (s.slot n).state = .closed := by
  unfold allClosed
  rw [List.all_eq_true]
  exact ⟨fun h n => by simpa using h n (mem_allSlots n), fun h n _ => by simpa using h n⟩

theorem leaveCheck_some {a : Act} {l : LeaveOrder} (leave : a.s.roster.leave = some l) :
    let isOver := (∀ n, (a.s.slot n).state = .closed) ∧ (OwnEntry a.s .leaving ∨ l.since + leaveLimit ≤ a.s.now)
    (isOver → leaveCheck a =
      complete ⟨{ a.s with roster := { a.s.roster with leave := none } }, a.posts⟩ l.order .done) ∧
    (¬ isOver → leaveCheck a = a) := by
  intro isOver
  have isOver_iff : (allClosed a.s && (ownEntryIs a.s .leaving || decide (l.since + leaveLimit ≤ a.s.now))) = true ↔
      isOver := by
    rw [Bool.and_eq_true, Bool.or_eq_true, allClosed_iff, ownEntryIs_iff (by decide), decide_eq_true_iff]
  unfold leaveCheck
  rw [leave]
  dsimp only
  refine ⟨fun ended => ?_, fun waits => ?_⟩
  · rw [if_pos (isOver_iff.2 ended)]
    rfl
  · rw [if_neg (fun h => waits (isOver_iff.1 h))]

end joinAndLeave

/-- Settles O35: JOIN by the standing, `beginLeave` by the anchor, the LEAVE order's end by `leaveCheck_some`. -/
theorem joinAndLeave : Obligations.JoinAndLeave := by
  unfold Obligations.JoinAndLeave
  refine ⟨fun s o oldest => ?join, fun s o oldest => ?leave, fun s => ⟨fun due => ?_, fun notDue => ?_⟩, fun s q => ?begin,
    fun s l running leave => ?limit, fun a l leave => ?finish⟩
  case join =>
    have ends {a : Act} (act : joinOrder ⟨s, []⟩ o = a) : Ends .join s a := ends_order rfl oldest act
    cases standing : s.roster.standing with
    | refused =>
      dsimp only
      generalize taken : rosterPlain selfAnchor (rosterPlain _ _) = a
      have answered := (joinOrder_rejoins (o := o) (.inl standing)).trans (congrArg (fun b => done (cancelLeave b) o) taken)
      exact ends_cancelled (ends answered)
    | leaving =>
      dsimp only
      generalize taken : rosterPlain selfAnchor (rosterPlain _ _) = a
      have answered := (joinOrder_rejoins (o := o) (.inr standing)).trans (congrArg (fun b => done (cancelLeave b) o) taken)
      exact ends_cancelled (ends answered)
    | member => exact ends (by unfold joinOrder; dsimp only; rw [standing]; rfl)
    | unnumbered => exact ends (by unfold joinOrder; dsimp only; rw [standing])
    | alone => exact ends (by unfold joinOrder; dsimp only; rw [standing])
    | seeking => exact ends (by unfold joinOrder; dsimp only; rw [standing])
    | held => exact ends (by unfold joinOrder; dsimp only; rw [standing])
  case leave =>
    have ends {a : Act} (act : leaveOrder ⟨s, []⟩ o = a) : Ends .leave s a := ends_order rfl oldest act
    unfold leaveOrder at ends
    dsimp only at ends
    cases standing : s.roster.standing <;> rw [standing] at ends <;> exact ends rfl
  · exact if_pos (selfAnchorDue_iff.2 due)
  · exact if_neg (fun h => notDue (selfAnchorDue_iff.1 h))
  case begin =>
    obtain ⟨latch, order⟩ := beginLeave_latched q s
    exact ⟨latch, order, beginLeave_anchor, beginLeave_follower, beginLeave_alone⟩
  case limit =>
    show execLeaveLimit s = _
    unfold execLeaveLimit
    refine run_ends running ?_
    rw [leave]
    rfl
  case finish =>
    obtain ⟨ended, waits⟩ := leaveCheck_some leave
    refine ⟨fun isOver => ?_, fun notOver => ?_⟩
    · unfold finish
      rw [ended isOver]
    · unfold finish
      rw [waits notOver]

/-! ## ADMIT and REFUSE (R78) -/

section decisions

variable {s : State} {o : Order} {f : FrameNo}

theorem frameOf_val {n : Nat} (index : n = f.val) : frameOf n = f := by
  subst index
  exact Fin.ext (Nat.mod_eq_of_lt f.isLt)

theorem frame_inRange {n : Nat} (numbered : f ≠ 0) (index : n = f.val) : ¬ (n = 0 ∨ 31 < n) := by
  have inside : f.val < 32 := f.isLt
  have nonzero : f.val ≠ 0 := fun h => numbered (Fin.ext h)
  omega

theorem expectedSerial_iff : expectedSerial s o f = true ↔ (s.entry f).serial.toNat = decideSerial o := beq_iff_eq

/-- ADMIT at the anchor. -/
theorem admitOrder_eq (numbered : f ≠ 0) (index : decideFrame o = f.val) (anchor : isAnchor s = true) :
    admitOrder ⟨s, []⟩ o =
      if (s.entry f).serial.toNat = decideSerial o ∧ ((s.entry f).state = .quarantined ∨ (s.entry f).state = .refused) then
        complete (rosterPlain (fun s =>
          verdictFor (issueRoster (s.modEntry f (fun e => { e with state := .member, deadline := none }))) f .admitted .none)
          ⟨s, []⟩) o.sequence .done
      else complete ⟨s, []⟩ o.sequence .notHeld := by
  have isAnchor_s : ¬ isAnchor s = false := by rw [anchor]; decide
  unfold admitOrder
  dsimp only
  rw [frameOf_val index, if_neg (frame_inRange numbered index), if_neg isAnchor_s]
  by_cases expected : (s.entry f).serial.toNat = decideSerial o
  · have expected' : ¬ expectedSerial s o f = false := by rw [expectedSerial_iff.2 expected]; decide
    rw [if_neg expected']
    cases state : (s.entry f).state <;> simp only [expected, true_and, reduceCtorEq, or_true, or_false, if_true, if_false] <;> rfl
  · rw [if_pos (Bool.eq_false_iff.2 (fun h => expected (expectedSerial_iff.1 h))), if_neg (fun h => expected h.1)]

/-- REFUSE at the anchor, of another entry than the own. -/
theorem refuseOrder_eq (numbered : f ≠ 0) (index : decideFrame o = f.val) (anchor : isAnchor s = true) (other : f ≠ s.own) :
    let out (s : State) := issueRoster (s.modEntry f (fun e => { e with state := .refused, deadline := none }))
    refuseOrder ⟨s, []⟩ o =
      if (s.entry f).serial.toNat = decideSerial o ∧ (s.entry f).state = .quarantined then
        complete (rosterPlain (fun s => verdictFor (out s) f .refused .host) ⟨s, []⟩) o.sequence .done
      else if (s.entry f).serial.toNat = decideSerial o ∧ ((s.entry f).state = .member ∨ (s.entry f).state = .stray) then
        complete (rosterPlain out ⟨s, []⟩) o.sequence .done
      else complete ⟨s, []⟩ o.sequence .notHeld := by
  intro out
  have isAnchor_s : ¬ isAnchor s = false := by rw [anchor]; decide
  have candidate (state : (s.entry f).state = .quarantined) : refuseEntry f s = verdictFor (out s) f .refused .host := by
    unfold refuseEntry
    rw [state]
    rfl
  have expelled (state : (s.entry f).state ≠ .quarantined) : refuseEntry f s = out s := by
    unfold refuseEntry
    rw [beq_false_of_ne state]
    rfl
  unfold refuseOrder
  dsimp only
  rw [frameOf_val index, if_neg (frame_inRange numbered index), if_neg isAnchor_s, if_neg other]
  by_cases expected : (s.entry f).serial.toNat = decideSerial o
  · have expected' : ¬ expectedSerial s o f = false := by rw [expectedSerial_iff.2 expected]; decide
    rw [if_neg expected']
    cases state : (s.entry f).state <;>
      simp only [expected, true_and, reduceCtorEq, or_true, or_false, if_true, if_false]
    case quarantined => rw [rosterPlain_congr (a := ⟨s, []⟩) (g := fun s => verdictFor (out s) f .refused .host) (candidate state)]; rfl
    case member => rw [rosterPlain_congr (a := ⟨s, []⟩) (g := out) (expelled (by rw [state]; decide))]; rfl
    case stray => rw [rosterPlain_congr (a := ⟨s, []⟩) (g := out) (expelled (by rw [state]; decide))]; rfl
  · rw [if_pos (Bool.eq_false_iff.2 (fun h => expected (expectedSerial_iff.1 h))), if_neg (fun h => expected h.1),
      if_neg (fun h => expected h.1)]

end decisions

/-- Settles O36: the orders at the anchor by `admitOrder_eq` and `refuseOrder_eq`. -/
theorem admitAndRefuse : Obligations.AdmitAndRefuse := by
  unfold Obligations.AdmitAndRefuse
  refine ⟨fun s o oldest outside => ends_order rfl oldest (if_pos outside),
    fun s o oldest outside => ends_order rfl oldest (if_pos outside),
    fun s o f oldest numbered index => ⟨fun notAnchor => ends_order rfl oldest ?_, fun anchor => ?admits⟩,
    fun s o f oldest numbered index => ⟨fun notAnchor => ends_order rfl oldest ?_,
      fun anchor own => ends_order rfl oldest ?_, fun anchor other => ?refuse⟩,
    issueRoster_spec, fun s f x reason => ?verdict, fun s serial f e x reason p => ⟨fun own => if_pos own, fun other => if_neg other⟩⟩
  · unfold admitOrder
    dsimp only
    rw [frameOf_val index, if_neg (frame_inRange numbered index), if_pos notAnchor]
  case admits =>
    have ends := ends_order (c := .admitFrame) rfl oldest (admitOrder_eq numbered index anchor)
    revert ends
    repeat' split
    all_goals exact id
  · unfold refuseOrder
    dsimp only
    rw [frameOf_val index, if_neg (frame_inRange numbered index), if_pos notAnchor]
  · have isAnchor_s : ¬ isAnchor s = false := by rw [anchor]; decide
    unfold refuseOrder
    dsimp only
    rw [frameOf_val index, if_neg (frame_inRange numbered index), if_neg isAnchor_s, if_pos own]
  case refuse =>
    have ends := ends_order (c := .refuse) rfl oldest (refuseOrder_eq numbered index anchor other)
    revert ends
    repeat' split
    all_goals exact id
  case verdict =>
    unfold verdictFor
    cases (s.entry f).identity <;> rfl

/-! ## ROLL and LEAVE (R71, R80) -/

theorem beAt_lt (bs : List Byte) (off n : Nat) : beAt bs off n < 256 ^ n := by
  refine Nat.lt_of_lt_of_le (leNat_lt _) (Nat.pow_le_pow_right (by decide) ?_)
  rw [List.length_reverse, bytesAt, List.length_take]
  exact Nat.min_le_left ..

theorem entryStateOfCode_iff (st : EntryState) (n : Nat) : entryStateOfCode n = some st ↔ entryStateCode st = n :=
  ofCode_iff (fun k => by cases k <;> decide) (fun k l => by cases k <;> cases l <;> decide) st n

theorem entryStateOfCode_isSome (n : Nat) : (entryStateOfCode n).isSome = true ↔ n ≤ 5 := by
  constructor
  · intro known
    obtain ⟨st, found⟩ := Option.isSome_iff_exists.1 known
    rw [← (entryStateOfCode_iff st n).1 found]
    cases st <;> decide
  · intro small
    have known : ∀ m : Fin 6, (entryStateOfCode m.val).isSome = true := by decide
    exact known ⟨n, Nat.lt_succ_of_le small⟩

theorem rollFits_iff (b : List Byte) : rollFits b = true ↔
    (b.length = 256 ∧ beAt b 4 1 ≤ 31 ∧ ∀ f : FrameNo, f ≠ 0 → beAt b (8 * f.val) 1 ≤ 5) := by
  unfold rollFits rollState
  simp only [Bool.and_eq_true, beq_iff_eq, decide_eq_true_iff, List.all_eq_true, mem_allFrames, entryStateOfCode_isSome,
    and_assoc]

theorem rollEntry_eq {b : List Byte} {f : FrameNo} {st : EntryState} (code : beAt b (8 * f.val) 1 = entryStateCode st) :
    rollEntry b f = if st = .vacant then ⟨.vacant, 0, none, none⟩
      else ⟨st, BitVec.ofNat 48 (beAt b (8 * f.val + 2) 6), none, none⟩ := by
  have state : rollState b f = some st := (entryStateOfCode_iff st _).2 code.symm
  unfold rollEntry
  rw [state]
  cases st <;> rfl

section roll

variable {rx : Rx} {s : State}

/-- A new ROLL is recorded, copied and taken. -/
theorem ends_roll (h : Arrives .roll rx .up s) (flooded : rx.dest.toNat = 63) (other : rx.origin ≠ s.own)
    (new : isNew (floodRecord (s.flood.get rx.origin) .roll) rx.incarnation rx.floodSeq = true) :
    Ends (.roll rx) s (takeRoll rx ⟨floodCopies (recordFlood (heard s rx) .roll rx) .roll rx, []⟩) := by
  have ends := ends_flooded h flooded
  rw [takeFlood_new (a := ⟨heard s rx, []⟩) (by decide) other new] at ends
  exact ends

/-- What the flood rules do before the ROLL is taken leaves the roster and the own number. -/
theorem flooded_roster (k : Kind) :
    let u := floodCopies (recordFlood (heard s rx) k rx) k rx
    u.roster = s.roster ∧ u.own = s.own := by
  have frame := floodCopies_frame (recordFlood (heard s rx) k rx) k rx
  exact ⟨(congrArg State.roster frame :), (congrArg State.own frame :)⟩

theorem replaceCopy_entry (b : List Byte) (f : FrameNo) :
    (replaceCopy b s).entry f = if f = 0 then s.entry 0 else rollEntry b f := by
  have entries : (replaceCopy b s).entry f =
      (allFrames.foldl (fun v f => upd v f (fun _ => rollEntry b f)) s.roster.entries).get f := by
    unfold replaceCopy
    dsimp only
    split <;> rfl
  rw [entries, get_foldl_upd _ _ allFrames_nodup]
  by_cases zero : f = 0
  · rw [if_pos zero, if_neg (fun inside => (mem_allFrames f).1 inside zero), zero]
    rfl
  · rw [if_neg zero, if_pos ((mem_allFrames f).2 zero)]

theorem replaceCopy_spec {b : List Byte} (fits : rollFits b = true) :
    let t := replaceCopy b s
    t.roster.generation = BitVec.ofNat 32 (beAt b 0 4) ∧ t.roster.issuer.val = beAt b 4 1 ∧
    (∀ f, f ≠ 0 → t.entry f = rollEntry b f) ∧ t.entry 0 = s.entry 0 ∧
    { t with roster := { t.roster with
      generation := s.roster.generation, issuer := s.roster.issuer, entries := s.roster.entries
      refusedLatch := s.roster.refusedLatch } } = s ∧
    t.roster.refusedLatch = (s.roster.refusedLatch || (ownEntryIs t .refused && !ownEntryIs s .refused)) := by
  intro t
  obtain ⟨_, issuer, _⟩ := (rollFits_iff b).1 fits
  have frame : (frameOf (beAt b 4 1)).val = beAt b 4 1 := Nat.mod_eq_of_lt (by omega)
  let v : State := { s with roster := { s.roster with
    generation := BitVec.ofNat 32 (beAt b 0 4), issuer := frameOf (beAt b 4 1)
    entries := allFrames.foldl (fun v f => upd v f (fun _ => rollEntry b f)) s.roster.entries } }
  have t_eq : t = if ownEntryIs v .refused && !ownEntryIs s .refused then
      { v with roster := { v.roster with refusedLatch := true } } else v := rfl
  refine ⟨?_, ?_, fun f numbered => (replaceCopy_entry b f).trans (if_neg numbered), (replaceCopy_entry b 0).trans (if_pos rfl), ?_, ?_⟩
  · rw [t_eq]
    split <;> rfl
  · rw [t_eq, ← frame]
    split <;> rfl
  · rw [t_eq]
    split <;> rfl
  · by_cases becomes : (ownEntryIs v .refused && !ownEntryIs s .refused) = true
    · rw [if_pos becomes] at t_eq
      have own : ownEntryIs t .refused = ownEntryIs v .refused := by rw [t_eq]; rfl
      rw [own, becomes, Bool.or_true, t_eq]
    · rw [if_neg becomes] at t_eq
      rw [t_eq, Bool.eq_false_iff.2 becomes, Bool.or_false]

end roll

/-! A LEAVE cell. -/

section leaveCell

variable {rx : Rx} {s : State}

theorem ends_leaveCell (h : Arrives .leaveCell rx .up s) (dest : rx.dest.toNat = s.own.val) :
    Ends (.leaveCell rx) s (takeLeave rx ⟨heard s rx, []⟩) :=
  ends_routed h (by rw [dest]; have := s.own.isLt; omega) dest

theorem serial_eq_iff (a : Serial) (b : List Byte) : a = BitVec.ofNat 48 (beAt b 0 6) ↔ a.toNat = beAt b 0 6 := by
  have small := beAt_lt b 0 6
  constructor
  · rintro rfl
    rw [BitVec.toNat_ofNat]
    exact Nat.mod_eq_of_lt small
  · intro same
    rw [← same, BitVec.ofNat_toNat, BitVec.setWidth_eq]

end leaveCell

/-- Settles O37: a new ROLL by the three outcomes of `takeRoll`, a LEAVE cell by its serial. -/
theorem rollAndLeaveCells : Obligations.RollAndLeaveCells := by
  unfold Obligations.RollAndLeaveCells
  refine ⟨rollFits_iff, fun b f st => rollEntry_eq, fun rx s h flooded other new => ?roll, fun s b => replaceCopy_spec,
    fun rx s h dest unfit => ?unfit, fun rx s h dest length serial => ?leave, fun s f => ?mark⟩
  case roll =>
    intro u b newer' count
    obtain ⟨roster, own⟩ := flooded_roster (s := s) (rx := rx) .roll
    have ends := ends_roll h flooded other new
    have acts {f : State → State} (same : (if u.roster.anchor ≠ rx.origin ∨ isAnchor u = true ∨ rollFits b = false then count u
        else if newer (BitVec.ofNat 32 (beAt b 0 4)) u.roster.generation ∨ beAt b 4 1 ≠ u.roster.issuer.val then
          replaceCopy b u else u) = f u) : Ends (.roll rx) s (rosterPlain f ⟨u, []⟩) :=
      ends_rosterPlain_congr ends same
    have anchor_iff : isAnchor u = true ↔ s.own = s.roster.anchor ∧ s.own ≠ 0 := by
      rw [isAnchor_iff, roster, own, and_comm, eq_comm]
    have taken (from_anchor : s.roster.anchor = rx.origin) (fits : rollFits b = true) :
        ¬ (u.roster.anchor ≠ rx.origin ∨ isAnchor u = true ∨ rollFits b = false) := by
      rw [anchor_iff, roster]
      rintro (elsewhere | ⟨self, _⟩ | unfit)
      · exact elsewhere from_anchor
      · exact other (from_anchor.symm.trans self.symm)
      · rw [fits] at unfit
        exact absurd unfit (by decide)
    refine ⟨fun ignored => acts (if_pos ?_), fun from_anchor fits isNewer => acts ?_, fun from_anchor fits old => acts ?_⟩
    · rw [anchor_iff, roster]
      exact ignored
    · rw [if_neg (taken from_anchor fits), if_pos]
      rw [roster]
      exact isNewer
    · rw [if_neg (taken from_anchor fits), if_neg]
      · rfl
      · rw [roster]
        exact old
  case unfit =>
    have ends := ends_leaveCell h dest
    unfold takeLeave at ends
    rw [if_pos unfit] at ends
    exact ends
  case leave =>
    have ends := ends_leaveCell h dest
    have fits : ¬ (rx.payload.length ≠ 8 ∨ beAt rx.payload 0 6 = 0) := fun unfit => unfit.elim (fun h => h length) serial
    unfold takeLeave at ends
    rw [if_neg fits] at ends
    have acts {f : State → State} (same : (if isAnchor (heard s rx) = false then
          countRoster (heard s rx) (fun c => { c with leaveDropped := c.leaveDropped + 1 })
        else if ((heard s rx).entry rx.origin).serial = BitVec.ofNat 48 (beAt rx.payload 0 6) then
          markLeaving (heard s rx) rx.origin else heard s rx) = f (heard s rx)) :
        Ends (.leaveCell rx) s (rosterPlain f ⟨heard s rx, []⟩) :=
      ends_rosterPlain_congr ends same
    have entry : (heard s rx).entry rx.origin = s.entry rx.origin := rfl
    refine ⟨fun notAnchor => acts (if_pos notAnchor), fun anchor same => acts ?_, fun anchor different => acts ?_⟩ <;>
      have isAnchor_heard : ¬ isAnchor (heard s rx) = false := (by rw [show isAnchor (heard s rx) = true from anchor]; decide)
    · rw [if_neg isAnchor_heard, entry, if_pos ((serial_eq_iff _ _).2 same)]
    · rw [if_neg isAnchor_heard, entry, if_neg (fun equal => different ((serial_eq_iff _ _).1 equal))]
      rfl
  case mark =>
    unfold markLeaving
    cases (s.entry f).state <;> rfl

end Sys2Proof.RosterCells

/-! SUPPORT. Candidates at the roster unit: HELLO and VERDICT (R73, R75), the decision (R74) and the Admission Filter
(R76). -/

namespace Sys2Proof.Candidates

open Sys2Proof Sys2Proof.Machine Sys2Proof.Statements Sys2Proof.PortUnits Sys2Proof.ReceivedCells Sys2Proof.OrderWindow
  Sys2Proof.RosterActs Sys2Proof.RosterCells

/-! ## The forms of HELLO and VERDICT (12, Cells) -/

/-- A field read as a word is the word of the same value. -/
theorem ofNat_beAt_iff {w n : Nat} (fits : 256 ^ n = 2 ^ w) (b : List Byte) (off : Nat) (v : BitVec w) :
    BitVec.ofNat w (beAt b off n) = v ↔ beAt b off n = v.toNat := by
  have small := beAt_lt b off n
  rw [fits] at small
  constructor
  · rintro rfl
    rw [BitVec.toNat_ofNat, Nat.mod_eq_of_lt small]
  · intro same
    rw [same, BitVec.ofNat_toNat, BitVec.setWidth_eq]

theorem flag_iff {n : Nat} (flag : n ≤ 1) (v : Bool) : (n == 1) = v ↔ n = flagCode v := by
  have codes : ∀ m : Fin 2, ∀ v, (m.val == 1) = v ↔ m.val = flagCode v := by decide
  exact codes ⟨n, Nat.lt_succ_of_le flag⟩ v

theorem flagCode_le (v : Bool) : flagCode v ≤ 1 := by cases v <;> decide

theorem parseHello_iff (b : List Byte) (h : HelloFields) : parseHello b = some h ↔
    b.length = 20 ∧ beAt b 0 6 ≠ 0 ∧ beAt b 0 6 = h.serial.toNat ∧ beAt b 6 2 = h.frameClass.toNat ∧
    beAt b 8 4 = h.capabilities.toNat ∧ beAt b 0x0C 1 = h.frame.val ∧ beAt b 0x0D 1 = h.anchor.val ∧
    beAt b 0x0E 1 = flagCode h.rejoin ∧ beAt b 0x0F 1 = h.entryFrame.val ∧ beAt b 0x10 1 = h.entryPort.val := by
  obtain ⟨serial, frameClass, capabilities, frame, anchor, rejoin, entryFrame, entryPort⟩ := h
  dsimp only
  unfold parseHello
  split
  case isTrue fits =>
    obtain ⟨length, frame_lt, anchor_lt, flag, entryFrame_lt, entryPort_lt, nonzero⟩ := fits
    rw [Option.some.injEq, HelloFields.mk.injEq, ofNat_beAt_iff (by decide), ofNat_beAt_iff (by decide),
      ofNat_beAt_iff (by decide), flag_iff flag, Fin.ext_iff, Fin.ext_iff, Fin.ext_iff, Fin.ext_iff]
    simp only [length, nonzero, ne_eq, not_false_eq_true, true_and]
  case isFalse unfit =>
    refine iff_of_false (by simp) ?_
    rintro ⟨length, nonzero, _, _, _, frame_eq, anchor_eq, flag, entryFrame_eq, entryPort_eq⟩
    have := frame.isLt
    have := anchor.isLt
    have := entryFrame.isLt
    have := entryPort.isLt
    have := flagCode_le rejoin
    exact unfit ⟨length, by omega, by omega, by omega, by omega, by omega, nonzero⟩

theorem answerOfCode_iff (x : Answer) (n : Nat) : answerOfCode n = some x ↔ answerCode x = n :=
  ofCode_iff (fun k => by cases k <;> decide) (fun k l => by cases k <;> cases l <;> decide) x n

theorem reasonOfCode_iff (x : RefusalReason) (n : Nat) : reasonOfCode n = some x ↔ reasonCode x = n :=
  ofCode_iff (fun k => by cases k <;> decide) (fun k l => by cases k <;> cases l <;> decide) x n

theorem parseVerdict_iff (b : List Byte) (v : VerdictFields) : parseVerdict b = some v ↔
    b.length = 12 ∧ beAt b 0 6 ≠ 0 ∧ beAt b 0 6 = v.serial.toNat ∧ beAt b 6 1 = v.frame.val ∧
    beAt b 7 1 = answerCode v.answer ∧ beAt b 8 1 = reasonCode v.reason ∧ beAt b 9 1 = v.anchor.val ∧
    beAt b 10 1 = v.port.val := by
  obtain ⟨serial, frame, answer, reason, anchor, port⟩ := v
  dsimp only
  have answer_iff : beAt b 7 1 = answerCode answer ↔ answerOfCode (beAt b 7 1) = some answer := by
    rw [answerOfCode_iff, eq_comm]
  have reason_iff : beAt b 8 1 = reasonCode reason ↔ reasonOfCode (beAt b 8 1) = some reason := by
    rw [reasonOfCode_iff, eq_comm]
  rw [answer_iff, reason_iff]
  unfold parseVerdict
  cases answerOfCode (beAt b 7 1) with
  | none => simp
  | some x =>
    cases reasonOfCode (beAt b 8 1) with
    | none => simp
    | some y =>
      dsimp only
      split
      case isTrue fits =>
        obtain ⟨length, frame_lt, anchor_lt, port_lt, nonzero⟩ := fits
        rw [Option.some.injEq, VerdictFields.mk.injEq, ofNat_beAt_iff (by decide), Fin.ext_iff, Fin.ext_iff, Fin.ext_iff]
        simp only [length, nonzero, ne_eq, not_false_eq_true, true_and, Option.some.injEq]
      case isFalse unfit =>
        refine iff_of_false (by simp) ?_
        rintro ⟨length, nonzero, _, frame_eq, _, _, anchor_eq, port_eq⟩
        have := frame.isLt
        have := anchor.isLt
        have := port.isLt
        exact unfit ⟨length, by omega, by omega, by omega, nonzero⟩

theorem unserialed_unfit {b : List Byte} (zero : beAt b 0 6 = 0) : parseHello b = none ∧ parseVerdict b = none := by
  refine ⟨Option.eq_none_iff_forall_ne_some.2 (fun h fits => ?_), Option.eq_none_iff_forall_ne_some.2 (fun v fits => ?_)⟩
  · obtain ⟨_, nonzero, _⟩ := (parseHello_iff b h).1 fits
    exact nonzero zero
  · obtain ⟨_, nonzero, _⟩ := (parseVerdict_iff b v).1 fits
    exact nonzero zero

/-! ## HELLO and VERDICT cells (R73, R75) -/

section cells

variable {k : Kind} {rx : Rx} {s : State}

/-- A cell for this part, link-local or routed. -/
theorem ends_here (h : Arrives k rx .up s) (dest : rx.dest = 0 ∨ rx.dest.toNat = s.own.val) :
    Ends (cellCommand k rx) s (cellOwner k rx ⟨heard s rx, []⟩) := by
  rcases dest with dest | dest
  · exact ends_local h dest
  · have := s.own.isLt
    exact ends_routed h (by omega) dest

theorem partnerSerial_heard (s : State) (rx : Rx) (p : PortIx) :
    ((heard s rx).port p).partnerSerial = (s.port p).partnerSerial := by
  unfold heard
  rw [port_modPort]
  split
  case isTrue at_port => rw [at_port]; rfl
  case isFalse => rfl

theorem helloPasses_iff (h : HelloFields) : helloPasses (heard s rx) rx h = true ↔
    s.roster.standing = .member ∧ rx.origin ≠ 0 ∧ rx.origin = h.frame ∧
      h.serial = (s.port rx.port).partnerSerial ∧ h.serial ≠ s.serial ∧ h.anchor = s.roster.anchor := by
  have serial : (heard s rx).serial = s.serial := rfl
  have roster : (heard s rx).roster = s.roster := rfl
  unfold helloPasses
  rw [partnerSerial_heard, serial, roster]
  simp only [Bool.and_eq_true, beq_iff_eq, bne_iff_ne, and_assoc]

/-- A link-local HELLO, by its tests and by whether this part is anchor. -/
theorem ends_helloLocal {h : HelloFields} (arrives : Arrives .hello rx .up s) (dest : rx.dest = 0)
    (parsed : parseHello rx.payload = some h) : Ends (.hello rx) s
      (if helloPasses (heard s rx) rx h = false then ⟨dropHello (heard s rx), []⟩
        else if isAnchor s then decideCandidate (candidateOf h s.own rx.port) ⟨heard s rx, []⟩
        else ⟨forwardHello rx h (heard s rx), []⟩) := by
  have ends : Ends (.hello rx) s (takeHello rx ⟨heard s rx, []⟩) := ends_local arrives dest
  unfold takeHello at ends
  rw [parsed] at ends
  dsimp only at ends
  rw [if_pos dest] at ends
  exact ends

theorem forwardHello_unknown {h : HelloFields} (unknown : s.route s.roster.anchor = none) :
    forwardHello rx h (heard s rx) = heard s rx := by
  have route_heard : (heard s rx).route (heard s rx).roster.anchor = none := unknown
  unfold forwardHello
  rw [route_heard]

theorem forwardHello_route {h : HelloFields} {r : Route} (route : s.route s.roster.anchor = some r) :
    forwardHello rx h (heard s rx) = countRoster (offer (heard s rx) r.port ⟨ownCell s .hello s.roster.anchor.val
      (helloPayload h.serial h.frameClass h.capabilities h.frame h.anchor h.rejoin s.own rx.port.val), none⟩)
      (fun c => { c with helloForwarded := c.helloForwarded + 1 }) := by
  have route_heard : (heard s rx).route (heard s rx).roster.anchor = some r := route
  unfold forwardHello
  rw [route_heard]
  rfl

theorem ends_helloRouted {h : HelloFields} (arrives : Arrives .hello rx .up s) (routed : rx.dest ≠ 0)
    (dest : rx.dest.toNat = s.own.val) (parsed : parseHello rx.payload = some h) : Ends (.hello rx) s
      (if isAnchor s = false ∨ h.serial = s.serial ∨ h.frame = 0 then ⟨dropHello (heard s rx), []⟩
        else decideCandidate (candidateOf h h.entryFrame h.entryPort) ⟨heard s rx, []⟩) := by
  have ends : Ends (.hello rx) s (takeHello rx ⟨heard s rx, []⟩) := ends_here arrives (.inr dest)
  unfold takeHello at ends
  rw [parsed] at ends
  dsimp only at ends
  rw [if_neg routed] at ends
  exact ends

theorem ends_verdict {v : VerdictFields} (arrives : Arrives .verdict rx .up s)
    (dest : rx.dest = 0 ∨ rx.dest.toNat = s.own.val) (parsed : parseVerdict rx.payload = some v) : Ends (.verdict rx) s
      (if rx.dest = 0 then rosterPlain (candidateVerdict v) ⟨heard s rx, []⟩ else ⟨forwardVerdict v (heard s rx), []⟩) := by
  have ends : Ends (.verdict rx) s (takeVerdict rx ⟨heard s rx, []⟩) := ends_here arrives dest
  unfold takeVerdict at ends
  rw [parsed] at ends
  exact ends

end cells

/-- Settles O38: a HELLO or VERDICT by where it is taken. -/
theorem helloAndVerdict : Obligations.HelloAndVerdict := by
  unfold Obligations.HelloAndVerdict
  refine ⟨fun _ => rfl, parseHello_iff, parseVerdict_iff, rfl, rfl, fun rx s h arrives dest parsed => ?hereLocal,
    fun rx s h arrives routed dest parsed => ?hereRouted,
    fun rx s dest => ⟨fun arrives unfit => ?_, fun arrives unfit => ?_, unserialed_unfit⟩,
    fun rx s v arrives routed dest parsed => ?entryFrame, fun rx s v arrives dest parsed => ?candidate⟩
  case hereLocal =>
    have ends := ends_helloLocal arrives dest parsed
    have passes_iff := helloPasses_iff (s := s) (rx := rx) h
    intro passes
    have decided (tested : passes) : Ends (.hello rx) s
        (if isAnchor s then decideCandidate (candidateOf h s.own rx.port) ⟨heard s rx, []⟩
          else ⟨forwardHello rx h (heard s rx), []⟩) := by
      rw [if_neg] at ends
      · exact ends
      · rw [passes_iff.2 tested]
        decide
    refine ⟨fun fails => ?_, fun tested anchor => ?_, fun tested notAnchor unknown => ?_, fun tested notAnchor r route => ?_⟩
    · rw [if_pos (Bool.eq_false_iff.2 (fun h => fails (passes_iff.1 h)))] at ends
      exact ends
    · have := decided tested
      rw [if_pos anchor] at this
      exact this
    · have := decided tested
      rw [if_neg (Bool.eq_false_iff.1 notAnchor)] at this
      rw [← forwardHello_unknown (s := s) (h := h) unknown]
      exact this
    · have := decided tested
      rw [if_neg (Bool.eq_false_iff.1 notAnchor), forwardHello_route (s := s) route] at this
      exact this
  case hereRouted =>
    have ends := ends_helloRouted arrives routed dest parsed
    by_cases decides : isAnchor s = true ∧ h.serial ≠ s.serial ∧ h.frame ≠ 0
    · obtain ⟨anchor, other, numbered⟩ := decides
      rw [if_pos ⟨anchor, other, numbered⟩]
      rw [if_neg] at ends
      · exact ends
      · rw [anchor]
        rintro (h | h | h)
        · exact absurd h (by decide)
        · exact other h
        · exact numbered h
    · rw [if_neg decides]
      rw [if_pos] at ends
      · exact ends
      · refine Classical.byContradiction fun h => ?_
        rw [not_or, not_or, Bool.not_eq_false] at h
        exact decides h
  · have ends : Ends (.hello rx) s (takeHello rx ⟨heard s rx, []⟩) := ends_here arrives dest
    unfold takeHello at ends
    rw [unfit] at ends
    exact ends
  · have ends : Ends (.verdict rx) s (takeVerdict rx ⟨heard s rx, []⟩) := ends_here arrives dest
    unfold takeVerdict at ends
    rw [unfit] at ends
    exact ends
  case entryFrame =>
    have ends := ends_verdict arrives (.inr dest) parsed
    rw [if_neg routed] at ends
    unfold forwardVerdict State.isUp at ends
    dsimp only at ends
    rw [partnerSerial_heard] at ends
    simp only [beq_iff_eq] at ends
    intro u count
    by_cases sends : (u.port v.port).state = .up ∧ (s.port v.port).partnerSerial = v.serial
    · rw [if_pos sends] at ends ⊢
      exact ends
    · rw [if_neg sends] at ends ⊢
      exact ends
  case candidate =>
    have ends := ends_verdict arrives (.inl dest) parsed
    rw [if_pos dest] at ends
    intro mine acts
    have mine_iff : (v.serial ≠ (heard s rx).serial ∨ v.frame ≠ (heard s rx).own ∨ v.anchor ≠ (heard s rx).roster.anchor) ↔
        ¬ mine := by
      rw [Classical.not_and_iff_not_or_not, Classical.not_and_iff_not_or_not]
      rfl
    refine ⟨fun own => ?_, fun other => ?_⟩
    · have taken : candidateVerdict v (heard s rx) = match v.answer with
          | .admitted | .wait => heard s rx
          | .quarantined => (heard s rx).modRoster (fun r => { r with heldLatch := true })
          | .refused => (heard s rx).modRoster (fun r => { r with refusedLatch := true }) :=
        if_neg (fun h => mine_iff.1 h own)
      cases answer : v.answer <;> rw [answer] at taken <;> exact ends_rosterPlain_congr ends taken
    · exact ends_rosterPlain_congr ends (if_pos (mine_iff.2 other))

/-! ## The decision (R74) -/

section decision

variable {s : State} {c : Candidate}

theorem entry_modEntry (s : State) (k : FrameNo) (f : RosterEntry → RosterEntry) (j : FrameNo) :
    (s.modEntry k f).entry j = if j = k then f (s.entry k) else s.entry j := get_upd ..

theorem decideKnown_known (serial : (s.entry c.frame).serial = c.serial)
    (state : (s.entry c.frame).state = .member ∨ (s.entry c.frame).state = .stray ∨ (s.entry c.frame).state = .quarantined) :
    let e := s.entry c.frame
    ∃ d, decideKnown s c = some d ∧
      d.answer = (if e.state = .quarantined then .quarantined else .admitted) ∧
      d.reason = .none ∧ d.changed = decide (e.state = .stray) ∧
      d.state.entry c.frame = { e with
        state := if e.state = .stray then .member else e.state, identity := some c.identity
        deadline := if e.state = .stray then none else e.deadline } := by
  intro e
  have refreshed : (s.modEntry c.frame (fun e => { e with identity := some c.identity })).entry c.frame =
      { e with identity := some c.identity } := (entry_modEntry ..).trans (if_pos rfl)
  unfold decideKnown
  dsimp only
  rw [if_neg (fun h => h serial)]
  rcases state with state | state | state <;> rw [state] <;> rw [show e.state = _ from state] at refreshed
  · exact ⟨_, rfl, rfl, rfl, rfl, refreshed⟩
  · refine ⟨_, rfl, rfl, rfl, rfl, ?_⟩
    dsimp only
    unfold setEntryState
    rw [entry_modEntry, if_pos rfl, refreshed]
    rfl
  · exact ⟨_, rfl, rfl, rfl, rfl, refreshed⟩

theorem decideKnown_none (h : (s.entry c.frame).serial ≠ c.serial ∨ ¬ ((s.entry c.frame).state = .member ∨
    (s.entry c.frame).state = .stray ∨ (s.entry c.frame).state = .quarantined)) : decideKnown s c = none := by
  unfold decideKnown
  dsimp only
  rcases h with serial | state
  · exact if_pos serial
  · by_cases serial : (s.entry c.frame).serial = c.serial
    · rw [if_neg (fun h => h serial)]
      rw [not_or, not_or] at state
      obtain ⟨member, stray, quarantined⟩ := state
      cases st : (s.entry c.frame).state with
      | member => exact absurd st member
      | stray => exact absurd st stray
      | quarantined => exact absurd st quarantined
      | vacant => rfl
      | leaving => rfl
      | refused => rfl
    · exact if_pos serial

/-- Another entry that carries the candidate's serial. -/
def OtherHolder (s : State) (c : Candidate) (f : FrameNo) : Prop :=
  f ≠ 0 ∧ f ≠ c.frame ∧ (s.entry f).state ≠ .vacant ∧ (s.entry f).serial = c.serial

/-- The entries changed one after the other, each by itself. -/
theorem foldl_modEntry (g : FrameNo → RosterEntry → RosterEntry) (fs : List FrameNo) (s : State) :
    fs.foldl (fun v f => v.modEntry f (g f)) s = { s with roster := { s.roster with
      entries := fs.foldl (fun v f => upd v f (g f)) s.roster.entries } } := by
  induction fs generalizing s with
  | nil => rfl
  | cons f fs ih =>
    rw [List.foldl_cons, ih]
    rfl

theorem vacateOthers_spec (s : State) (c : Candidate) :
    let v := (vacateOthers s c).1
    ((vacateOthers s c).2 = true ↔ ∃ f, OtherHolder s c f) ∧
    (∀ f, (OtherHolder s c f → v.entry f = ⟨.vacant, 0, none, none⟩) ∧ (¬ OtherHolder s c f → v.entry f = s.entry f)) ∧
    { v with roster := { v.roster with entries := s.roster.entries } } = s := by
  let others := allFrames.filter (fun f =>
    f != c.frame && (s.entry f).state != .vacant && (s.entry f).serial == c.serial)
  have mem_iff (f : FrameNo) : f ∈ others ↔ OtherHolder s c f := by
    rw [List.mem_filter, mem_allFrames]
    simp [OtherHolder, and_assoc]
  have vacated : (vacateOthers s c).1 = { s with roster := { s.roster with
      entries := others.foldl (fun v f => upd v f (fun _ => .vacant)) s.roster.entries } } :=
    foldl_modEntry (fun _ _ => .vacant) others s
  have nodup : others.Nodup := allFrames_nodup.filter _
  intro v
  have entry (f : FrameNo) : v.entry f = if f ∈ others then .vacant else s.entry f :=
    (congrArg (fun v : State => v.entry f) vacated).trans (get_foldl_upd _ _ nodup _ f)
  refine ⟨?_, fun f => ⟨fun other => (entry f).trans (if_pos ((mem_iff f).2 other)),
    fun notOther => (entry f).trans (if_neg (fun h => notOther ((mem_iff f).1 h)))⟩, ?_⟩
  · show (!others.isEmpty) = true ↔ _
    rw [Bool.not_eq_true', List.isEmpty_eq_false_iff_exists_mem]
    exact exists_congr mem_iff
  · rw [show v = _ from vacated]

theorem numberTaken_iff (e : RosterEntry) : numberTaken e c = true ↔ e.serial ≠ c.serial ∧
    (e.state = .member ∨ e.state = .stray ∨ e.state = .quarantined ∨ e.state = .leaving) := by
  unfold numberTaken
  simp only [Bool.and_eq_true, bne_iff_ne, Bool.or_eq_true, beq_iff_eq, or_assoc]

theorem decideRest_spec (v : State) (c : Candidate) (vacated : Bool) :
    let e := v.entry c.frame
    let d := decideRest v c vacated
    let taken := e.serial ≠ c.serial ∧
      (e.state = .member ∨ e.state = .stray ∨ e.state = .quarantined ∨ e.state = .leaving)
    let prior := e.state = .refused ∧ e.serial = c.serial
    (taken → d.answer = .refused ∧ d.reason = .duplicate ∧ d.changed = vacated ∧ d.state = v) ∧
    (prior → d.answer = .refused ∧ d.reason = .prior ∧ d.changed = vacated ∧ d.state = v) ∧
    (¬ taken → ¬ prior → filterMatches v.store.working.filter c = true →
      d.answer = .admitted ∧ d.reason = .none ∧ d.changed = true ∧
      d.state = v.modEntry c.frame (fun _ => ⟨.member, c.serial, some c.identity, none⟩)) ∧
    (¬ taken → ¬ prior → filterMatches v.store.working.filter c = false →
      (quarantinedCount v < 4 → d.answer = .quarantined ∧ d.reason = .none ∧ d.changed = true ∧
        d.state = v.modEntry c.frame (fun _ => ⟨.quarantined, c.serial, some c.identity,
          some (v.now + v.store.working.window * 1000000000)⟩)) ∧
      (4 ≤ quarantinedCount v → d.answer = .wait ∧ d.reason = .none ∧ d.changed = vacated ∧ d.state = v)) := by
  intro e d taken prior
  have taken_iff : numberTaken e c = true ↔ taken := numberTaken_iff e
  have capacity : quarantineCapacity = 4 := rfl
  have d_eq : d = if numberTaken e c then ⟨v, vacated, .refused, .duplicate⟩
      else if prior then ⟨v, vacated, .refused, .prior⟩
      else if filterMatches v.store.working.filter c then ⟨holdCandidate v c .member none, true, .admitted, .none⟩
      else if quarantinedCount v < quarantineCapacity then
        ⟨holdCandidate v c .quarantined (some (v.now + windowTime v.store.working)), true, .quarantined, .none⟩
      else ⟨v, vacated, .wait, .none⟩ := rfl
  refine ⟨fun h => ?_, fun h => ?_, fun notTaken notPrior matched => ?_, fun notTaken notPrior unmatched => ?_⟩
  · rw [d_eq, if_pos (taken_iff.2 h)]
    exact ⟨rfl, rfl, rfl, rfl⟩
  · have notTaken : ¬ numberTaken e c = true := fun t => (taken_iff.1 t).1 h.2
    rw [d_eq, if_neg notTaken, if_pos h]
    exact ⟨rfl, rfl, rfl, rfl⟩
  · rw [d_eq, if_neg (fun t => notTaken (taken_iff.1 t)), if_neg notPrior, if_pos matched]
    exact ⟨rfl, rfl, rfl, rfl⟩
  · rw [d_eq, if_neg (fun t => notTaken (taken_iff.1 t)), if_neg notPrior, if_neg (Bool.eq_false_iff.1 unmatched), capacity]
    refine ⟨fun room => ?_, fun full => ?_⟩
    · rw [if_pos room]
      exact ⟨rfl, rfl, rfl, rfl⟩
    · rw [if_neg (Nat.not_lt.2 full)]
      exact ⟨rfl, rfl, rfl, rfl⟩

end decision

/-! ## The Admission Filter (R76) -/

/-- Two words agree wherever a mask is clear. -/
theorem masked_eq_zero_iff {w : Nat} (a b m : BitVec w) :
    (a ^^^ b) &&& ~~~m = 0 ↔ ∀ i, m.getLsbD i = false → i < w → a.getLsbD i = b.getLsbD i := by
  constructor
  · intro zero i clear inside
    have bit : ((a ^^^ b) &&& ~~~m).getLsbD i = (0 : BitVec w).getLsbD i := by rw [zero]
    rw [BitVec.getLsbD_and, BitVec.getLsbD_xor, BitVec.getLsbD_not, clear] at bit
    simpa only [inside, decide_true, Bool.not_false, Bool.and_true, BitVec.ofNat_eq_ofNat, BitVec.getLsbD_zero,
      bne_eq_false_iff_eq] using bit
  · intro agree
    refine BitVec.eq_of_getLsbD_eq (fun i inside => ?_)
    cases clear : m.getLsbD i with
    | true => simp [clear]
    | false => simp [agree i clear inside]

theorem and_ne_zero_iff {w : Nat} (a b : BitVec w) : a &&& b ≠ 0 ↔ ∃ i, a.getLsbD i = true ∧ b.getLsbD i = true := by
  constructor
  · intro nonzero
    refine Classical.byContradiction fun none => ?_
    refine nonzero (BitVec.eq_of_getLsbD_eq (fun i _ => ?_))
    have := not_exists.1 none i
    simpa using this
  · rintro ⟨i, at_a, at_b⟩ zero
    have bit := congrArg (fun x : BitVec w => x.getLsbD i) zero
    simp [at_a, at_b] at bit

theorem filterMatches_iff (f : Filter) (c : Candidate) : filterMatches f c = true ↔
    (f.armed = true ∧
      (∃ k : Fin 4, let p := f.patterns.get k
        p.enabled = true ∧
        (∀ i : Nat, p.classMask.getLsbD i = false → i < 16 →
          c.identity.frameClass.getLsbD i = p.classValue.getLsbD i) ∧
        (∀ i : Nat, p.serialMask.getLsbD i = false → i < 48 → c.serial.getLsbD i = p.serialValue.getLsbD i)) ∧
      (f.required = 0 ∨ ∃ i : Nat, c.identity.capabilities.getLsbD i = true ∧ f.required.getLsbD i = true)) := by
  unfold filterMatches patternMatches
  simp only [Bool.and_eq_true, Bool.or_eq_true, List.any_eq_true, beq_iff_eq, bne_iff_ne, and_ne_zero_iff,
    masked_eq_zero_iff, and_assoc]
  refine and_congr_right fun _ => and_congr_left fun _ => exists_congr fun k => ?_
  exact and_iff_right (List.mem_finRange k)

/-- Settles O39: known candidates by `decideKnown_known`, others by `decideRest_spec` once other holders of the serial
have been vacated. -/
theorem candidateDecision : Obligations.CandidateDecision := by
  unfold Obligations.CandidateDecision
  refine ⟨fun s => ?count, fun s c => ⟨fun serial state => ?known, fun unknown => ?rest⟩, fun s ps c => ?act, filterMatches_iff⟩
  case count =>
    unfold quarantinedCount
    congr 1
  case known =>
    obtain ⟨d, found, result⟩ := decideKnown_known serial state
    have decided : decide74 s c = d := by
      unfold decide74
      rw [found]
    rw [decided]
    exact result
  case rest =>
    obtain ⟨any, entries, frame⟩ := vacateOthers_spec s c
    have decided : decide74 s c = decideRest (vacateOthers s c).1 c (vacateOthers s c).2 := by
      unfold decide74
      rw [decideKnown_none unknown]
    have entry : (vacateOthers s c).1.entry c.frame = s.entry c.frame := (entries c.frame).2 (fun h => h.2.1 rfl)
    have store : (vacateOthers s c).1.store = s.store := (congrArg State.store frame :)
    have now : (vacateOthers s c).1.now = s.now := (congrArg State.now frame :)
    have rest := decideRest_spec (vacateOthers s c).1 c (vacateOthers s c).2
    rw [← decided, entry, store, now] at rest
    exact ⟨any, entries, frame, rest⟩
  case act =>
    intro a begins
    have begins_iff : beginsQuarantine s c (decide74 s c) = true ↔ begins := by
      unfold beginsQuarantine
      simp only [Bool.and_eq_true, beq_iff_eq, Bool.not_eq_true', Bool.and_eq_false_iff, beq_eq_false_iff_ne]
      exact and_congr_right fun _ => Classical.not_and_iff_not_or_not.symm
    refine ⟨fun h => if_pos (begins_iff.2 h), fun h => if_neg (fun b => h (begins_iff.1 b))⟩

end Sys2Proof.Candidates

/-! SUPPORT. The timers of the roster unit (R66, R70, R72, R77, R79) and what a part that names itself anchor inherits
(R68). -/

namespace Sys2Proof.RosterTimers

open Sys2Proof Sys2Proof.Machine Sys2Proof.Statements Sys2Proof.PortUnits Sys2Proof.RosterActs Sys2Proof.RosterCells
  Sys2Proof.Candidates

/-! ## The clock at a limit -/

theorem le_now_advanceTo (s : State) (t : Nat) : t ≤ (advanceTo s t).now := by
  show t ≤ s.now + (t - s.now)
  omega

theorem upPorts_advanceTo (s : State) (t : Nat) : (advanceTo s t).upPorts = s.upPorts := by
  unfold State.upPorts State.isUp
  simp only [port_advanceTo]

theorem ownCell_advanceTo (s : State) (t : Nat) (k : Kind) (d : Nat) (b : List Byte) (q : BitVec 16) (w : BitVec 32) :
    ownCell (advanceTo s t) k d b q w = ownCell s k d b q w := by
  unfold ownCell
  rw [own_advanceTo, advanceTo_store]

/-! ## The earliest window (R77) -/

/-- The window deadline of an entry that has one. -/
def windowEnd (s : State) (f : FrameNo) : Option Nat :=
  if (s.entry f).state = .quarantined then (s.entry f).deadline else none

theorem windowEnd_iff {s : State} {f : FrameNo} {d : Nat} :
    windowEnd s f = some d ↔ (s.entry f).state = .quarantined ∧ (s.entry f).deadline = some d := by
  unfold windowEnd
  by_cases state : (s.entry f).state = .quarantined <;> simp [state]

/-- The least of the values that a function gives on a list. -/
theorem foldl_minFault_spec {α : Type} (g : α → Option Nat) (xs : List α) (m : Option Nat) :
    let r := xs.foldl (fun m x => minFault m (g x)) m
    (r = none ↔ m = none ∧ ∀ x ∈ xs, g x = none) ∧
    ∀ t, r = some t ↔ (m = some t ∨ ∃ x ∈ xs, g x = some t) ∧ (∀ d, m = some d → t ≤ d) ∧
      ∀ x ∈ xs, ∀ d, g x = some d → t ≤ d := by
  induction xs generalizing m with
  | nil =>
    refine ⟨by simp, fun t => ⟨fun is => ⟨.inl is, fun d other => ?_, by simp⟩, fun h => by simpa using h.1⟩⟩
    exact Nat.le_of_eq (Option.some.inj (is.symm.trans other))
  | cons x xs ih =>
    obtain ⟨is_none, is_some⟩ := ih (minFault m (g x))
    rw [List.foldl_cons]
    refine ⟨is_none.trans ?_, fun t => (is_some t).trans ?_⟩
    · cases m <;> cases at_x : g x <;> simp [minFault, at_x]
    · cases m with
      | none => simp [minFault]
      | some a =>
        cases at_x : g x with
        | none => simp [minFault, at_x]
        | some b =>
          simp only [minFault, Option.some.injEq, List.mem_cons, forall_eq_or_imp, exists_eq_or_imp, at_x, forall_eq']
          constructor
          · rintro ⟨found | found, low, rest⟩
            · exact ⟨by omega, by omega, by omega, rest⟩
            · exact ⟨.inr (.inr found), by omega, by omega, rest⟩
          · rintro ⟨found | found | found, low_a, low_b, rest⟩
            · exact ⟨.inl (by omega), by omega, rest⟩
            · exact ⟨.inl (by omega), by omega, rest⟩
            · exact ⟨.inr found, by omega, rest⟩

theorem nextWindow_eq (s : State) : nextWindow s = allFrames.foldl (fun m f => minFault m (windowEnd s f)) none := by
  unfold nextWindow
  congr 1
  funext m f
  unfold windowEnd
  cases state : (s.entry f).state <;> cases deadline : (s.entry f).deadline <;> cases m <;> rfl

theorem nextWindow_spec (s : State) :
    let ends (f : FrameNo) (d : Nat) := f ≠ 0 ∧ (s.entry f).state = .quarantined ∧ (s.entry f).deadline = some d
    (nextWindow s = none ↔ ∀ f d, ¬ ends f d) ∧
    ∀ t, nextWindow s = some t ↔ (∃ f, ends f t) ∧ ∀ f d, ends f d → t ≤ d := by
  intro ends
  have ends_iff (f : FrameNo) (d : Nat) : ends f d ↔ f ∈ allFrames ∧ windowEnd s f = some d := by
    rw [mem_allFrames, windowEnd_iff]
  obtain ⟨is_none, is_some⟩ := foldl_minFault_spec (windowEnd s) allFrames none
  rw [← nextWindow_eq] at is_none
  refine ⟨is_none.trans ?_, fun t => ?_⟩
  · simp only [ends_iff, true_and, not_and]
    exact ⟨fun h f d inside => by rw [h f inside]; simp, fun h f inside => Option.eq_none_iff_forall_ne_some.2 (fun d => h f d inside)⟩
  · rw [nextWindow_eq]
    refine (is_some t).trans ?_
    simp only [ends_iff, reduceCtorEq, false_or, false_implies, implies_true, true_and, and_imp]
    exact and_congr_right fun _ => ⟨fun h f d inside => h f inside d, fun h f inside d => h f d inside⟩

/-! ## Self-anchoring (R66, R68) -/

section nameSelf

variable {s : State}

theorem ends_anchorSilence {t : Nat} (running : s.inReset = false) (silence : s.roster.silenceSince = some t) :
    Ends .anchorSilence s (rosterPlain selfAnchor ⟨advanceTo s (t + anchorSilenceLimit), []⟩) := by
  show execAnchorSilence s = _
  unfold execAnchorSilence
  refine run_ends running ?_
  dsimp only
  rw [silence, atTimer_some]

theorem selfAnchor_atLimit {t : Nat} (silence : s.roster.silenceSince = some t) :
    let u := advanceTo s (t + anchorSilenceLimit)
    let due := s.roster.anchor = 0 ∧ s.own ≠ 0 ∧ s.roster.refusedLatch = false ∧ s.roster.leavingLatch = false ∧
      s.store.working.anchorRank ≠ 0
    (due → selfAnchor u = nameSelf u) ∧ (¬ due → selfAnchor u = u) := by
  intro u due
  have limit : anchorSilenceLimit = 60000000 := rfl
  have past : ∃ t', u.roster.silenceSince = some t' ∧ t' + 60000000 ≤ u.now := by
    refine ⟨t, ?_, ?_⟩
    · rw [show u.roster = s.roster from advanceTo_roster ..]
      exact silence
    · rw [← limit]
      exact le_now_advanceTo ..
  have due_iff : selfAnchorDue u = true ↔ due := by
    rw [selfAnchorDue_iff, and_iff_left past, own_advanceTo, advanceTo_roster, advanceTo_store]
  exact ⟨fun h => if_pos (due_iff.2 h), fun h => if_neg (fun d => h (due_iff.1 d))⟩

/-- The entries as a part that names itself anchor inherits them. -/
def inherited (s : State) : Vector RosterEntry 32 :=
  allFrames.foldl (fun v f => upd v f (inheritEntry s f)) s.roster.entries

theorem inherited_get (f : FrameNo) :
    (inherited s).get f = if f = 0 then s.entry 0 else inheritEntry s f (s.entry f) := by
  refine (get_foldl_upd _ _ allFrames_nodup _ f).trans ?_
  by_cases zero : f = 0
  · rw [if_pos zero, if_neg (fun inside => (mem_allFrames f).1 inside zero), zero]
    rfl
  · rw [if_neg zero, if_pos ((mem_allFrames f).2 zero)]
    rfl

/-- What an entry that is not the own one becomes. -/
theorem inheritEntry_spec {f : FrameNo} (other : f ≠ s.own) (e : RosterEntry) :
    let stray : RosterEntry := ⟨.stray, e.serial, none, some (s.now + 2000000000)⟩
    (e.serial = s.serial ∨ e.state = .vacant ∨ e.state = .quarantined → inheritEntry s f e = ⟨.vacant, 0, none, none⟩) ∧
    (e.serial ≠ s.serial → (e.state = .stray ∨ e.state = .member ∧ s.route f = none) → inheritEntry s f e = stray) ∧
    (e.serial ≠ s.serial → (e.state = .member ∨ e.state = .leaving ∨ e.state = .refused) → s.route f ≠ none →
      inheritEntry s f e = ⟨e.state, e.serial, none, none⟩) ∧
    (e.serial ≠ s.serial → (e.state = .leaving ∨ e.state = .refused) → s.route f = none →
      inheritEntry s f e = ⟨.vacant, 0, none, none⟩) := by
  intro stray
  have stray_eq : stray = ⟨.stray, e.serial, none, some (s.now + strayTime)⟩ := rfl
  obtain ⟨state, serial, identity, deadline⟩ := e
  unfold inheritEntry
  dsimp only at stray_eq ⊢
  rw [if_neg other, stray_eq]
  refine ⟨fun gone => ?_, fun foreign kept => ?_, fun foreign kept reached => ?_, fun foreign kept lost => ?_⟩
  · by_cases dropped : state = .vacant ∨ serial = s.serial
    · rw [if_pos dropped]
      rfl
    · rw [not_or] at dropped
      obtain ⟨notVacant, foreign⟩ := dropped
      rcases gone with own | vacant | quarantined
      · exact absurd own foreign
      · exact absurd vacant notVacant
      · subst quarantined
        rw [if_neg (fun h => h.elim notVacant foreign)]
        rfl
  all_goals
    have notVacant : state ≠ .vacant := by rintro rfl; simp at kept
    rw [if_neg (fun h => h.elim notVacant foreign)]
  · rcases kept with rfl | ⟨rfl, lost⟩
    · rfl
    · rw [lost]
      rfl
  · obtain ⟨r, route⟩ := Option.ne_none_iff_exists'.1 reached
    rw [route]
    rcases kept with rfl | rfl | rfl <;> rfl
  · rw [lost]
    rcases kept with rfl | rfl <;> rfl

theorem nameSelf_eq (s : State) : nameSelf s = issueRoster { s with roster := { s.roster with
    anchor := s.own, issuer := s.own, entries := inherited s, silenceSince := none, lastRoll := some s.now } } := rfl

theorem nameSelf_spec (numbered : s.own ≠ 0) :
    let t := nameSelf s
    t.roster.anchor = s.own ∧ t.roster.issuer = s.own ∧ t.roster.generation = s.roster.generation + 1 ∧
    t.entry s.own = ⟨.member, s.serial, none, none⟩ ∧ t.roster.lastRoll = some s.now ∧
    t.roster.silenceSince = none ∧
    ∃ es, t = issueRoster { s with roster := { s.roster with
        anchor := s.own, issuer := s.own, entries := es, silenceSince := none, lastRoll := some s.now } } ∧
      es.get 0 = s.entry 0 ∧ es.get s.own = ⟨.member, s.serial, none, none⟩ ∧
      ∀ f, f ≠ 0 → f ≠ s.own → es.get f = inheritEntry s f (s.entry f) := by
  intro t
  have t_eq : t = _ := nameSelf_eq s
  have roster : t.roster = _ := (congrArg State.roster t_eq).trans (issueRoster_roster _)
  have own : (inherited s).get s.own = ⟨.member, s.serial, none, none⟩ := by
    rw [inherited_get, if_neg numbered]
    exact if_pos rfl
  have entry : t.entry s.own = ⟨.member, s.serial, none, none⟩ := by
    unfold State.entry
    rw [roster]
    exact own
  rw [roster]
  exact ⟨rfl, rfl, rfl, entry, rfl, rfl, inherited s, t_eq, (inherited_get 0).trans (if_pos rfl), own,
    fun f nonzero _ => (inherited_get f).trans (if_neg nonzero)⟩

end nameSelf

/-! ## The timers -/

section timers

variable {s : State}

theorem acts_helloTimer {last : Nat} (running : s.inReset = false) (lastHello : s.roster.lastHello = some last)
    (sends : s.roster.standing = .seeking ∨ s.roster.standing = .held) :
    let u := advanceTo s (last + helloPeriod)
    let v := s.upPorts.foldl (fun v p => offer v p ⟨ownCell s .hello 0
      (helloPayload s.serial s.store.identity.frameClass s.store.identity.capabilities s.own s.roster.anchor
        s.roster.rejoin 0 0), none⟩) u
    Acts .helloTimer s { v with roster := { v.roster with lastHello := some (last + helloPeriod) } } [] := by
  intro u v
  have hello : helloCell u = ownCell s .hello 0
      (helloPayload s.serial s.store.identity.frameClass s.store.identity.capabilities s.own s.roster.anchor
        s.roster.rejoin 0 0) := by
    unfold helloCell
    rw [show u = advanceTo s (last + helloPeriod) from rfl, ownCell_advanceTo, serial_advanceTo, own_advanceTo,
      advanceTo_store, advanceTo_roster]
  show execHelloTimer s = _
  unfold execHelloTimer
  refine run_ends running ?_
  dsimp only
  rw [lastHello]
  dsimp only
  rw [if_pos ((sendsHello_iff _).2 sends), atTimer_some]
  dsimp only [Act.on]
  unfold sendHello offerEach
  rw [show advanceTo s (last + helloPeriod) = u from rfl, hello, show u.upPorts = s.upPorts from upPorts_advanceTo ..]
  rfl

/-- The ROLL of the timer, its cells spelled. -/
theorem timedRoll_eq (due : Nat) (u : State) : timedRoll due u = u.upPorts.foldl (fun v p => offer v p
    ⟨ownCell u .roll 63 (rollPayload u.roster) (u.roster.rollSequence + 1), none⟩)
      { u with roster := { u.roster with lastRoll := some due, rollSequence := u.roster.rollSequence + 1 } } := rfl

theorem acts_rollTimer {last : Nat} (running : s.inReset = false) (lastRoll : s.roster.lastRoll = some last)
    (numbered : s.own ≠ 0) (anchor : s.roster.anchor = s.own) :
    let u := advanceTo s (last + rollPeriod)
    let v : State := { u with roster := { u.roster with
      lastRoll := some (last + rollPeriod), rollSequence := s.roster.rollSequence + 1 } }
    Acts .rollTimer s (s.upPorts.foldl (fun v p => offer v p
      ⟨ownCell s .roll 63 (rollPayload s.roster) (s.roster.rollSequence + 1), none⟩) v) [] := by
  intro u v
  have timed := timedRoll_eq (last + rollPeriod) u
  rw [upPorts_advanceTo, ownCell_advanceTo, advanceTo_roster] at timed
  show execRollTimer s = _
  unfold execRollTimer
  refine run_ends running ?_
  dsimp only
  rw [lastRoll]
  dsimp only
  rw [if_pos (isAnchor_iff.2 ⟨numbered, anchor⟩), atTimer_some]
  refine congrArg (Act.mk · []) (timed.trans ?_)
  rw [show v = { u with roster := { u.roster with
    lastRoll := some (last + rollPeriod), rollSequence := s.roster.rollSequence + 1 } } from rfl,
    show u.roster = s.roster from advanceTo_roster ..]

theorem ends_windowDeadline {t : Nat} (running : s.inReset = false) (anchor : isAnchor s = true)
    (next : nextWindow s = some t) :
    let u := advanceTo s t
    let out := allFrames.filter (fun f =>
      decide ((s.entry f).state = .quarantined) && (s.entry f).deadline.any (fun d => decide (d ≤ u.now)))
    out ≠ [] ∧ Ends .windowDeadline s ((rosterPlain (fun v =>
      let v := issueRoster (out.foldl (fun v f => v.modEntry f (fun e => { e with state := .refused, deadline := none })) v)
      out.foldl (fun v f => verdictFor v f .refused .timeout) v) ⟨u, []⟩).post
        (.notice (.admission 0 (bitmap 32 out (fun _ => true))))) := by
  intro u out
  have expired : expiredWindows u = out := by
    refine List.filter_congr (fun f _ => ?_)
    rw [show u.entry f = s.entry f from entry_advanceTo ..]
    cases state : (s.entry f).state <;> cases deadline : (s.entry f).deadline <;> rfl
  have nonempty : out ≠ [] := by
    obtain ⟨⟨f, numbered, state, deadline⟩, _⟩ := ((nextWindow_spec s).2 t).1 next
    refine List.ne_nil_of_mem (a := f) (List.mem_filter.2 ⟨(mem_allFrames f).2 numbered, ?_⟩)
    rw [state, deadline]
    simpa using le_now_advanceTo s t
  refine ⟨nonempty, ?_⟩
  show execWindowDeadline s = _
  unfold execWindowDeadline
  refine run_ends running ?_
  dsimp only
  rw [if_pos anchor, next, atTimer_some]
  show expireWindows ⟨u, []⟩ = _
  unfold expireWindows
  dsimp only
  rw [expired, if_neg nonempty]
  rfl

theorem ends_strayDeadline {f : FrameNo} {d : Nat} (running : s.inReset = false) (anchor : isAnchor s = true)
    (state : (s.entry f).state = .stray) (deadline : (s.entry f).deadline = some d) :
    Ends (.strayDeadline f) s (rosterPlain (fun v => issueRoster (v.modEntry f (fun _ => .vacant))) ⟨advanceTo s d, []⟩) := by
  show execStrayDeadline f s = _
  unfold execStrayDeadline
  refine run_ends running ?_
  dsimp only
  rw [if_pos ⟨anchor, state⟩, deadline, atTimer_some]
  rfl

end timers

/-- Settles O40, timer by timer. -/
theorem rosterTimers : Obligations.RosterTimers := by
  unfold Obligations.RosterTimers
  refine ⟨nextWindow_spec, fun s t running silence => ?silence, fun s numbered => ?self, fun f a => ?reach, fun s f => ?lost,
    fun s last => acts_helloTimer, fun s last => acts_rollTimer, fun s t => ends_windowDeadline,
    fun s f d => ends_strayDeadline⟩
  case silence =>
    have ends := ends_anchorSilence running silence
    obtain ⟨names, stays⟩ := selfAnchor_atLimit silence
    exact ⟨fun due => ends_rosterPlain_congr ends (names due), fun notDue => ends_rosterPlain_congr ends (stays notDue)⟩
  case self =>
    obtain ⟨anchor, issuer, generation, entry, lastRoll, silence, es, issued, zero, own, others⟩ := nameSelf_spec numbered
    refine ⟨anchor, issuer, generation, entry, lastRoll, silence, es, issued, zero, own, fun f nonzero other => ?_⟩
    rw [others f nonzero other]
    exact inheritEntry_spec other _
  case reach =>
    refine ⟨?_, ?_⟩
    · unfold rosterReachLost
      simp only [isAnchor_iff]
    · unfold rosterReachGained
      simp only [isAnchor_iff]
      rfl
  case lost =>
    unfold strayOnLoss
    cases (s.entry f).state <;> rfl

end Sys2Proof.RosterTimers

/-! SUPPORT. The settings store (R185 to R188, R76) and what each unit takes from a change of the settings. -/

namespace Sys2Proof.SettingsActs

open Sys2Proof Sys2Proof.Machine Sys2Proof.Statements Sys2Proof.OrderWindow Sys2Proof.PortOrders Sys2Proof.RosterActs
  Sys2Proof.ExchangeEvents

theorem get_ofFn {α : Type} {n : Nat} (f : Fin n → α) (k : Fin n) : (Vector.ofFn f).get k = f k :=
  Vector.getElem_ofFn k.isLt

/-! ## The settings image (R185) -/

section image

variable {mask : Nat} {b : List Byte}

/-- The value of group `g` lies out of its range. -/
def OutOfRange (b : List Byte) (g : Nat) : Prop :=
  g = 0 ∧ 31 < leAt b 0x00 1 ∨ g = 1 ∧ 15 < leAt b 0x01 1 ∨ g = 2 ∧ 15 < leAt b 0x02 1 ∨ g = 7 ∧ 2 < leAt b 0x04 1 ∨
    g = 8 ∧ (leAt b 0x05 1 < 1 ∨ 127 < leAt b 0x05 1) ∨ g = 9 ∧ (leAt b 0x08 2 < 1 ∨ 60 < leAt b 0x08 2) ∨
    g = 10 ∧ (leAt b 0x0A 2 < 1 ∨ 600 < leAt b 0x0A 2) ∨ g = 11 ∧ (leAt b 0x06 2 < 1 ∨ 1000 < leAt b 0x06 2) ∨
    ∃ k : LaneIx, g = 12 + k.val ∧ (leAt b (0x12 + 8 * k.val) 2 < 1 ∨ leAt b (0x14 + 8 * k.val) 2 < 1 ∨
      1000 < leAt b (0x14 + 8 * k.val) 2)

theorem imageLane_eq (b : List Byte) (k : LaneIx) : imageLane b k =
    ⟨(leAt b (0x10 + 8 * k.val) 1).testBit 0, (leAt b (0x10 + 8 * k.val) 1).testBit 1,
      (leAt b (0x10 + 8 * k.val) 1).testBit 2, leAt b (0x12 + 8 * k.val) 2, leAt b (0x14 + 8 * k.val) 2⟩ := by
  rw [show 0x12 + 8 * k.val = 0x10 + 8 * k.val + 2 by omega, show 0x14 + 8 * k.val = 0x10 + 8 * k.val + 4 by omega]
  rfl

/-- A group above the port enables and below the lanes is judged by its own row, a lane group by the lane's lead and
width. -/
theorem outOfRange_lane (k : LaneIx) : OutOfRange b (12 + k.val) ↔
    (leAt b (0x12 + 8 * k.val) 2 < 1 ∨ leAt b (0x14 + 8 * k.val) 2 < 1 ∨ 1000 < leAt b (0x14 + 8 * k.val) 2) := by
  refine ⟨?_, fun h => ?_⟩
  · rintro (⟨h, -⟩ | ⟨h, -⟩ | ⟨h, -⟩ | ⟨h, -⟩ | ⟨h, -⟩ | ⟨h, -⟩ | ⟨h, -⟩ | ⟨h, -⟩ | ⟨j, at_k, h⟩)
    any_goals omega
    have : j = k := Fin.ext (by omega)
    exact this ▸ h
  · exact .inr (.inr (.inr (.inr (.inr (.inr (.inr (.inr ⟨k, rfl, h⟩)))))))

theorem groupValid_lane (k : LaneIx) : groupValid b (12 + k.val) = false ↔
    (leAt b (0x12 + 8 * k.val) 2 < 1 ∨ leAt b (0x14 + 8 * k.val) 2 < 1 ∨ 1000 < leAt b (0x14 + 8 * k.val) 2) := by
  have below : 12 + k.val - 12 < 16 := by omega
  have lane : (⟨12 + k.val - 12, below⟩ : LaneIx) = k := Fin.ext (by simp)
  unfold groupValid
  rw [if_neg (by omega), if_neg (by omega), if_neg (by omega), if_neg (by omega), if_neg (by omega), if_neg (by omega),
    if_neg (by omega), if_neg (by omega), if_neg (by omega), dif_pos below, lane, imageLane_eq]
  simp only [decide_eq_false_iff_not]
  omega

/-- The groups of the header, of which the port enables (3 to 6) take any value. -/
theorem groupValid_scalar {g : Nat} (scalar : g < 12) : groupValid b g = false ↔ OutOfRange b g := by
  unfold OutOfRange groupValid imageFrame imageAnchorRank imageTimeRank imageWake imageThreshold imageWindow imageHoldover
    imageHoldLimit
  have noLane (k : LaneIx) : g ≠ 12 + k.val := by omega
  simp only [noLane, false_and, exists_false, or_false]
  obtain rfl | rfl | rfl | rfl | rfl | rfl | rfl | rfl | rfl | rfl | rfl | rfl : g = 0 ∨ g = 1 ∨ g = 2 ∨ g = 3 ∨ g = 4 ∨
    g = 5 ∨ g = 6 ∨ g = 7 ∨ g = 8 ∨ g = 9 ∨ g = 10 ∨ g = 11 := by omega
  all_goals simp
  all_goals omega

theorem groupValid_iff {g : Nat} : g < groupCount ∧ groupValid b g = false ↔ OutOfRange b g := by
  have count : groupCount = 28 := rfl
  by_cases scalar : g < 12
  · rw [groupValid_scalar scalar]
    exact and_iff_right (by omega)
  by_cases lane : g < 28
  · obtain ⟨k, rfl⟩ : ∃ k : LaneIx, g = 12 + k.val := ⟨⟨g - 12, by omega⟩, by simp; omega⟩
    rw [groupValid_lane, outOfRange_lane]
    exact and_iff_right (by omega)
  · refine ⟨fun h => absurd h.1 (by omega), ?_⟩
    rintro (⟨h, -⟩ | ⟨h, -⟩ | ⟨h, -⟩ | ⟨h, -⟩ | ⟨h, -⟩ | ⟨h, -⟩ | ⟨h, -⟩ | ⟨h, -⟩ | ⟨j, h, -⟩) <;> omega

/-- The search for a bad group meets exactly the selected groups that are out of range. -/
theorem badGroup_iff {g : Nat} :
    g < groupCount ∧ (mask.testBit g && !groupValid b g) = true ↔ mask.testBit g = true ∧ OutOfRange b g := by
  rw [← groupValid_iff, Bool.and_eq_true, Bool.not_eq_true']
  exact and_left_comm

theorem firstBadGroup_none : firstBadGroup mask b = none ↔ ∀ g, ¬ (mask.testBit g = true ∧ OutOfRange b g) := by
  unfold firstBadGroup
  rw [List.find?_range_eq_none]
  refine forall_congr' (fun g => ?_)
  rw [← badGroup_iff, Bool.not_eq_true']
  constructor
  · rintro h ⟨below, bad⟩
    rw [h below] at bad
    cases bad
  · exact fun h below => Bool.eq_false_iff.2 (fun bad => h ⟨below, bad⟩)

theorem firstBadGroup_some {g : Nat} : firstBadGroup mask b = some g ↔
    (mask.testBit g = true ∧ OutOfRange b g) ∧ ∀ h, h < g → ¬ (mask.testBit h = true ∧ OutOfRange b h) := by
  unfold firstBadGroup
  rw [List.find?_range_eq_some, List.mem_range, and_left_comm, ← and_assoc, badGroup_iff]
  refine and_congr_right (fun bad => forall_congr' (fun h => forall_congr' (fun below => ?_)))
  have inside : h < groupCount := Nat.lt_trans below (badGroup_iff.2 bad).1
  rw [← badGroup_iff, Bool.not_eq_true', not_and, Bool.not_eq_true]
  exact ⟨fun h _ => h, fun h => h inside⟩

theorem inRange_of_selected {g : Nat} (good : firstBadGroup mask b = none) (selected : mask.testBit g = true) :
    ¬ OutOfRange b g := fun bad => firstBadGroup_none.1 good g ⟨selected, bad⟩

theorem imageFilter_eq (b : List Byte) (k : Fin 4) : (imageFilter b).patterns.get k =
    ⟨decide (leAt b (8 + 24 * k.val) 1 ≠ 0), BitVec.ofNat 16 (leAt b (8 + 24 * k.val + 2) 2),
      BitVec.ofNat 16 (leAt b (8 + 24 * k.val + 4) 2), BitVec.ofNat 48 (leAt b (8 + 24 * k.val + 8) 8),
      BitVec.ofNat 48 (leAt b (8 + 24 * k.val + 16) 8)⟩ := by
  unfold imageFilter
  rw [get_ofFn]
  unfold imagePattern
  dsimp only
  rw [decide_not]
  rfl

/-- The wake interval of a code in range. -/
theorem wakeCode_wakeOfCode {n : Nat} (w : WakeInterval) (h : n ≤ 2) : wakeCode ((wakeOfCode n).getD w) = n := by
  obtain rfl | rfl | rfl : n = 0 ∨ n = 1 ∨ n = 2 := by omega
  all_goals rfl

end image

/-! ## The settings store (R188, R190) -/

theorem originFlags_eq_iff {x y : SettingsStore} : originFlags x = originFlags y ↔
    x.origin = y.origin ∧ x.modified = y.modified ∧ x.storedValid = y.storedValid ∧ x.storing.isSome = y.storing.isSome := by
  unfold originFlags
  simp only [Prod.mk.injEq]

theorem storeAct_on (f : State → State) (s : State) : storeAct (fun a => a.on f) ⟨s, []⟩ =
    ⟨f s, if (f s).store.origin = s.store.origin ∧ (f s).store.modified = s.store.modified ∧
        (f s).store.storedValid = s.store.storedValid ∧ (f s).store.storing.isSome = s.store.storing.isSome
      then [] else [.mirror .origin]⟩ := by
  unfold storeAct
  dsimp only [Act.on]
  by_cases same : originFlags (f s).store = originFlags s.store
  · rw [if_pos same, if_pos (originFlags_eq_iff.1 same)]
  · rw [if_neg same, if_neg (fun h => same (originFlags_eq_iff.2 h))]
    rfl

/-! ## A change of the settings at the units (R188) -/

section units

variable {s : State} {ps : List Post} {p : PortIx} {k : LaneIx}

theorem eachPort_eq (f : Port → Port) (s : State) :
    eachPort f s = { s with ports := allPorts.foldl (fun v p => upd v p f) s.ports } := by
  unfold eachPort
  generalize allPorts = ports
  induction ports generalizing s with
  | nil => rfl
  | cons p ports ih =>
    rw [List.foldl_cons, List.foldl_cons, ih]
    rfl

theorem port_eachPort (f : Port → Port) (s : State) (p : PortIx) : (eachPort f s).port p = f (s.port p) := by
  rw [eachPort_eq]
  refine (get_foldl_upd (fun _ => f) allPorts (by decide) s.ports p).trans (if_pos ?_)
  exact List.mem_finRange p

theorem enableChanged_on : enableChanged p true ⟨s, ps⟩ = (if (s.port p).state = .held then
    ⟨s.modPort p (darkRecord s.now .release), ps ++ portReport p .dark .release⟩ else ⟨s, ps⟩) := by
  show releasePort p ⟨s, ps⟩ = _
  by_cases state : (s.port p).state = .held
  · rw [releasePort_held state, if_pos state]
  · rw [if_neg state]
    exact if_neg state

theorem frameChanged_eq (old : FrameNo) (s : State) (ps : List Post) :
    let lost := allFrames.filter (fun f => (s.route f).isSome)
    let u := allFrames.foldl (fun v f => { v with flood := upd v.flood f (fun _ => ⟨none, none, none⟩) })
      (lost.foldl markUnknown s)
    let cleared (v : State) : State := { v with roster := { v.roster with
      anchor := 0, entries := Vector.replicate 32 ⟨.vacant, 0, none, none⟩, generation := 0, issuer := 0
      refusedLatch := false, heldLatch := false, silenceSince := if v.own ≠ 0 then some v.now else none
      lastHello := none, lastRoll := none } }
    let ceded (v : State) : State := if v.tb.state = .master ∧ v.tb.master = old then
        { v with tb := { v.tb with state := .holdover, master := 0, holdoverSince := some v.now } } else v
    frameChanged old ⟨s, ps⟩ = lost.foldl (fun a f => a.race3 (rosterReachLost f) (timeReachLost f) (streamReachLost f))
      (tbPlain (fun v => retestMaster (ceded v)) (rosterPlain cleared ⟨u, ps⟩)) := by
  intro lost u cleared ceded
  rfl

theorem holdoverChanged_eq (a : Act) : holdoverChanged a = tbPlain (fun v =>
    if v.tb.state = .holdover ∧ v.tb.holdoverSince.any (fun t => t + v.store.working.holdover * 1000000000 ≤ v.now) then
      { v with tb := { v.tb with state := .free, holdoverSince := none, correction := 0, slewResidue := 0 } }
    else v) a := by
  unfold holdoverChanged
  congr 1
  funext v
  cases state : v.tb.state with
  | holdover =>
    cases since : v.tb.holdoverSince with
    | none => simp
    | some t =>
      have limit : holdoverTime v.store.working = v.store.working.holdover * 1000000000 := by
        simp only [holdoverTime, second]
      have reached : (TimeState.holdover = .holdover ∧ (some t).any (fun t =>
          decide (t + v.store.working.holdover * 1000000000 ≤ v.now)) = true) ↔
          t + holdoverTime v.store.working ≤ v.now := by
        rw [limit, Option.any_some, decide_eq_true_eq, and_iff_right rfl]
      by_cases due : t + holdoverTime v.store.working ≤ v.now
      · exact (if_pos due).trans (if_pos (reached.2 due)).symm
      · exact (if_neg due).trans (if_neg (fun h => due (reached.1 h))).symm
  | _ => simp

theorem judgeHold_eq (s : State) (k : LaneIx) : judgeHold s k = if (s.trig.lanes.get k).stage = .asserted ∧
      (s.trig.lanes.get k).holdSince.any (fun t => t + s.store.working.holdLimit * 1000000 ≤ s.now) then
    s.modLane k (fun x => { x with stage := .muted, holdSince := none, unmuteSince := none })
    else s := by
  unfold judgeHold
  cases stage : (s.trig.lanes.get k).stage with
  | asserted =>
    cases since : (s.trig.lanes.get k).holdSince with
    | none => simp
    | some t =>
      have limit : holdTime s.store.working = s.store.working.holdLimit * 1000000 := by
        simp only [holdTime, millisecond]
      have reached : (InputStage.asserted = .asserted ∧ (some t).any (fun t =>
          decide (t + s.store.working.holdLimit * 1000000 ≤ s.now)) = true) ↔
          t + holdTime s.store.working ≤ s.now := by
        rw [limit, Option.any_some, decide_eq_true_eq, and_iff_right rfl]
      by_cases due : t + holdTime s.store.working ≤ s.now
      · exact (if_pos due).trans (if_pos (reached.2 due)).symm
      · exact (if_neg due).trans (if_neg (fun h => due (reached.1 h))).symm
  | _ => simp

theorem modLane_congr {f g : Lane → Lane} (h : f (s.trig.lanes.get k) = g (s.trig.lanes.get k)) :
    s.modLane k f = s.modLane k g := by
  unfold State.modLane
  rw [upd_congr h]

theorem modLane_modLane (f g : Lane → Lane) : (s.modLane k f).modLane k g = s.modLane k (fun x => g (f x)) := by
  show ({ s with trig := { s.trig with lanes := upd (upd s.trig.lanes k f) k g } } : State) = _
  rw [upd_upd]
  rfl

theorem modLane_self (s : State) (k : LaneIx) : s.modLane k (fun _ => s.trig.lanes.get k) = s := by
  have lanes : upd s.trig.lanes k (fun _ => s.trig.lanes.get k) = s.trig.lanes := upd_self rfl
  unfold State.modLane
  rw [lanes]

/-- The lane's record after a change of its settings. -/
def changedLane (now : Nat) (old l : LaneSettings) (x : Lane) : Lane :=
  let idle : Lane := { x with stage := .idle, holdSince := none, unmuteSince := none }
  if l.inputEnable = false then (if old.inputEnable = true then idle else x)
  else if old.inputEnable = true ∧ old.fallingEdge = l.fallingEdge then x
  else if x.inputHigh = !l.fallingEdge then { idle with stage := .asserted, holdSince := some now } else idle

/-- The first half of the change, at the input stage. -/
theorem inputChanged (old : LaneSettings) (s : State) (k : LaneIx) :
    (if (laneSettings s k).inputEnable = false then (if old.inputEnable then idleLane s k else s)
      else if old.inputEnable = false ∨ old.fallingEdge ≠ (laneSettings s k).fallingEdge then readLine (idleLane s k) k
      else s) =
    s.modLane k (fun _ => changedLane s.now old (laneSettings s k) (s.trig.lanes.get k)) := by
  have kept : s = s.modLane k (fun _ => s.trig.lanes.get k) := (modLane_self s k).symm
  unfold changedLane
  by_cases off : (laneSettings s k).inputEnable = false
  · rw [if_pos off]
    simp only [if_pos off]
    by_cases was : old.inputEnable = true
    · rw [if_pos was, if_pos was]
      exact modLane_congr rfl
    · rw [if_neg was, if_neg was]
      exact kept
  · rw [if_neg off]
    simp only [if_neg off]
    by_cases same : old.inputEnable = true ∧ old.fallingEdge = (laneSettings s k).fallingEdge
    · rw [if_neg (by rw [same.1, same.2]; simp), if_pos same]
      exact kept
    · have changed : old.inputEnable = false ∨ old.fallingEdge ≠ (laneSettings s k).fallingEdge := by
        rw [Classical.not_and_iff_not_or_not, Bool.not_eq_true] at same
        exact same
      rw [if_pos changed, if_neg same]
      have line : ((idleLane s k).trig.lanes.get k).inputHigh = (s.trig.lanes.get k).inputHigh := by
        unfold idleLane
        rw [modLane_lanes, get_upd_same]
      have settings : laneSettings (idleLane s k) k = laneSettings s k := rfl
      unfold readLine assertedLevel
      rw [line, settings]
      by_cases high : (s.trig.lanes.get k).inputHigh = !(laneSettings s k).fallingEdge
      · rw [if_pos high, if_pos high]
        refine (modLane_modLane _ _).trans (modLane_congr rfl)
      · rw [if_neg high, if_neg high]
        exact modLane_congr rfl

theorem laneChanged_eq (old : LaneSettings) (k : LaneIx) (s : State) :
    let u := s.modLane k (fun _ => changedLane s.now old (laneSettings s k) (s.trig.lanes.get k))
    laneChanged old k s = if old.outputEnable = true ∧ (laneSettings s k).outputEnable = false then
      { u with trig := { u.trig with
        schedule := s.trig.schedule.filter (fun t => t.lane != k)
        counters := { s.trig.counters with
          outputOff := s.trig.counters.outputOff +
            BitVec.ofNat 32 (s.trig.schedule.filter (fun t => t.lane == k)).length } } } else u := by
  intro u
  unfold laneChanged
  dsimp only
  rw [inputChanged]
  rfl

theorem laneChanged_store (old : LaneSettings) (k : LaneIx) (s : State) : (laneChanged old k s).store = s.store := by
  rw [laneChanged_eq]
  dsimp only
  split <;> rfl

theorem foldl_laneChanged_store (old : Settings) (ks : List LaneIx) (s : State) :
    (ks.foldl (fun v k => laneChanged (old.lanes.get k) k v) s).store = s.store := by
  induction ks generalizing s with
  | nil => rfl
  | cons k ks ih => rw [List.foldl_cons, ih, laneChanged_store]

/-- The lanes changed to `u`, the hold limit judged to `v`. -/
theorem trigSettingsChanged_acts {old : Settings} {u v : State}
    (lanes : allLanes.foldl (fun v k => laneChanged (old.lanes.get k) k v) s = u)
    (limit : (if old.holdLimit ≠ u.store.working.holdLimit then allLanes.foldl judgeHold u else u) = v) :
    trigSettingsChanged old ⟨s, ps⟩ = if mutedLanes v = mutedLanes s then ⟨v, ps⟩ else postTriggers ⟨v, ps⟩ .none := by
  unfold trigSettingsChanged Act.on
  dsimp only
  rw [lanes]
  by_cases limits : old.holdLimit ≠ u.store.working.holdLimit
  · rw [if_pos limits] at limit
    simp only [if_pos limits, limit]
  · rw [if_neg limits] at limit
    subst limit
    simp only [if_neg limits]

theorem trigSettingsChanged_eq (old : Settings) (s : State) (ps : List Post) :
    let limit := s.store.working.holdLimit
    let u := allLanes.foldl (fun v k => laneChanged (old.lanes.get k) k v) s
    let v := if old.holdLimit ≠ limit then allLanes.foldl (fun v k =>
        if (v.trig.lanes.get k).stage = .asserted ∧
            (v.trig.lanes.get k).holdSince.any (fun t => t + v.store.working.holdLimit * 1000000 ≤ v.now) then
          v.modLane k (fun x => { x with stage := .muted, holdSince := none, unmuteSince := none })
        else v) u else u
    trigSettingsChanged old ⟨s, ps⟩ = ⟨v, if mutedLanes v = mutedLanes s then ps
      else ps ++ [.notice (.triggers 0 (mutedLanes v) 0 0 0 0 0)]⟩ := by
  intro limit u v
  have judged : (fun (v : State) k => if (v.trig.lanes.get k).stage = .asserted ∧
            (v.trig.lanes.get k).holdSince.any (fun t => t + v.store.working.holdLimit * 1000000 ≤ v.now) then
          v.modLane k (fun x => { x with stage := .muted, holdSince := none, unmuteSince := none })
        else v) = judgeHold := by
    funext v k
    rw [judgeHold_eq]
  have v_eq : v = if old.holdLimit ≠ limit then allLanes.foldl judgeHold u else u := by
    rw [← judged]
  have limit_u : u.store.working.holdLimit = limit := by
    show ((allLanes.foldl (fun v k => laneChanged (old.lanes.get k) k v) s).store.working).holdLimit = _
    rw [foldl_laneChanged_store]
  rw [← limit_u] at v_eq
  rw [trigSettingsChanged_acts rfl v_eq.symm]
  split <;> rfl

end units

/-! ## The orders (R187, R188, R76) -/

section orders

variable {s : State} {o : Order} {mask : Nat} {b : List Byte}

theorem frameInUse_iff : frameInUse s mask b = true ↔ mask.testBit 0 = true ∧ imageFrame b ≠ s.own.val ∧
    (s.roster.standing = .member ∨ s.roster.standing = .leaving) := by
  simp only [frameInUse, Bool.and_eq_true, Bool.or_eq_true, decide_eq_true_eq, beq_iff_eq, and_assoc]

theorem filterFlagsOk_iff : filterFlagsOk b = true ↔ imageArmed b ≤ 1 ∧ ∀ k : Fin 4, imagePatternEnable b k ≤ 1 := by
  have every (k : Fin 4) : k ∈ allPorts := List.mem_finRange k
  simp only [filterFlagsOk, Bool.and_eq_true, decide_eq_true_eq, List.all_eq_true]
  exact and_congr_right (fun _ => ⟨fun h k => h k (every k), fun h k _ => h k⟩)

section read

variable (inside : ¬ 2 ^ 28 ≤ settingsMask o) (selected : settingsMask o ≠ 0) (pointer : settingsPointer o ≠ 0)

include inside selected pointer

theorem settingsOrder_fault {x : Nat} (fault : firstFault s.mem.readFaults (settingsPointer o) 144 = some x) :
    settingsOrder ⟨s, []⟩ o = (complete ⟨s, []⟩ o.sequence .memoryFault).post (faultPost .parameterRead x) := by
  have read : memRead s.mem (settingsPointer o) settingsImageSize = .error x := memRead_error fault
  unfold settingsOrder
  dsimp only
  rw [if_neg (show ¬ 2 ^ groupCount ≤ settingsMask o from inside), if_neg selected, if_neg pointer, read] <;> rfl

theorem settingsOrder_read (readable : Readable s.mem (settingsPointer o) 144) : settingsOrder ⟨s, []⟩ o =
    judgeImage ⟨s, []⟩ o (settingsMask o) (bytesIn s.mem (settingsPointer o) 144) := by
  have read : memRead s.mem (settingsPointer o) settingsImageSize = .ok (bytesIn s.mem (settingsPointer o) 144) :=
    memRead_bytesIn readable
  unfold settingsOrder
  dsimp only
  rw [if_neg (show ¬ 2 ^ groupCount ≤ settingsMask o from inside), if_neg selected, if_neg pointer, read] <;> rfl

end read

theorem filterOrder_fault {x : Nat} (pointer : filterPointer o ≠ 0)
    (fault : firstFault s.mem.readFaults (filterPointer o) 104 = some x) :
    filterOrder ⟨s, []⟩ o = (complete ⟨s, []⟩ o.sequence .memoryFault).post (faultPost .parameterRead x) := by
  have read : memRead s.mem (filterPointer o) filterImageSize = .error x := memRead_error fault
  unfold filterOrder
  dsimp only
  rw [if_neg pointer, read] <;> rfl

theorem filterOrder_read (pointer : filterPointer o ≠ 0) (readable : Readable s.mem (filterPointer o) 104) :
    let b := bytesIn s.mem (filterPointer o) 104
    filterOrder ⟨s, []⟩ o = if filterFlagsOk b = false then badOrder ⟨s, []⟩ o 0 else
      complete (storeAct (fun a => a.on (·.modStore (fun x =>
        setWorking { x.working with filter := imageFilter b } x))) ⟨s, []⟩) o.sequence .done := by
  intro b
  have read : memRead s.mem (filterPointer o) filterImageSize = .ok b := memRead_bytesIn readable
  unfold filterOrder
  dsimp only
  rw [if_neg pointer, read] <;> rfl

end orders

/-- The image's values are put in the place of the selected groups, each in its range. -/
theorem applyImage_spec (mask : Nat) (b : List Byte) (w : Settings) (good : firstBadGroup mask b = none) :
    let t := applyImage mask b w
    t.filter = w.filter ∧
    t.frame.val = (if mask.testBit 0 then imageFrame b else w.frame.val) ∧
    t.anchorRank.val = (if mask.testBit 1 then imageAnchorRank b else w.anchorRank.val) ∧
    t.timeRank.val = (if mask.testBit 2 then imageTimeRank b else w.timeRank.val) ∧
    (∀ p : PortIx, t.enable.get p = if mask.testBit (3 + p.val) then imageEnable b p else w.enable.get p) ∧
    wakeCode t.wake = (if mask.testBit 7 then imageWake b else wakeCode w.wake) ∧
    t.threshold = (if mask.testBit 8 then imageThreshold b else w.threshold) ∧
    t.window = (if mask.testBit 9 then imageWindow b else w.window) ∧
    t.holdover = (if mask.testBit 10 then imageHoldover b else w.holdover) ∧
    t.holdLimit = (if mask.testBit 11 then imageHoldLimit b else w.holdLimit) ∧
    (∀ k : LaneIx, t.lanes.get k = if mask.testBit (12 + k.val) then imageLane b k else w.lanes.get k) := by
  intro t
  refine ⟨rfl, ?_, ?_, ?_, fun p => get_ofFn .., ?_, rfl, rfl, rfl, rfl, fun k => get_ofFn ..⟩
  · show (if mask.testBit 0 then frameOf (imageFrame b) else w.frame).val = _
    by_cases selected : mask.testBit 0 = true
    · have small : imageFrame b ≤ 31 := Nat.not_lt.1 (fun h => inRange_of_selected good selected (.inl ⟨rfl, h⟩))
      rw [if_pos selected, if_pos selected]
      exact Nat.mod_eq_of_lt (by omega)
    · rw [if_neg selected, if_neg selected]
  · show (if mask.testBit 1 then rankOf (imageAnchorRank b) else w.anchorRank).val = _
    by_cases selected : mask.testBit 1 = true
    · have small : imageAnchorRank b ≤ 15 := Nat.not_lt.1 (fun h => inRange_of_selected good selected (.inr (.inl ⟨rfl, h⟩)))
      rw [if_pos selected, if_pos selected]
      exact Nat.mod_eq_of_lt (by omega)
    · rw [if_neg selected, if_neg selected]
  · show (if mask.testBit 2 then rankOf (imageTimeRank b) else w.timeRank).val = _
    by_cases selected : mask.testBit 2 = true
    · have small : imageTimeRank b ≤ 15 :=
        Nat.not_lt.1 (fun h => inRange_of_selected good selected (.inr (.inr (.inl ⟨rfl, h⟩))))
      rw [if_pos selected, if_pos selected]
      exact Nat.mod_eq_of_lt (by omega)
    · rw [if_neg selected, if_neg selected]
  · show wakeCode (if mask.testBit 7 then (wakeOfCode (imageWake b)).getD w.wake else w.wake) = _
    by_cases selected : mask.testBit 7 = true
    · have small : imageWake b ≤ 2 :=
        Nat.not_lt.1 (fun h => inRange_of_selected good selected (.inr (.inr (.inr (.inl ⟨rfl, h⟩)))))
      rw [if_pos selected, if_pos selected]
      exact wakeCode_wakeOfCode w.wake small
    · rw [if_neg selected, if_neg selected]

theorem enableChanged_off (p : PortIx) (s : State) (ps : List Post) :
    let idle (r : Port) : Port := { r with
      state := .held, cause := .hold, noiseSince := none, quietSince := none, trainingSince := none, lastProbe := none }
    enableChanged p false ⟨s, ps⟩ = match (s.port p).state with
      | .held | .faulted => ⟨s, ps⟩
      | .dark | .lockout => ⟨s.modPort p idle, ps ++ portReport p .held .hold⟩
      | .training => ⟨(s.modPort p idle).modLink p (fun l => { l with line := none }), ps ++ portReport p .held .hold⟩
      | .up => portLossEvent p ⟨s.modPort p (fun r => idle (leftUp r)), ps ++ portReport p .held .hold⟩ := by
  intro idle
  refine (holdPort_eq s ps p).trans ?_
  cases (s.port p).state <;> rfl

theorem takeChanges_eq (old : Settings) (s : State) (ps : List Post) :
    let w := s.store.working
    let a : Act := ⟨s, ps⟩
    let a := if w.frame ≠ old.frame then frameChanged old.frame a else a
    let a := if w.anchorRank ≠ old.anchorRank then rosterPlain (fun v => selfAnchor (retestAnchor v)) a else a
    let a := if w.timeRank ≠ old.timeRank then tbPlain retestMaster a else a
    let a := (allPorts.filter (fun p => w.enable.get p != old.enable.get p)).foldl
      (fun a p => enableChanged p (w.enable.get p) a) a
    let a := if w.wake ≠ old.wake then ⟨eachPort (fun r =>
        if r.state = .dark ∧ r.lastBurst + wakeTime w.wake ≤ a.s.now then
          { r with bursts := r.bursts + 1, lastBurst := a.s.now } else r) a.s, a.posts⟩ else a
    let a := if w.threshold ≠ old.threshold then ⟨eachPort (fun r =>
        if r.state = .up then { r with health := min r.health w.threshold } else r) a.s, a.posts⟩ else a
    let a := if w.holdover ≠ old.holdover then holdoverChanged a else a
    takeChanges old ⟨s, ps⟩ =
      if w.lanes ≠ old.lanes ∨ w.holdLimit ≠ old.holdLimit then trigSettingsChanged old a else a := rfl

/-- Settles O41. -/
theorem settingsOrders : Obligations.SettingsOrders := by
  unfold Obligations.SettingsOrders
  refine ⟨fun b => ⟨rfl, rfl, rfl, fun p => rfl, rfl, rfl, rfl, rfl, rfl, fun k => rfl, rfl, fun k => rfl, ?_, rfl,
    fun k => imageFilter_eq b k⟩, rfl, fun s o oldest => ?_, fun mask b => ⟨firstBadGroup_none, fun g => firstBadGroup_some⟩,
    applyImage_spec, fun s o oldest => ?_, takeChanges_eq, frameChanged_eq,
    fun s f => ⟨by rw [eachPort_eq], port_eachPort f s⟩,
    fun p s ps => ⟨enableChanged_on, enableChanged_off p s ps⟩, holdoverChanged_eq, trigSettingsChanged_eq,
    fun old k s => ?_, fun w x => rfl, storeAct_on⟩
  · rw [decide_not]
    rfl
  · have ends {a : Act} (act : settingsOrder ⟨s, []⟩ o = a) : Ends .setSettings s a := ends_order rfl oldest act
    intro mask ad b
    refine ⟨fun beyond => ends (if_pos beyond), fun none => ends ?_, fun some_group inside => ?_⟩
    · show settingsOrder ⟨s, []⟩ o = _
      unfold settingsOrder
      dsimp only
      rw [if_neg (by rw [show settingsMask o = 0 from none]; decide), if_pos none] <;> rfl
    · have inside : ¬ 2 ^ 28 ≤ settingsMask o := Nat.not_le.2 inside
      have reach : ¬ 2 ^ groupCount ≤ settingsMask o := inside
      refine ⟨fun null => ends ?_, fun x pointer fault => ends (settingsOrder_fault inside some_group pointer fault),
        fun pointer readable => ?_⟩
      · unfold settingsOrder
        dsimp only
        rw [if_neg reach, if_neg some_group, if_pos null] <;> rfl
      · have read := settingsOrder_read inside some_group pointer readable
        refine ⟨fun g bad => ends (read.trans ?_), fun good => ⟨fun used => ends (read.trans ?_),
          fun free => ends (read.trans ?_)⟩⟩
        · unfold judgeImage
          rw [bad]
        · unfold judgeImage
          rw [good]
          exact if_pos (frameInUse_iff.2 used)
        · unfold judgeImage
          rw [good]
          exact if_neg (fun used => free (frameInUse_iff.1 used))
  · have ends {a : Act} (act : filterOrder ⟨s, []⟩ o = a) : Ends .setFilter s a := ends_order rfl oldest act
    intro ad b w
    refine ⟨fun null => ends (if_pos null), fun x pointer fault => ends (filterOrder_fault pointer fault),
      fun pointer readable => ?_⟩
    have read := filterOrder_read pointer readable
    by_cases flags : imageArmed b ≤ 1 ∧ ∀ k : Fin 4, imagePatternEnable b k ≤ 1
    · rw [if_pos flags]
      have fine : ¬ filterFlagsOk b = false := by rw [filterFlagsOk_iff.2 flags]; decide
      exact ends (read.trans (if_neg fine))
    · rw [if_neg flags]
      have wrong : filterFlagsOk b = false := Bool.eq_false_iff.2 (fun h => flags (filterFlagsOk_iff.1 h))
      exact ends (read.trans (if_pos wrong))
  · intro l x idle y u n
    have lanes := laneChanged_eq old k s
    refine ⟨fun on => lanes.trans (if_neg on), fun was off => lanes.trans (if_pos ⟨was, off⟩)⟩

end Sys2Proof.SettingsActs

/-! SUPPORT. The trigger unit: insertion into the Trigger Schedule (R109), the triggers this part makes (R105, R114, R115),
TRIG cells (R108), firing (R110) and the lane inputs (R104, R106). -/

namespace Sys2Proof.TriggerActs

open Sys2Proof Sys2Proof.Machine Sys2Proof.Statements Sys2Proof.OrderWindow Sys2Proof.PortUnits Sys2Proof.PortCells
  Sys2Proof.ReceivedCells Sys2Proof.RosterCells Sys2Proof.SettingsActs Sys2Proof.ReadState

/-! ## The Trigger Schedule (R109) -/

section schedule

variable {s v : State} {ps : List Post} {t : Trigger}

/-- One entry comes before another by fire time, then by lane. -/
def Before (x y : Trigger) : Prop :=
  x.fireTime.toNat < y.fireTime.toNat ∨ x.fireTime = y.fireTime ∧ x.lane < y.lane

theorem triggerBefore_iff (x y : Trigger) : triggerBefore x y = true ↔ Before x y := by
  simp only [triggerBefore, Before, Bool.or_eq_true, Bool.and_eq_true, decide_eq_true_eq, beq_iff_eq, Fin.lt_def]

theorem mem_insertAt (t : Trigger) (xs : List Trigger) (x : Trigger) : x ∈ insertAt t xs ↔ x = t ∨ x ∈ xs := by
  induction xs with
  | nil => simp [insertAt]
  | cons y ys ih =>
    unfold insertAt
    split
    · simp
    · simp only [List.mem_cons, ih]
      exact or_left_comm

theorem before_trans {x y z : Trigger} (hxy : Before x y) (hyz : Before y z) : Before x z := by
  unfold Before at *
  rcases hxy with h | ⟨time, lane⟩ <;> rcases hyz with h' | ⟨time', lane'⟩
  · exact .inl (Nat.lt_trans h h')
  · exact .inl (time' ▸ h)
  · exact .inl (time ▸ h')
  · exact .inr ⟨time.trans time', Nat.lt_trans lane lane'⟩

/-- Two entries that differ in lane or fire time stand in one order or the other. -/
theorem before_of_not_before {x t : Trigger} (differ : ¬ (x.lane = t.lane ∧ x.fireTime = t.fireTime))
    (h : ¬ Before t x) : Before x t := by
  unfold Before at *
  rw [not_or, not_and] at h
  obtain ⟨notEarlier, notLane⟩ := h
  by_cases time : x.fireTime = t.fireTime
  · have other : x.lane ≠ t.lane := fun lane => differ ⟨lane, time⟩
    exact .inr ⟨time, Nat.lt_of_le_of_ne (Nat.not_lt.1 (notLane time.symm)) (fun lane => other (Fin.ext lane))⟩
  · have other : x.fireTime.toNat ≠ t.fireTime.toNat := fun e => time (BitVec.eq_of_toNat_eq e)
    exact .inl (by omega)

theorem pairwise_insertAt {t : Trigger} {xs : List Trigger} (sorted : xs.Pairwise Before)
    (differ : ∀ x ∈ xs, ¬ (x.lane = t.lane ∧ x.fireTime = t.fireTime)) : (insertAt t xs).Pairwise Before := by
  induction xs with
  | nil => exact List.pairwise_singleton ..
  | cons y ys ih =>
    obtain ⟨first, rest⟩ := List.pairwise_cons.1 sorted
    unfold insertAt
    by_cases before : triggerBefore t y = true
    · rw [if_pos before]
      have ahead := (triggerBefore_iff t y).1 before
      refine List.pairwise_cons.2 ⟨fun x hx => ?_, sorted⟩
      rcases List.mem_cons.1 hx with rfl | later
      · exact ahead
      · exact before_trans ahead (first x later)
    · rw [if_neg before]
      refine List.pairwise_cons.2 ⟨fun x hx => ?_, ih rest (fun x hx => differ x (List.mem_cons_of_mem _ hx))⟩
      rcases (mem_insertAt t ys x).1 hx with rfl | later
      · exact before_of_not_before (differ y List.mem_cons_self) (fun h => before ((triggerBefore_iff _ _).2 h))
      · exact first x later

/-- What an insertion is judged by. -/
theorem judgeInsertion_congr (store : v.store = s.store) (tb : v.tb = s.tb) (schedule : v.trig.schedule = s.trig.schedule)
    (t : Trigger) : judgeInsertion v t = judgeInsertion s t := by
  unfold judgeInsertion laneSettings reached
  rw [store, tb, schedule]

theorem twin_iff : s.trig.schedule.any (fun x => x.lane == t.lane && x.fireTime == t.fireTime) = true ↔
    ∃ x ∈ s.trig.schedule, x.lane = t.lane ∧ x.fireTime = t.fireTime := by
  simp only [List.any_eq_true, Bool.and_eq_true, beq_iff_eq]

/-- A Schedule counter changed. -/
def counted (g : TriggerCounters → TriggerCounters) (v : State) : State :=
  { v with trig := { v.trig with counters := g v.trig.counters } }

/-- A state after an insertion, by what the insertion comes to. -/
def inserted (t : Trigger) (v : State) : Insertion → State
  | .scheduled => { v with trig := { v.trig with schedule := insertAt t v.trig.schedule } }
  | .merged => counted (fun c => { c with merged := c.merged + 1 }) v
  | .late => counted (fun c => { c with late := c.late + 1 }) v
  | .dropped => counted (fun c => { c with dropped := c.dropped + 1 }) v
  | .outputOff => counted (fun c => { c with outputOff := c.outputOff + 1 }) v

theorem insertTrigger_eq (v : State) (ps : List Post) (t : Trigger) :
    insertTrigger ⟨v, ps⟩ t = ⟨inserted t v (judgeInsertion v t), ps⟩ := by
  unfold insertTrigger
  dsimp only
  cases judgeInsertion v t <;> rfl

theorem inserted_lanes (t : Trigger) (v : State) (j : Insertion) : (inserted t v j).trig.lanes = v.trig.lanes := by
  cases j <;> rfl

theorem inserted_sequence (t : Trigger) (v : State) (j : Insertion) : (inserted t v j).trig.sequence = v.trig.sequence := by
  cases j <;> rfl

theorem inserted_schedule (t : Trigger) (v : State) (j : Insertion) : (inserted t v j).trig.schedule =
    if j = .scheduled then insertAt t v.trig.schedule else v.trig.schedule := by
  cases j <;> rfl

theorem mutedLanes_congr (lanes : v.trig.lanes = s.trig.lanes) : mutedLanes v = mutedLanes s := by
  unfold mutedLanes
  rw [lanes]

/-- The notice of a report, where it has something to tell. -/
def reportPosts (muted : BitVec 16) (r : TrigReport) : List Post :=
  if r = .none then [] else [.notice (.triggers r.fired muted (BitVec.ofNat 8 r.quality) (BitVec.ofNat 32 r.late)
    (BitVec.ofNat 32 r.dropped) (BitVec.ofNat 32 r.localOnly) (BitVec.ofNat 32 r.merged))]

theorem reportTriggers_eq (v : State) (ps : List Post) (r : TrigReport) :
    reportTriggers ⟨v, ps⟩ r = ⟨v, ps ++ reportPosts (mutedLanes v) r⟩ := by
  unfold reportTriggers reportPosts
  by_cases nothing : r = .none
  · rw [if_pos nothing, if_pos nothing, List.append_nil]
  · rw [if_neg nothing, if_neg nothing] <;> rfl

/-- The notice of an insertion of a trigger that is counted LOCAL_ONLY or not. -/
def insertionPosts (muted : BitVec 16) (alone : Bool) (j : Insertion) : List Post :=
  reportPosts muted (insertionReport { TrigReport.none with localOnly := if alone then 1 else 0 } j)

end schedule

/-! ## Triggers of this part's making (R105, R107) -/

section make

variable (s : State) (ps : List Post) (k : LaneIx) (fire : Time)

/-- The state a trigger is inserted into: its sequence taken, its TRIG offered to the rack or the trigger counted
LOCAL_ONLY. -/
def announced (floods : Bool) : State :=
  let t := ownTrigger s k fire
  let u : State := { s with trig := { s.trig with sequence := s.trig.sequence + 1 } }
  if floods then s.upPorts.foldl (fun v p => offer v p ⟨ownCell s .trig 63
      (trigPayload k t.quality.toNat t.sequence fire) t.sequence, none⟩) u
  else counted (fun c => { c with localOnly := c.localOnly + 1 }) u

/-- The offers of the TRIG change the queues only. -/
theorem announced_frame (floods : Bool) : ∃ c, { announced s k fire floods with links := s.links } =
    { s with trig := { s.trig with sequence := s.trig.sequence + 1, counters := c } } := by
  unfold announced
  cases floods with
  | true => exact ⟨s.trig.counters, foldl_offer_frame id _ _ _⟩
  | false => exact ⟨_, rfl⟩

theorem announced_trig (floods : Bool) : (announced s k fire floods).store = s.store ∧
    (announced s k fire floods).tb = s.tb ∧ (announced s k fire floods).trig.schedule = s.trig.schedule ∧
    (announced s k fire floods).trig.lanes = s.trig.lanes ∧
    (announced s k fire floods).trig.sequence = s.trig.sequence + 1 := by
  obtain ⟨c, frame⟩ := announced_frame s k fire floods
  generalize announced s k fire floods = v at frame ⊢
  exact ⟨(congrArg State.store frame :), (congrArg State.tb frame :),
    (congrArg (fun v : State => v.trig.schedule) frame :), (congrArg (fun v : State => v.trig.lanes) frame :),
    (congrArg (fun v : State => v.trig.sequence) frame :)⟩

theorem makeTrigger_eq (floods : Bool) :
    let t := ownTrigger s k fire
    let j := judgeInsertion s t
    makeTrigger ⟨s, ps⟩ k fire floods =
      ⟨inserted t (announced s k fire floods) j, ps ++ insertionPosts (mutedLanes s) (!floods) j⟩ := by
  intro t j
  obtain ⟨store, tb, schedule, lanes, -⟩ := announced_trig s k fire floods
  have judged : judgeInsertion (announced s k fire floods) t = j := judgeInsertion_congr store tb schedule t
  have made : makeTrigger ⟨s, ps⟩ k fire floods = reportTriggers (insertTrigger ⟨announced s k fire floods, ps⟩ t)
      (insertionReport { TrigReport.none with localOnly := if (!floods) then 1 else 0 }
        (judgeInsertion (announced s k fire floods) t)) := by
    cases floods <;> rfl
  rw [made, insertTrigger_eq, judged, reportTriggers_eq, mutedLanes_congr ((inserted_lanes t _ j).trans lanes)] <;> rfl

end make

/-! ## The orders (R114, R115) -/

section orders

variable {s : State} {o : Order}

theorem noSync_iff : noSync s = true ↔ s.tb.state = .free ∨ s.tb.state = .acquiring := by
  simp only [noSync, Bool.or_eq_true, beq_iff_eq]

theorem toNat_scheduleTime (o : Order) : (BitVec.ofNat 64 (scheduleTime o)).toNat = scheduleTime o := by
  have below : scheduleTime o < 256 ^ 8 := leAt_lt _ _ _
  exact Nat.mod_eq_of_lt (by omega)

theorem laneOf_scheduleLane {k : LaneIx} (lane : scheduleLane o = k.val) : laneOf (scheduleLane o) = k := by
  rw [lane]
  exact Fin.ext (Nat.mod_eq_of_lt k.isLt)

end orders

/-- Settles O43: the orders by the cases of R109 in `judgeInsertion`, the Schedule by induction on it. -/
theorem triggerOrdersAndInsertion : Obligations.TriggerOrdersAndInsertion := by
  unfold Obligations.TriggerOrdersAndInsertion
  refine ⟨⟨fun s o oldest => ?schedule, fun s o oldest => ?cancel⟩, fun s t => ?judge,
    fun t xs => ⟨mem_insertAt t xs, pairwise_insertAt⟩, rfl⟩
  case schedule =>
    have ends {a : Act} (act : scheduleOrder ⟨s, []⟩ o = a) : Ends .scheduleTrigger s a := ends_order rfl oldest act
    refine ⟨fun outside => ends (if_pos outside), fun k lane => ?_⟩
    intro fire lead free t
    have inside : ¬ 15 < scheduleLane o := by omega
    have theLane := laneOf_scheduleLane lane
    have lead_eq : leadTime (laneSettings s k) = lead := by
      unfold leadTime
      rfl
    have time : fire.toNat = scheduleTime o := toNat_scheduleTime o
    refine ⟨fun h => ends ?_, fun h soon => ends ?_, fun h far => ⟨ends ?_, ?_, fun judged => ?_, fun judged => ?_⟩⟩
    · unfold scheduleOrder
      dsimp only
      rw [if_neg inside, if_pos (noSync_iff.2 h)]
    · unfold scheduleOrder
      dsimp only
      rw [if_neg inside, if_neg (fun h' => h (noSync_iff.1 h')), theLane, lead_eq, if_pos (time.symm ▸ soon)]
    · have onTime : ¬ fire.toNat < s.tb.rackTime.toNat + lead := by omega
      unfold scheduleOrder
      dsimp only
      rw [if_neg inside, if_neg (fun h' => h (noSync_iff.1 h')), theLane, lead_eq, if_neg onTime] <;> rfl
    · rw [makeTrigger_eq]
      exact (inserted_sequence ..).trans (announced_trig s k fire _).2.2.2.2
    · rw [makeTrigger_eq]
      obtain ⟨-, -, schedule, -, -⟩ := announced_trig s k fire (s.own != 0)
      exact (inserted_schedule ..).trans ((if_pos judged).trans (by rw [schedule] <;> rfl))
    · rw [makeTrigger_eq]
      obtain ⟨-, -, schedule, -, -⟩ := announced_trig s k fire (s.own != 0)
      exact (inserted_schedule ..).trans ((if_neg judged).trans schedule)
  case cancel =>
    intro own
    have ends {a : Act} (act : cancelOrder ⟨s, []⟩ o = a) : Ends .cancelTrigger s a := ends_order rfl oldest act
    by_cases held : s.trig.schedule.any own = true
    · rw [if_pos held]
      exact ends (if_pos held)
    · rw [if_neg held]
      exact ends (if_neg held)
  case judge =>
    intro off twin past
    have twin_iff : _ ↔ twin := twin_iff
    have past_iff : reached s t.fireTime = true ↔ past := decide_eq_true_iff
    have capacity : scheduleCapacity = 32 := rfl
    unfold judgeInsertion
    refine ⟨fun h => if_pos h, fun h₁ h₂ => ?_, fun h₁ h₂ h₃ => ?_, fun h₁ h₂ h₃ => ⟨fun full => ?_, fun room => ?_⟩⟩
    · rw [if_neg (c := (laneSettings s t.lane).outputEnable = false) h₁, if_pos (twin_iff.2 h₂)]
    · rw [if_neg (c := (laneSettings s t.lane).outputEnable = false) h₁, if_neg (fun h => h₂ (twin_iff.1 h)),
        if_pos (past_iff.2 h₃)]
    · rw [if_neg (c := (laneSettings s t.lane).outputEnable = false) h₁, if_neg (fun h => h₂ (twin_iff.1 h)),
        if_neg (fun h => h₃ (past_iff.1 h)), if_pos (by omega)]
    · rw [if_neg (c := (laneSettings s t.lane).outputEnable = false) h₁, if_neg (fun h => h₂ (twin_iff.1 h)),
        if_neg (fun h => h₃ (past_iff.1 h)), if_neg (by omega)]

end Sys2Proof.TriggerActs

/-! SUPPORT. TRIG cells (R108), firing (R110) and the lane inputs (R104, R106). -/

namespace Sys2Proof.LaneActs

open Sys2Proof Sys2Proof.Machine Sys2Proof.Statements Sys2Proof.PortUnits Sys2Proof.PortQueues Sys2Proof.PortCells
  Sys2Proof.ReceivedCells Sys2Proof.RosterCells Sys2Proof.SettingsActs Sys2Proof.TriggerActs

/-! ## TRIG cells (R108) -/

section cells

variable {rx : Rx} {s u : State} {k : LaneIx}

/-- The form of a TRIG for a lane. -/
def Fits (rx : Rx) (k : LaneIx) : Prop :=
  rx.payload.length = 12 ∧ beAt rx.payload 0 1 = k.val ∧ beAt rx.payload 2 2 = rx.floodSeq.toNat

theorem takeTrig_ignored (member : (u.entry rx.origin).state ≠ .member) : takeTrig rx ⟨u, []⟩ =
    ⟨counted (fun c => { c with trigIgnored := c.trigIgnored + 1 }) u, []⟩ := if_pos member

theorem takeTrig_malformed (member : (u.entry rx.origin).state = .member) (none_fits : ∀ k, ¬ Fits rx k) :
    takeTrig rx ⟨u, []⟩ = ⟨counted (fun c => { c with trigMalformed := c.trigMalformed + 1 }) u, []⟩ := by
  have unfit : ¬ (rx.payload.length = 12 ∧ beAt rx.payload 0 1 < 16 ∧ beAt rx.payload 2 2 = rx.floodSeq.toNat) :=
    fun ⟨length, lane, sequence⟩ => none_fits ⟨_, lane⟩ ⟨length, rfl, sequence⟩
  unfold takeTrig
  dsimp only
  rw [if_neg (fun h => h member), dif_neg unfit] <;> rfl

/-- A TRIG of a member that fits a lane. -/
theorem takeTrig_fits (member : (u.entry rx.origin).state = .member) (fits : Fits rx k) :
    takeTrig rx ⟨u, []⟩ = if (laneSettings u k).outputEnable = false then
        ⟨counted (fun c => { c with outputOff := c.outputOff + 1 }) u, []⟩
      else
        let t : Trigger :=
          { lane := k, fireTime := BitVec.ofNat 64 (beAt rx.payload 4 8), origin := rx.origin, sequence := rx.floodSeq
            quality := BitVec.ofNat 8 (beAt rx.payload 1 1) }
        ⟨inserted t u (judgeInsertion u t), insertionPosts (mutedLanes u) false (judgeInsertion u t)⟩ := by
  obtain ⟨length, lane, sequence⟩ := fits
  have below : beAt rx.payload 0 1 < 16 := lane ▸ k.isLt
  have theLane : (⟨beAt rx.payload 0 1, below⟩ : LaneIx) = k := Fin.ext lane
  unfold takeTrig
  dsimp only
  rw [if_neg (fun h => h member), dif_pos ⟨length, below, sequence⟩, theLane]
  by_cases off : (laneSettings u k).outputEnable = false
  · rw [if_pos off, if_pos off] <;> rfl
  · rw [if_neg off, if_neg off, insertTrigger_eq]
    refine (reportTriggers_eq ..).trans ?_
    rw [mutedLanes_congr (inserted_lanes ..)] <;> rfl

end cells

/-! ## Firing (R110) -/

section firing

variable {s : State}

theorem advanceToRack_advance (s : State) (t : Time) : advanceToRack s t = s ∨ ∃ d, advanceToRack s t = advance s d := by
  unfold advanceToRack
  split
  · exact .inl rfl
  · exact .inr ⟨_, rfl⟩

theorem advanceToRack_trig (s : State) (t : Time) : (advanceToRack s t).trig = s.trig := by
  rcases advanceToRack_advance s t with still | ⟨d, moved⟩
  · rw [still]
  · rw [moved] <;> rfl

/-- With no correction rack time advances by as much as the clock, so that it comes to the moment exactly. -/
theorem reached_advanceToRack {t : Time} (steady : s.tb.correction = 0) :
    t.toNat ≤ (advanceToRack s t).tb.rackTime.toNat := by
  by_cases there : reached s t = true
  · rw [show advanceToRack s t = s from if_pos there]
    exact of_decide_eq_true there
  · have ahead : s.tb.rackTime.toNat < t.toNat := Nat.not_le.1 (fun h => there (decide_eq_true h))
    have delay (r n : Nat) : rackDelay 0 r n = n := by
      unfold rackDelay
      exact if_pos (.inl rfl)
    have part (n : Nat) : slewPart 0 n = 0 := by
      unfold slewPart
      split <;> omega
    have moved : advanceToRack s t = advance s (t.toNat - s.tb.rackTime.toNat) := by
      refine (if_neg there).trans ?_
      rw [steady, delay]
    have time : (advance s (t.toNat - s.tb.rackTime.toNat)).tb.rackTime =
        s.tb.rackTime + BitVec.ofNat 64 (t.toNat - s.tb.rackTime.toNat) := by
      unfold advance
      dsimp only
      rw [steady, part]
      simp
    rw [moved, time]
    have := t.isLt
    bv_omega

theorem fireReached_due {u : State} (some_due : u.trig.schedule.filter (fun x => reached u x.fireTime) ≠ []) :
    let due := u.trig.schedule.filter (fun x => reached u x.fireTime)
    let v : State := { u with trig := { u.trig with schedule := u.trig.schedule.filter (fun x => !reached u x.fireTime) } }
    let a := due.foldl fireOne ⟨v, []⟩
    fireReached ⟨u, []⟩ = a.post (.notice (.triggers (due.foldl (fun b x => b ||| bit 16 x.lane.val) 0)
        (mutedLanes a.s) (BitVec.ofNat 8 (quality a.s)) 0 0 0 0)) := by
  intro due v a
  have notEmpty : ¬ due.isEmpty = true := by rwa [List.isEmpty_iff]
  unfold fireReached
  dsimp only
  rw [if_neg notEmpty] <;> rfl

theorem fireOne_eq (s : State) (ps : List Post) (t : Trigger) :
    let e := s.now + (s.store.working.lanes.get t.lane).width * 1000
    let v := s.modLane t.lane (fun x => { x with pulseEnd := some (match x.pulseEnd with | some y => max y e | none => e) })
    fireOne ⟨s, ps⟩ t = streamFiring t.lane t.fireTime
      ⟨{ v with trig := { v.trig with counters := { v.trig.counters with fired := v.trig.counters.fired + 1 } } }, ps⟩ := by
  intro e v
  have pulse : s.modLane t.lane (pulseLane s.now (laneSettings s t.lane).width) = v := by
    refine modLane_congr ?_
    unfold pulseLane microsecond
    rfl
  rw [← pulse]
  rfl

theorem streamFiring_eq (k : LaneIx) (t : Time) (a : Act) : streamFiring k t a = allSlots.foldl (fun a n =>
    let x := a.s.slot n
    if x.state = .armed ∧ x.gate = .onLane k ∧ x.gateOpen = false then
      settle ⟨setSlot a.s n { x with gateOpen := true, startTime := t, nextPace := 0 }, a.posts⟩ n .gate
    else a) a := by
  have slot_eq (s : State) (n : SlotIx) : s.modSlot n (openGate t) =
      setSlot s n { s.slot n with gateOpen := true, startTime := t, nextPace := 0 } := modSlot_congr rfl
  unfold streamFiring Act.each Act.on
  simp only [slot_eq]

end firing

/-- Settles O44. -/
theorem trigAndFiring : Obligations.TrigAndFiring := by
  unfold Obligations.TrigAndFiring
  refine ⟨fun rx s h flooded other new => ?trig, fun s t rest running schedule => ?firing, fireOne_eq, streamFiring_eq,
    fun s k e running ends => ?pulse⟩
  case trig =>
    intro u b count fits
    have frame : { u with links := (heard s rx).links } = recordFlood (heard s rx) .trig rx :=
      floodCopies_frame (recordFlood (heard s rx) .trig rx) .trig rx
    have roster : u.roster = s.roster := (flooded_roster .trig).1
    have trig : u.trig = s.trig := (congrArg State.trig frame :)
    have tb : u.tb = s.tb := (congrArg State.tb frame :)
    have store : u.store = s.store := (congrArg State.store frame :)
    have entry : (u.entry rx.origin).state = (s.entry rx.origin).state := by
      unfold State.entry
      rw [roster]
    have ends := ends_flooded h flooded
    rw [takeFlood_new (a := ⟨heard s rx, []⟩) (by decide) other new] at ends
    have acts {v : State} {ps : List Post} (act : takeTrig rx ⟨u, []⟩ = ⟨v, ps⟩) : Acts (.trig rx) s v ps := by
      have taken : Ends (.trig rx) s (takeTrig rx ⟨u, []⟩) := ends
      rw [act] at taken
      exact taken
    clear_value u
    refine ⟨fun member => acts (takeTrig_ignored (entry ▸ member)),
      fun member unfit => acts (takeTrig_malformed (entry.trans member) unfit), fun k member fits off => ?_,
      fun k member fits on => ?_⟩
    · refine acts ((takeTrig_fits (entry.trans member) fits).trans (if_pos ?_))
      unfold laneSettings
      rw [store, off]
    · intro t notice
      have judged : judgeInsertion u t = judgeInsertion s t := judgeInsertion_congr store tb (by rw [trig]) t
      have muted : mutedLanes u = mutedLanes s := mutedLanes_congr (by rw [trig])
      have lane_on : ¬ (laneSettings u k).outputEnable = false := by
        unfold laneSettings
        rw [store, on]
        decide
      have taken : takeTrig rx ⟨u, []⟩ = ⟨inserted t u (judgeInsertion s t),
          insertionPosts (mutedLanes s) false (judgeInsertion s t)⟩ := by
        refine (takeTrig_fits (entry.trans member) fits).trans ((if_neg lane_on).trans ?_)
        show Act.mk (inserted t u (judgeInsertion u t)) (insertionPosts (mutedLanes u) false (judgeInsertion u t)) = _
        rw [judged, muted]
      have notOff : judgeInsertion s t ≠ .outputOff := by
        unfold judgeInsertion
        rw [if_neg (by unfold laneSettings; rw [on]; decide)]
        repeat' split
        all_goals decide
      cases insertion : judgeInsertion s t with
      | outputOff => exact notOff insertion
      | _ =>
        rw [insertion] at taken
        exact acts taken
  case firing =>
    intro u due v a
    have kept : u.trig.schedule = s.trig.schedule := congrArg TriggerUnit.schedule (advanceToRack_trig s t.fireTime)
    refine ⟨fun reaches => ?_, reached_advanceToRack⟩
    have some_due : u.trig.schedule.filter (fun x => reached u x.fireTime) ≠ [] := by
      rw [kept, schedule, List.filter_cons_of_pos (p := fun x : Trigger => reached u x.fireTime) (decide_eq_true reaches)]
      exact List.cons_ne_nil _ _
    have fires := fireReached_due some_due
    rw [kept] at fires
    show execFiring s = _
    unfold execFiring
    refine run_ends running ?_
    dsimp only
    rw [schedule]
    exact fires
  case pulse =>
    show execPulseEnd k s = _
    unfold execPulseEnd
    refine run_ends running ?_
    dsimp only
    rw [ends]
    rfl

/-! ## Lane inputs (R104, R106) -/

section inputs

variable {s : State} {k : LaneIx}

theorem floodsTriggers_eq (s : State) :
    floodsTriggers s = (s.own != 0 && !(s.tb.state == .free || s.tb.state == .acquiring)) := rfl

/-- The line at a level that the lane's record does not show yet. -/
theorem inputEdge_leads (low : (s.trig.lanes.get k).inputHigh = (s.store.working.lanes.get k).fallingEdge) :
    let l := s.store.working.lanes.get k
    let a : Act := ⟨s.modLane k (fun x => { x with inputHigh := !l.fallingEdge }), []⟩
    inputEdge ⟨s, []⟩ k = if l.inputEnable = false then a else
      match (s.trig.lanes.get k).stage with
      | .idle =>
        let a := a.on (fun s => s.modLane k (fun x => { x with stage := .asserted, holdSince := some s.now }))
        makeTrigger a k (a.s.tb.rackTime + BitVec.ofNat 64 (leadTime l)) (floodsTriggers a.s)
      | .asserted => a
      | .muted =>
        countTrig (a.on (·.modLane k (fun x => { x with unmuteSince := none })))
          (fun c => { c with mutedEdge := c.mutedEdge + 1 }) := by
  intro l a
  have differs : ¬ (s.trig.lanes.get k).inputHigh = assertedLevel (laneSettings s k) := by
    rw [low]
    exact (Bool.eq_not_self _).1
  unfold inputEdge
  dsimp only
  rw [if_neg differs]
  by_cases off : l.inputEnable = false
  · rw [if_pos off]
    exact if_pos off
  · rw [if_neg off]
    refine (if_neg off).trans ?_
    cases (s.trig.lanes.get k).stage <;> rfl

theorem inputLeaves_falls (high : (s.trig.lanes.get k).inputHigh = !(s.store.working.lanes.get k).fallingEdge) :
    let l := s.store.working.lanes.get k
    let u := s.modLane k (fun x => { x with inputHigh := l.fallingEdge })
    inputLeaves s k = if l.inputEnable = false then u else
      match (s.trig.lanes.get k).stage with
      | .idle => u
      | .asserted => u.modLane k (fun x => { x with stage := .idle, holdSince := none })
      | .muted => u.modLane k (fun x => { x with unmuteSince := some u.now }) := by
  intro l u
  have same : ¬ (s.trig.lanes.get k).inputHigh ≠ assertedLevel (laneSettings s k) := fun h => h high
  have falls : s.modLane k (fun x => { x with inputHigh := !assertedLevel (laneSettings s k) }) = u := by
    refine modLane_congr ?_
    unfold assertedLevel
    rw [Bool.not_not] <;> rfl
  unfold inputLeaves
  dsimp only
  rw [if_neg same, falls]
  by_cases off : l.inputEnable = false
  · rw [if_pos off]
    exact if_pos off
  · rw [if_neg off]
    refine (if_neg off).trans ?_
    cases (s.trig.lanes.get k).stage <;> rfl

end inputs

/-- Settles O45. -/
theorem laneInputs : Obligations.LaneInputs := by
  unfold Obligations.LaneInputs
  refine ⟨fun s k running => ?edge, fun s ps k fire => ⟨?flooded, ?alone⟩, fun s k running => ?leaves,
    fun s k t running stage since => ?hold, fun s k t running stage since => ?unmute⟩
  case edge =>
    intro l x high
    have ends {a : Act} (act : inputEdge ⟨s, []⟩ k = a) : Ends (.enabledEdge k) s a := by
      show execEnabledEdge k s = _
      unfold execEnabledEdge
      exact run_ends running act
    refine ⟨fun still => ends (if_pos still), fun low => ⟨?_, ?_, ?_⟩⟩
    · rintro (off | asserted)
      · exact ends ((inputEdge_leads low).trans (if_pos off))
      · refine ends ((inputEdge_leads low).trans ?_)
        dsimp only
        rw [asserted]
        exact ite_self _
    · intro on muted u
      refine ends ((inputEdge_leads low).trans ?_)
      dsimp only
      rw [muted]
      exact if_neg (by rw [on]; decide)
    · intro on idle u
      refine ends ((inputEdge_leads low).trans ?_)
      dsimp only
      rw [idle]
      refine (if_neg (by rw [on]; decide)).trans ?_
      rw [floodsTriggers_eq]
      rfl
  case flooded =>
    obtain ⟨-, -, schedule, -, -⟩ := announced_trig s k fire true
    refine (makeTrigger_eq s ps k fire true).trans ?_
    show _ = match judgeInsertion s (ownTrigger s k fire) with
      | .scheduled => _ | .merged => _ | .late => _ | .dropped => _ | .outputOff => _
    cases judgeInsertion s (ownTrigger s k fire) with
    | scheduled =>
      show Act.mk { announced s k fire true with trig := { (announced s k fire true).trig with
        schedule := insertAt (ownTrigger s k fire) (announced s k fire true).trig.schedule } } _ = _
      rw [schedule]
      exact congrArg (Act.mk _) (List.append_nil ps)
    | outputOff => exact congrArg (Act.mk _) (List.append_nil ps)
    | _ => rfl
  case alone =>
    obtain ⟨-, -, schedule, -, -⟩ := announced_trig s k fire false
    refine (makeTrigger_eq s ps k fire false).trans ?_
    show _ = match judgeInsertion s (ownTrigger s k fire) with
      | .scheduled => _ | .merged => _ | .late => _ | .dropped => _ | .outputOff => _
    cases judgeInsertion s (ownTrigger s k fire) with
    | scheduled =>
      show Act.mk { announced s k fire false with trig := { (announced s k fire false).trig with
        schedule := insertAt (ownTrigger s k fire) (announced s k fire false).trig.schedule } } _ = _
      rw [schedule]
      exact congrArg (Act.mk _) rfl
    | outputOff => exact congrArg (Act.mk _) rfl
    | _ => rfl
  case leaves =>
    intro l x low
    have ends {u : State} (act : inputLeaves s k = u) : Acts (.inputDeasserted k) s u [] := by
      show execInputDeasserted k s = _
      unfold execInputDeasserted
      exact runState_ends running act
    refine ⟨fun still => ends (if_pos ?_), fun high => ⟨?_, ?_, ?_⟩⟩
    · rw [show (s.trig.lanes.get k).inputHigh = l.fallingEdge from still]
      exact (Bool.eq_not_self _).1
    · rintro (off | idle)
      · exact ends ((inputLeaves_falls high).trans (if_pos off))
      · refine ends ((inputLeaves_falls high).trans ?_)
        rw [idle]
        exact ite_self _
    · intro on asserted
      refine ends ((inputLeaves_falls high).trans ?_)
      rw [asserted]
      exact (if_neg (by rw [on]; decide)).trans (modLane_modLane _ _)
    · intro on muted
      refine ends ((inputLeaves_falls high).trans ?_)
      rw [muted]
      exact (if_neg (by rw [on]; decide)).trans (modLane_modLane _ _)
  case hold =>
    intro u
    show execHoldLimit k s = _
    unfold execHoldLimit
    refine run_ends running ?_
    dsimp only
    rw [if_pos stage, since]
    rfl
  case unmute =>
    intro u
    show execUnmuteTimer k s = _
    unfold execUnmuteTimer
    refine run_ends running ?_
    dsimp only
    rw [if_pos stage, since]
    rfl

end Sys2Proof.LaneActs

/-! SUPPORT. The timebase unit: the tests of a TIME cell (R94) and what an accepted one does to the timebase (R95 to R97,
R99). -/

namespace Sys2Proof.TimeActs

open Sys2Proof Sys2Proof.Machine Sys2Proof.Statements Sys2Proof.PortUnits Sys2Proof.ReceivedCells

/-! ## Acts of the unit (R100) -/

section acts

variable {f g : Act → Act × Option Int} {a b : Act}

theorem tbAct_congr (same : f a = g a) : tbAct f a = tbAct g a := by
  unfold tbAct
  dsimp only
  rw [same]

/-- An act that keeps state and master, and takes no step, is not told. -/
theorem tbAct_quiet (act : f a = (b, none)) (state : b.s.tb.state = a.s.tb.state) (master : b.s.tb.master = a.s.tb.master) :
    tbAct f a = b := by
  unfold tbAct
  rw [act]
  dsimp only
  rw [if_neg (c := b.s.tb.state ≠ a.s.tb.state) (fun h => h state), if_neg]
  rintro (moved | moved | stepped)
  · exact moved state
  · exact moved master
  · cases stepped

end acts

/-! ## The tests of R94 -/

section tests

variable {rx : Rx} {s : State}

/-- A TIME of the right form. -/
def TimeForm (rx : Rx) : Prop := rx.payload.length = 12 ∧ (beAt rx.payload 2 1 = 1 ∨ beAt rx.payload 2 1 = 2)

/-- It came from the followed master on the upstream port. -/
def TimePath (s : State) (rx : Rx) : Prop :=
  s.tb.state ≠ .master ∧ s.tb.master ≠ 0 ∧ s.tb.master ≠ s.own ∧
    (∃ r, s.route s.tb.master = some r ∧ r.port = rx.port) ∧ beAt rx.payload 0 1 = s.tb.master.val

theorem upstreamPort_iff (s : State) (p : PortIx) : upstreamPort s = some p ↔
    s.tb.master ≠ 0 ∧ s.tb.master ≠ s.own ∧ ∃ r, s.route s.tb.master = some r ∧ r.port = p := by
  unfold upstreamPort
  by_cases off : s.tb.master = 0 ∨ s.tb.master = s.own
  · rw [if_pos off]
    exact iff_of_false (by simp) (fun ⟨numbered, other, _⟩ => off.elim numbered other)
  · rw [if_neg off, Option.map_eq_some_iff]
    rw [not_or] at off
    simp only [ne_eq, off, not_false_eq_true, true_and]

theorem testTime_ignored (h : ¬ (TimeForm rx ∧ TimePath s rx)) : testTime s rx = .ignored := by
  unfold testTime
  dsimp only
  by_cases unfit : rx.payload.length ≠ 12 ∨
      (timeQualityField rx.payload ≠ qualityGood ∧ timeQualityField rx.payload ≠ qualityHeld)
  · exact if_pos unfit
  rw [if_neg unfit]
  by_cases unled : s.tb.state = .master ∨ s.tb.master = 0
  · exact if_pos unled
  rw [if_neg unled]
  refine if_pos ?_
  refine Classical.byContradiction fun onPath => ?_
  rw [not_or, Classical.not_not, Classical.not_and_iff_not_or_not, Classical.not_not, Classical.not_not] at unfit
  rw [not_or] at unled
  rw [not_or, Classical.not_not, Classical.not_not, upstreamPort_iff] at onPath
  obtain ⟨⟨numbered, other, route⟩, field⟩ := onPath
  exact h ⟨unfit, unled.1, numbered, other, route, field⟩

/-- Of a TIME of the right form and path the later tests remain. -/
theorem testTime_tested (form : TimeForm rx) (path : TimePath s rx) : testTime s rx =
    if 7 ≤ beAt rx.payload 1 1 then .far
    else if (s.port rx.port).samples = [] then .nodelay
    else if beAt rx.payload 2 1 = 2 ∧ s.tb.state ≠ .holdover then .held
    else .accepted := by
  obtain ⟨length, quality⟩ := form
  obtain ⟨state, numbered, other, route, field⟩ := path
  have upstream := (upstreamPort_iff s rx.port).2 ⟨numbered, other, route⟩
  unfold testTime
  dsimp only
  rw [if_neg (fun unfit => unfit.elim (· length) (fun bad => quality.elim bad.1 bad.2)),
    if_neg (not_or.2 ⟨state, numbered⟩),
    if_neg (fun off => off.elim (· upstream) (· field))] <;> rfl

theorem filteredDelay_measured {p : Port} (measured : p.samples ≠ []) :
    filteredDelay p = p.samples.sum / p.samples.length := if_neg measured

end tests

/-! ## A TIME cell (R94 to R97, R99) -/

section cell

variable {rx : Rx} {s : State}

/-- A TIME cell that a test refuses is counted and changes nothing else. -/
theorem takeTime_counted {t : TimeTest} {g : TimeCounters → TimeCounters} (tested : testTime s rx = t)
    (counts : t = .ignored ∧ g = (fun c => { c with ignored := c.ignored + 1 }) ∨
      t = .far ∧ g = (fun c => { c with far := c.far + 1 }) ∨
      t = .nodelay ∧ g = (fun c => { c with nodelay := c.nodelay + 1 }) ∨
      t = .held ∧ g = (fun c => { c with held := c.held + 1 })) :
    takeTime rx ⟨s, []⟩ = ⟨{ s with tb := { s.tb with counters := g s.tb.counters } }, []⟩ := by
  unfold takeTime
  refine tbAct_quiet ?_ rfl rfl
  dsimp only
  rw [tested]
  rcases counts with ⟨rfl, rfl⟩ | ⟨rfl, rfl⟩ | ⟨rfl, rfl⟩ | ⟨rfl, rfl⟩ <;> rfl

/-- The timebase after an accepted TIME has been noted, before it is used. -/
def noted (rx : Rx) (offset : Int) (now : Nat) (t : Timebase) : Timebase :=
  { t with
    distance := some (beAt rx.payload 1 1 + 1), lastOffset := some offset
    watchSince := if beAt rx.payload 2 1 = 1 then some now else t.watchSince
    counters := { t.counters with accepted := t.counters.accepted + 1 } }

theorem takeTime_accepted (tested : testTime s rx = .accepted) :
    takeTime rx ⟨s, []⟩ = tbAct (fun a => useTime rx (timeOffset s rx)
      { a with s := { a.s with tb := noted rx (timeOffset s rx) s.now s.tb } }) ⟨s, []⟩ := by
  unfold takeTime
  refine tbAct_congr ?_
  dsimp only
  rw [tested]
  rfl

end cell

/-! ## What an accepted TIME does (R96, R97, R99) -/

section use

variable {rx : Rx} {offset : Int} {s : State} {ps : List Post} {t : Timebase}

theorem useTime_free (state : s.tb.state = .free) :
    useTime rx offset ⟨s, ps⟩ = acquire offset ⟨{ s with tb := startAcquiring s.tb }, ps⟩ := by
  unfold useTime
  dsimp only
  rw [state] <;> rfl

theorem useTime_acquiring (state : s.tb.state = .acquiring) : useTime rx offset ⟨s, ps⟩ = acquire offset ⟨s, ps⟩ := by
  unfold useTime
  dsimp only
  rw [state]

theorem useTime_locked (state : s.tb.state = .locked) :
    useTime rx offset ⟨s, ps⟩ = (⟨{ s with tb := follow offset s.now s.tb }, ps⟩, none) := by
  unfold useTime
  dsimp only
  rw [state] <;> rfl

theorem useTime_holdover (state : s.tb.state = .holdover) : useTime rx offset ⟨s, ps⟩ =
    if beAt rx.payload 2 1 = 1 then
      if offset.natAbs ≤ 1000 then (⟨{ s with tb := relock offset s.tb }, ps⟩, none)
      else acquire offset ⟨{ s with tb := startAcquiring s.tb }, ps⟩
    else if offset.natAbs ≤ 1000 then (⟨{ s with tb := slewBy offset s.tb }, ps⟩, none)
    else (⟨{ s with tb := { s.tb with counters := { s.tb.counters with
      excursion := s.tb.counters.excursion + 1 } } }, ps⟩, none) := by
  unfold useTime
  conv =>
    lhs
    dsimp only
    rw [state]
  rfl

theorem acquire_far (far : s.tb.stepPending = true ∨ 1000 < offset.natAbs) :
    acquire offset ⟨s, ps⟩ = doStep offset ⟨s, ps⟩ := if_pos far

theorem acquire_near (calm : s.tb.stepPending = false) (near : offset.natAbs ≤ 1000) : acquire offset ⟨s, ps⟩ =
    if 40 < offset.natAbs then (⟨{ s with tb := { slewBy offset s.tb with lockCount := 0 } }, ps⟩, none)
    else (⟨{ s with tb := if s.tb.lockCount + 1 = 8 then
        { slewBy offset s.tb with state := .locked, lockCount := 0, excursions := 0 }
      else { slewBy offset s.tb with lockCount := s.tb.lockCount + 1 } }, ps⟩, none) := by
  have still : ¬ (s.tb.stepPending = true ∨ stepThreshold < offset.natAbs) := by
    rw [calm]
    rintro (h | h)
    · cases h
    · exact absurd (show 1000 < offset.natAbs from h) (Nat.not_lt.2 near)
  unfold acquire
  dsimp only
  rw [if_neg still] <;> rfl

theorem follow_near (near : offset.natAbs ≤ 1000) (now : Nat) :
    follow offset now t = { slewBy offset t with excursions := 0 } := if_pos near

theorem follow_far (far : 1000 < offset.natAbs) (now : Nat) : follow offset now t =
    let c : TimeCounters := { t.counters with excursion := t.counters.excursion + 1 }
    if t.excursions + 1 = 3 then
      { t with counters := c, state := .acquiring, excursions := 0, lockCount := 0, stepPending := true, correction := 0
               slewResidue := 0, watchSince := some now }
    else { t with counters := c, excursions := t.excursions + 1 } := by
  have notNear : ¬ offset.natAbs ≤ stepThreshold := Nat.not_le.2 far
  unfold follow
  rw [if_neg notNear]
  rfl

end use

/-- Settles O46. -/
theorem timeCell : Obligations.TimeCell := by
  unfold Obligations.TimeCell
  intro rx s h dest b q form path hop measured usable delay offset u count t slewed excursion takes
  have ends : Ends (.time rx) s (takeTime rx ⟨u, []⟩) := ends_local h dest
  have acts {v : State} {ps : List Post} (act : takeTime rx ⟨u, []⟩ = ⟨v, ps⟩) : Acts (.time rx) s v ps := by
    rw [act] at ends
    exact ends
  have samples : (u.port rx.port).samples = (s.port rx.port).samples := by
    show ((s.modPort rx.port goodUp).port rx.port).samples = _
    rw [port_modPort_same] <;> rfl
  refine ⟨fun unfit => ?_, fun form path far => ?_, fun form path near unmeasured => ?_,
    fun form path near measured unusable => ?_, fun form path near measured usable => ?_⟩
  · exact acts (takeTime_counted (testTime_ignored (s := u) unfit) (.inl ⟨rfl, rfl⟩))
  · refine acts (takeTime_counted ((testTime_tested (s := u) form path).trans (if_pos ?_)) (.inr (.inl ⟨rfl, rfl⟩)))
    exact Nat.not_lt.1 far
  · refine acts (takeTime_counted ((testTime_tested (s := u) form path).trans ?_) (.inr (.inr (.inl ⟨rfl, rfl⟩))))
    rw [if_neg (Nat.not_le.2 near), if_pos (samples.trans (Classical.not_not.1 unmeasured))]
  · have held : q = 2 ∧ u.tb.state ≠ .holdover := by
      obtain ⟨notGood, notHolding⟩ := not_or.1 unusable
      exact ⟨form.2.resolve_left notGood, notHolding⟩
    refine acts (takeTime_counted ((testTime_tested (s := u) form path).trans ?_) (.inr (.inr (.inr ⟨rfl, rfl⟩))))
    rw [if_neg (Nat.not_le.2 near), if_neg (fun e => measured (samples.symm.trans e)), if_pos held]
  · have tested : testTime u rx = .accepted := by
      have notHeld : ¬ (q = 2 ∧ u.tb.state ≠ .holdover) := by
        rintro ⟨held, notHolding⟩
        rcases usable with good | holding
        · omega
        · exact notHolding holding
      rw [testTime_tested (s := u) form path, if_neg (Nat.not_le.2 near), if_neg (fun e => measured (samples.symm.trans e)),
        if_neg notHeld]
    have offset_eq : timeOffset u rx = offset := by
      unfold timeOffset
      rw [filteredDelay_measured (fun e => measured (samples.symm.trans e)), samples]
      rfl
    have accepted := takeTime_accepted tested
    rw [offset_eq] at accepted
    have takes_of {v : Timebase} (used : useTime rx offset ⟨{ u with tb := t }, []⟩ = (⟨{ u with tb := v }, []⟩, none))
        (state : v.state = s.tb.state) (master : v.master = s.tb.master) : takes v :=
      acts (accepted.trans (tbAct_quiet (a := ⟨u, []⟩) used state master))
    refine ⟨by rw [accepted] at ends; exact ends, fun locked small => ?_, fun locked large excursions => ?_,
      fun acquiring calm small count => ?_, fun acquiring calm large small => ?_, fun holdover held small => ?_,
      fun holdover held large => ?_⟩
    · have followed : follow offset s.now t = { slewed with excursions := 0 } := follow_near small s.now
      exact takes_of ((useTime_locked (s := { u with tb := t }) locked).trans (congrArg (fun v => (Act.mk { u with tb := v } [], none)) followed)) rfl rfl
    · have followed : follow offset s.now t = { t with counters := excursion, excursions := s.tb.excursions + 1 } :=
        (follow_far large s.now).trans (if_neg excursions)
      exact takes_of ((useTime_locked (s := { u with tb := t }) locked).trans (congrArg (fun v => (Act.mk { u with tb := v } [], none)) followed)) rfl rfl
    · refine takes_of ((useTime_acquiring (s := { u with tb := t }) acquiring).trans ((acquire_near (s := { u with tb := t }) calm (by omega)).trans ?_)) rfl rfl
      rw [if_neg (by omega), if_neg count] <;> rfl
    · refine takes_of ((useTime_acquiring (s := { u with tb := t }) acquiring).trans ((acquire_near (s := { u with tb := t }) calm small).trans ?_)) rfl rfl
      rw [if_pos large] <;> rfl
    · have notGood : ¬ beAt rx.payload 2 1 = 1 := by rw [show beAt rx.payload 2 1 = 2 from held]; decide
      refine takes_of ((useTime_holdover (s := { u with tb := t }) holdover).trans ?_) rfl rfl
      rw [if_neg notGood, if_pos small] <;> rfl
    · have notGood : ¬ beAt rx.payload 2 1 = 1 := by rw [show beAt rx.payload 2 1 = 2 from held]; decide
      refine takes_of ((useTime_holdover (s := { u with tb := t }) holdover).trans ?_) rfl rfl
      rw [if_neg notGood, if_neg (Nat.not_le.2 large)]

end Sys2Proof.TimeActs

/-! SUPPORT. What an accepted TIME does where the timebase changes state or steps (R96 to R100), and what ports, triggers
and streams take of a step (R26, R28, R111, R128). -/

namespace Sys2Proof.TimeSteps

open Sys2Proof Sys2Proof.Machine Sys2Proof.Statements Sys2Proof.PortUnits Sys2Proof.PortQueues Sys2Proof.RosterActs
  Sys2Proof.TriggerActs Sys2Proof.TimeActs

/-! ## The step at the ports (R26, R28) -/

section ports

theorem foldl_stepPorts (d : BitVec 64) (ks : List PortIx) (s : State) :
    ks.foldl (fun s p => (s.modPort p (stepPort d)).modLink p (stepLink d)) s =
      { s with
        ports := ks.foldl (fun v p => upd v p (stepPort d)) s.ports
        links := ks.foldl (fun v p => upd v p (stepLink d)) s.links } := by
  induction ks generalizing s with
  | nil => rfl
  | cons p ks ih =>
    rw [List.foldl_cons, ih]
    rfl

theorem portsStep_eq (size : Int) (s : State) : portsStep size s =
    { s with
      ports := allPorts.foldl (fun v p => upd v p (stepPort (BitVec.ofInt 64 size))) s.ports
      links := allPorts.foldl (fun v p => upd v p (stepLink (BitVec.ofInt 64 size))) s.links } :=
  foldl_stepPorts ..

theorem port_portsStep (size : Int) (s : State) (p : PortIx) :
    (portsStep size s).port p = stepPort (BitVec.ofInt 64 size) (s.port p) := by
  rw [portsStep_eq]
  exact (get_foldl_upd _ allPorts (by decide) s.ports p).trans (if_pos (List.mem_finRange p))

theorem link_portsStep (size : Int) (s : State) (p : PortIx) :
    (portsStep size s).link p = stepLink (BitVec.ofInt 64 size) (s.link p) := by
  rw [portsStep_eq]
  exact (get_foldl_upd _ allPorts (by decide) s.links p).trans (if_pos (List.mem_finRange p))

end ports

/-! ## The step at triggers and streams (R111, R128) -/

section units

variable {s : State} {ps : List Post} {size : Int} {n : SlotIx}

theorem trigStep_kept (h : size ≤ 0 ∨ s.trig.schedule.filter (fun t => reached s t.fireTime) = []) :
    trigStep size ⟨s, ps⟩ = ⟨s, ps⟩ := by
  unfold trigStep
  rcases h with back | nothing
  · exact if_pos back
  · dsimp only
    rw [nothing]
    exact ite_self _

theorem trigStep_passed (ahead : 0 < size) (passed : s.trig.schedule.filter (fun t => reached s t.fireTime) ≠ []) :
    trigStep size ⟨s, ps⟩ = ⟨{ s with trig := { s.trig with
      schedule := s.trig.schedule.filter (fun t => !reached s t.fireTime)
      counters := { s.trig.counters with
        late := s.trig.counters.late +
          BitVec.ofNat 32 (s.trig.schedule.filter (fun t => reached s t.fireTime)).length } } },
      ps ++ [.notice (.triggers 0 (mutedLanes s) 0
        (BitVec.ofNat 32 (s.trig.schedule.filter (fun t => reached s t.fireTime)).length) 0 0 0)]⟩ := by
  have notEmpty : ¬ (s.trig.schedule.filter (fun t => reached s t.fireTime)).isEmpty = true := by
    rwa [List.isEmpty_iff]
  unfold trigStep
  rw [if_neg (by omega)]
  dsimp only
  rw [if_neg notEmpty]
  rfl

theorem stepSlot_paced (paced : (s.slot n).role = .source ∧ (s.slot n).state ≠ .closed ∧ (s.slot n).gateOpen = true ∧
    (s.slot n).pace ≠ 0) : stepSlot ⟨s, ps⟩ n = ⟨setSlot s n { s.slot n with
      nextPace := indexFrom (s.slot n) s.tb.rackTime }, ps⟩ := by
  unfold stepSlot
  refine (if_pos paced).trans ?_
  exact congrArg (Act.mk · ps) (modSlot_congr rfl)

theorem stepSlot_unpaced (unpaced : ¬ ((s.slot n).role = .source ∧ (s.slot n).state ≠ .closed ∧
    (s.slot n).gateOpen = true ∧ (s.slot n).pace ≠ 0)) : stepSlot ⟨s, ps⟩ n =
      if (s.slot n).state = .armed then settle ⟨s, ps⟩ n .gate else ⟨s, ps⟩ := by
  unfold stepSlot
  exact if_neg unpaced

end units

/-- A step of rack time (R85, R100). -/
theorem doStep_eq (offset : Int) (s : State) (ps : List Post) : doStep offset ⟨s, ps⟩ =
    if offset = 0 then (⟨{ s with tb := stepTime offset s.tb }, ps⟩, none)
    else (streamStep (trigStep offset ⟨portsStep offset { s with tb := stepTime offset s.tb }, ps⟩), some offset) := rfl

/-- Settles O47. -/
theorem timeStates : Obligations.TimeStates := by
  unfold Obligations.TimeStates
  refine ⟨fun rx offset s ps => ?uses, fun offset s ps => ?steps, fun s size => ?ports, fun s ps size => ⟨?kept, ?passed⟩,
    fun a => rfl, fun a => rfl, fun s ps n => ?slots, fun s => ⟨?noPort, fun r numbered other route => ?port⟩, fun s => ?quality⟩
  case uses =>
    intro t good start becomes
    refine ⟨fun acquiring calm small last => ?_, fun locked large last => ?_, fun holdover good small => ?_, ?_,
      fun acquiring far => (useTime_acquiring acquiring).trans (acquire_far far)⟩
    · refine (useTime_acquiring acquiring).trans ((acquire_near calm (by omega)).trans ?_)
      rw [if_neg (by omega), if_pos last] <;> rfl
    · refine (useTime_locked locked).trans ?_
      exact congrArg (fun v => (Act.mk { s with tb := v } ps, none)) ((follow_far large s.now).trans (if_pos last))
    · refine (useTime_holdover holdover).trans ?_
      exact (if_pos good).trans (if_pos small)
    · rintro (free | ⟨holdover, good, large⟩)
      · exact (useTime_free free).trans (acquire_far (.inl rfl))
      · refine (useTime_holdover holdover).trans ?_
        refine (if_pos good).trans ((if_neg (Nat.not_le.2 large)).trans ?_)
        exact acquire_far (.inl rfl)
  case steps =>
    intro t
    rw [doStep_eq]
    refine ⟨fun none => ?_, fun some => ?_⟩
    · rw [if_pos none]
      unfold stepTime
      rw [if_pos none]
    · rw [if_neg some]
      unfold stepTime
      rw [if_neg some]
  case ports =>
    intro d
    refine ⟨by rw [portsStep_eq], fun p => ⟨(port_portsStep size s p).trans rfl, (link_portsStep size s p).trans rfl⟩⟩
  case kept => exact trigStep_kept
  case passed => exact trigStep_passed
  case slots =>
    intro x rack start paced
    refine ⟨stepSlot_paced, fun unpaced armed => ?_, fun unpaced armed => ?_⟩
    · exact (stepSlot_unpaced unpaced).trans (if_pos armed)
    · exact (stepSlot_unpaced unpaced).trans (if_neg armed)
  case noPort =>
    intro off
    rw [Option.eq_none_iff_forall_ne_some]
    intro p found
    obtain ⟨numbered, other, r, route, -⟩ := (upstreamPort_iff s p).1 found
    rcases off with none | own | unknown
    · exact numbered none
    · exact other own
    · rw [unknown] at route
      cases route
  case port => exact (upstreamPort_iff s r.port).2 ⟨numbered, other, r, route, rfl⟩
  case quality =>
    show qualityOf s.tb.state = _
    cases s.tb.state <;> rfl

end Sys2Proof.TimeSteps

/-! SUPPORT. The timers of the timebase unit (R93, R98, R99), its acts (R100) and the choice of the followed master (R87 to
R91). -/

namespace Sys2Proof.MasterChoice

open Sys2Proof Sys2Proof.Machine Sys2Proof.Statements Sys2Proof.PortUnits Sys2Proof.RosterActs Sys2Proof.RosterTimers
  Sys2Proof.TimeActs

/-! ## Who is fit (R87) -/

section fit

variable {s : State} {f : FrameNo} {n : Nat}

/-- The time rank that the contents of a REACHABLE entry show. -/
def shownRank (s : State) (f : FrameNo) : Nat := (s.route f).elim 0 (fun r => r.contents.timeRank.toNat)

theorem timeReady_iff : TimeReady s f n ↔ timeFit s f = true ∧ shownRank s f = n := by
  unfold TimeReady timeFit shownRank contentsOf
  cases s.route f with
  | none => simp
  | some r =>
    have zero : (r.contents.timeRank = 0) ↔ r.contents.timeRank.toNat = 0 :=
      ⟨fun h => by rw [h] <;> rfl, fun h => BitVec.eq_of_toNat_eq h⟩
    simp only [Option.some.injEq, exists_eq_left', Option.map_some, Option.elim_some, Bool.and_eq_true, bne_iff_ne, ne_eq,
      beq_iff_eq, zero]
    constructor
    · rintro ⟨leaving, rfl, positive⟩
      exact ⟨⟨positive, leaving⟩, rfl⟩
    · rintro ⟨⟨positive, leaving⟩, rfl⟩
      exact ⟨leaving, rfl, positive⟩

theorem advertisesMaster_iff : AdvertisesMaster s f n ↔ advertisesMaster s f = true ∧ shownRank s f = n := by
  have names : (∃ r, s.route f = some r ∧ r.contents.followedMaster.toNat = f.val) ↔
      (match contentsOf s f with | some c => c.followedMaster.toNat == f.val | none => false) = true := by
    unfold contentsOf
    cases s.route f <;> simp
  unfold AdvertisesMaster advertisesMaster
  rw [timeReady_iff, names, Bool.and_eq_true]
  exact and_right_comm

theorem namedMaster_iff {neighbours : Bool} : namedMaster s neighbours f = true ↔ NamedMaster s (neighbours = false) f := by
  unfold namedMaster NamedMaster
  rw [List.any_eq_true]
  constructor
  · rintro ⟨g, inside, named⟩
    cases route : s.route g with
    | none => rw [route] at named; cases named
    | some r =>
      rw [route] at named
      simp only [Bool.and_eq_true, Bool.or_eq_true, Bool.not_eq_true', beq_iff_eq] at named
      exact ⟨g, r, (mem_allFrames g).1 inside, route, named.1, named.2⟩
  · rintro ⟨g, r, nonzero, route, near, named⟩
    refine ⟨g, (mem_allFrames g).2 nonzero, ?_⟩
    rw [route]
    simp only [Bool.and_eq_true, Bool.or_eq_true, Bool.not_eq_true', beq_iff_eq]
    exact ⟨near, named⟩

theorem isMember_iff : isMember s = true ↔ s.roster.standing = .member := beq_iff_eq

theorem isMember_false : isMember s = false ↔ ¬ s.roster.standing = .member := by
  rw [← isMember_iff, Bool.not_eq_true]

theorem copyMember_iff : copyMember s f = true ↔ (s.entry f).state = .member := beq_iff_eq

theorem timeRankOf_other (other : f ≠ s.own) : timeRankOf s f = shownRank s f := by
  unfold timeRankOf
  rw [if_neg other]
  unfold contentsOf shownRank
  cases s.route f <;> rfl

theorem timeRankOf_eq (f : FrameNo) : timeRankOf s f = if f = s.own then actingRank s s.store.working.timeRank
    else (s.route f).elim 0 (fun r => r.contents.timeRank.toNat) := by
  by_cases own : f = s.own
  · rw [if_pos own]
    exact if_pos own
  · rw [if_neg own, timeRankOf_other own]
    rfl

/-- A followed master that may be kept. -/
def Fit (s : State) (m : FrameNo) : Prop :=
  (m = s.own ∧ s.tb.state = .master ∧ (s.roster.standing = .member ∨ s.roster.standing = .alone) ∧
      actingRank s s.store.working.timeRank ≠ 0) ∨
    m ≠ s.own ∧ (s.roster.standing = .member ∧ (s.entry m).state = .member ∧ (∃ n, TimeReady s m n) ∨
      ¬ s.roster.standing = .member ∧ ∃ n, AdvertisesMaster s m n)

theorem masterFit_iff (m : FrameNo) : masterFit s m = true ↔ Fit s m := by
  have ready : (∃ n, TimeReady s m n) ↔ timeFit s m = true := by simp only [timeReady_iff, exists_and_left, exists_eq', and_true]
  have adverts : (∃ n, AdvertisesMaster s m n) ↔ advertisesMaster s m = true := by
    simp only [advertisesMaster_iff, exists_and_left, exists_eq', and_true]
  unfold masterFit Fit
  rw [ready, adverts]
  by_cases own : m = s.own
  · rw [if_pos own]
    simp only [own, true_and, ne_eq, not_true_eq_false, false_and, or_false, Bool.and_eq_true, beq_iff_eq, bne_iff_ne,
      and_assoc]
    refine and_congr_right (fun _ => and_congr ?_ Iff.rfl)
    by_cases member : isMember s = true
    · rw [if_pos member]
      simp [isMember_iff.1 member]
    · rw [if_neg member]
      have notMember : ¬ s.roster.standing = .member := fun h => member (isMember_iff.2 h)
      simp [notMember]
  · rw [if_neg own]
    simp only [own, false_and, ne_eq, not_false_eq_true, true_and, false_or]
    by_cases member : isMember s = true
    · rw [if_pos member]
      simp [isMember_iff.1 member, copyMember_iff, and_comm]
    · rw [if_neg member]
      have notMember : ¬ s.roster.standing = .member := fun h => member (isMember_iff.2 h)
      simp [notMember]

end fit

/-! ## The choice (R88 to R90) -/

section choice

variable {s : State} {f : FrameNo} {n : Nat}

/-- A candidate for master with its rank. -/
def Chooses (s : State) (f : FrameNo) (n : Nat) : Prop := f ≠ 0 ∧
  (f = s.own ∧ (s.roster.standing = .member ∨ s.roster.standing = .alone) ∧
      n = actingRank s s.store.working.timeRank ∧ n ≠ 0 ∨ f ≠ s.own ∧
    (s.roster.standing = .member ∧ (s.entry f).state = .member ∧ TimeReady s f n ∨
      ¬ s.roster.standing = .member ∧ AdvertisesMaster s f n ∧ NamedMaster s False f))

/-- A frame the merge rule collects with its rank. -/
def Collects (s : State) (f : FrameNo) (n : Nat) : Prop := f ≠ 0 ∧ f ≠ s.own ∧ AdvertisesMaster s f n ∧
  NamedMaster s (s.roster.standing = .member) f ∧ (s.roster.standing = .member → (s.entry f).state = .member)

theorem timeRankOf_chooses (chosen : Chooses s f n) : timeRankOf s f = n := by
  obtain ⟨-, ⟨own, -, rank, -⟩ | ⟨other, ⟨-, -, ready⟩ | ⟨-, adverts, -⟩⟩⟩ := chosen
  · rw [timeRankOf_eq, if_pos own, rank]
  · rw [timeRankOf_other other]
    exact (timeReady_iff.1 ready).2
  · rw [timeRankOf_other other]
    exact (advertisesMaster_iff.1 adverts).2

theorem timeRankOf_collects (collected : Collects s f n) : timeRankOf s f = n := by
  obtain ⟨-, other, adverts, -, -⟩ := collected
  rw [timeRankOf_other other]
  exact (advertisesMaster_iff.1 adverts).2

theorem selfMaster_iff : selfMaster s = true ↔ s.own ≠ 0 ∧ actingRank s s.store.working.timeRank ≠ 0 ∧
    (s.roster.standing = .member ∨ s.roster.standing = .alone) := by
  unfold selfMaster isMember
  simp only [Bool.and_eq_true, Bool.or_eq_true, bne_iff_ne, beq_iff_eq, and_assoc]
  rfl

theorem masterCandidates_iff : f ∈ masterCandidates s ↔ ∃ n, Chooses s f n := by
  unfold masterCandidates Chooses
  rw [List.mem_filter, mem_allFrames, exists_and_left]
  refine and_congr_right (fun nonzero => ?_)
  by_cases own : f = s.own
  · rw [if_pos own, selfMaster_iff]
    constructor
    · rintro ⟨-, rank, standing⟩
      exact ⟨_, .inl ⟨own, standing, rfl, rank⟩⟩
    · rintro ⟨n, ⟨-, standing, rfl, rank⟩ | ⟨other, -⟩⟩
      · exact ⟨own ▸ nonzero, rank, standing⟩
      · exact absurd own other
  · rw [if_neg own]
    by_cases member : isMember s = true
    · have isMember := isMember_iff.1 member
      rw [if_pos member, Bool.and_eq_true, copyMember_iff]
      constructor
      · rintro ⟨copy, fit⟩
        exact ⟨_, .inr ⟨own, .inl ⟨isMember, copy, timeReady_iff.2 ⟨fit, rfl⟩⟩⟩⟩
      · rintro ⟨n, ⟨is, -⟩ | ⟨-, ⟨-, copy, ready⟩ | ⟨not, -⟩⟩⟩
        · exact absurd is own
        · exact ⟨copy, (timeReady_iff.1 ready).1⟩
        · exact absurd isMember not
    · have notMember : ¬ s.roster.standing = .member := fun h => member (isMember_iff.2 h)
      have falsy : (true = false) = False := by simp
      rw [if_neg member, Bool.and_eq_true, namedMaster_iff, falsy]
      constructor
      · rintro ⟨adverts, named⟩
        exact ⟨_, .inr ⟨own, .inr ⟨notMember, advertisesMaster_iff.2 ⟨adverts, rfl⟩, named⟩⟩⟩
      · rintro ⟨n, ⟨is, -⟩ | ⟨-, ⟨is, -⟩ | ⟨-, adverts, named⟩⟩⟩
        · exact absurd is own
        · exact absurd is notMember
        · exact ⟨(advertisesMaster_iff.1 adverts).1, named⟩

theorem mergeMasters_iff : f ∈ mergeMasters s ↔ ∃ n, Collects s f n := by
  have any : ((!isMember s) = false) = (s.roster.standing = .member) := by
    rw [Bool.not_eq_false', isMember_iff]
  unfold mergeMasters Collects
  rw [List.mem_filter, mem_allFrames]
  simp only [Bool.and_eq_true, bne_iff_ne, namedMaster_iff, any, Bool.or_eq_true, Bool.not_eq_true', isMember_false,
    copyMember_iff, ne_eq]
  constructor
  · rintro ⟨nonzero, ⟨⟨other, adverts⟩, named⟩, copy⟩
    exact ⟨_, nonzero, other, advertisesMaster_iff.2 ⟨adverts, rfl⟩, named, fun member => copy.resolve_left (fun h => h member)⟩
  · rintro ⟨n, nonzero, other, adverts, named, copy⟩
    refine ⟨nonzero, ⟨⟨other, (advertisesMaster_iff.1 adverts).1⟩, named⟩, ?_⟩
    by_cases member : s.roster.standing = .member
    · exact .inr (copy member)
    · exact .inl member

theorem retestMaster_spec (s : State) :
    (s.tb.master ≠ 0 → Fit s s.tb.master → retestMaster s = s) ∧
    (s.tb.master = 0 ∨ ¬ Fit s s.tb.master → (∀ f n, ¬ Chooses s f n) → retestMaster s = setMaster s 0) ∧
    (s.tb.master = 0 ∨ ¬ Fit s s.tb.master → ∀ f n, Best (Chooses s) f n → retestMaster s = setMaster s f) := by
  have retests (h : s.tb.master = 0 ∨ ¬ Fit s s.tb.master) : retestMaster s = setMaster s (chosenMaster s) := by
    refine if_pos (h.imp_right (fun unfit => ?_))
    rw [← Bool.not_eq_true, masterFit_iff]
    exact unfit
  refine ⟨fun numbered fit => if_neg ?_, fun h nobody => ?_, fun h f n best => ?_⟩
  · rintro (zero | unfit)
    · exact numbered zero
    · rw [(masterFit_iff _).2 fit] at unfit
      cases unfit
  · rw [retests h, chosenMaster, bestBy_none (fun _ => masterCandidates_iff) nobody]
  · rw [retests h, chosenMaster, bestBy_of_best (fun _ => masterCandidates_iff) (fun _ _ => timeRankOf_chooses) best]

theorem mergeMaster_spec (s : State) :
    let m := s.tb.master
    let followed := if m = s.own then actingRank s s.store.working.timeRank
      else (s.route m).elim 0 (fun r => r.contents.timeRank.toNat)
    ((m = 0 ∨ ∀ f n, ¬ Collects s f n) → mergeMaster s = s) ∧
    (∀ f n, m ≠ 0 → Best (Collects s) f n →
      ((followed < n ∨ n = followed ∧ f.val < m.val) → mergeMaster s = setMaster s f) ∧
      ((n < followed ∨ n = followed ∧ m.val ≤ f.val) → mergeMaster s = s)) := by
  intro m followed
  have rank : timeRankOf s m = followed := timeRankOf_eq m
  unfold mergeMaster
  refine ⟨?_, fun f n numbered best => ?_⟩
  · rintro (none | nobody)
    · exact if_pos none
    · dsimp only
      rw [bestBy_none (fun _ => mergeMasters_iff) nobody, if_neg (c := ((0 : FrameNo) ≠ 0 ∧ _)) (fun h => h.1 rfl)]
      exact ite_self _
  · rw [if_neg numbered]
    dsimp only
    rw [bestBy_of_best (fun _ => mergeMasters_iff) (fun _ _ => timeRankOf_collects) best, timeRankOf_collects best.1, rank]
    have better : betterRank (n, f.val) (followed, m.val) = true ↔ followed < n ∨ n = followed ∧ f.val < m.val :=
      betterRank_iff _ _
    refine ⟨fun higher => if_pos ⟨best.1.1, better.2 higher⟩, fun lower => if_neg ?_⟩
    rintro ⟨-, higher⟩
    have := better.1 higher
    omega

end choice

/-! ## Acts and timers (R93, R98 to R100) -/

section acts

variable {s : State} {ps : List Post}

/-- What an act of the unit that gave `b` and maybe a step posts. -/
def tbTold (c : Act) (step : Option Int) : Act :=
  ⟨c.s, c.posts ++ [.mirror .timebase,
    .notice (.time c.s.tb.state c.s.tb.master (if step.isSome then 1 else 0) (step.getD 0))]⟩

theorem tbAct_settled {f : Act → Act × Option Int} {a b c : Act} {step : Option Int} (act : f a = (b, step))
    (settled : (if b.s.tb.state ≠ a.s.tb.state then streamTimeChanged b else b) = c) :
    tbAct f a = if b.s.tb.state ≠ a.s.tb.state ∨ c.s.tb.master ≠ a.s.tb.master ∨ step.isSome then tbTold c step else c := by
  unfold tbAct
  rw [act]
  dsimp only
  rw [settled]
  unfold tbTold Act.post
  dsimp only
  rw [List.append_assoc] <;> rfl

theorem tbAct_eq (f : Act → Act × Option Int) (a : Act) :
    let b := (f a).1
    let c := if b.s.tb.state = a.s.tb.state then b else streamTimeChanged b
    tbAct f a = if b.s.tb.state ≠ a.s.tb.state ∨ c.s.tb.master ≠ a.s.tb.master ∨ (f a).2.isSome then tbTold c (f a).2
      else c := by
  intro b c
  exact tbAct_settled rfl (ite_not ..)

theorem tbPlain_eq (f : State → State) (s : State) (ps : List Post) :
    let v := f s
    let a := if v.tb.state = s.tb.state then (⟨v, ps⟩ : Act) else streamTimeChanged ⟨v, ps⟩
    tbPlain f ⟨s, ps⟩ =
      if v.tb.state = s.tb.state ∧ a.s.tb.master = s.tb.master then a
      else ⟨a.s, a.posts ++ [.mirror .timebase, .notice (.time a.s.tb.state a.s.tb.master 0 0)]⟩ := by
  intro v a
  refine (tbAct_eq _ _).trans ?_
  show (if v.tb.state ≠ s.tb.state ∨ a.s.tb.master ≠ s.tb.master ∨ (none : Option Int).isSome then tbTold a none else a) = _
  clear_value a
  by_cases still : v.tb.state = s.tb.state ∧ a.s.tb.master = s.tb.master
  · rw [if_pos still, if_neg]
    rintro (moved | moved | stepped)
    · exact moved still.1
    · exact moved still.2
    · cases stepped
  · rw [if_neg still, if_pos]
    · rfl
    · rw [Classical.not_and_iff_not_or_not] at still
      exact still.imp_right .inl

theorem emitsTime_iff : emitsTime s = true ↔
    s.tb.state = .master ∨ s.tb.state = .locked ∨ s.tb.state = .holdover ∧ s.tb.master ≠ 0 := by
  unfold emitsTime
  cases s.tb.state <;> simp

theorem tb_advanceTo (s : State) (t : Nat) : (advanceTo s t).tb.state = s.tb.state ∧
    (advanceTo s t).tb.master = s.tb.master ∧ (advanceTo s t).tb.distance = s.tb.distance := by
  unfold advanceTo
  generalize t - s.now = d
  exact ⟨rfl, rfl, rfl⟩

/-- What decides which ports a TIME goes to. -/
theorem upstreamPort_congr {v : State} (master : v.tb.master = s.tb.master) (own : v.own = s.own)
    (reach : v.reach = s.reach) : upstreamPort v = upstreamPort s := by
  unfold upstreamPort State.route
  rw [master, own, reach]

/-- What the emission timer emits at its limit. -/
theorem emitTime_timed (due : Nat) :
    let a := advanceTo s due
    let u : State := { a with tb := { a.tb with lastEmission := due } }
    emitTime u = if emitsTime s then
        (s.upPorts.filter (fun p => upstreamPort s != some p)).foldl (fun v p => offer v p ⟨ownCell s .time 0
          (timePayload s.tb.master (if s.tb.state = .master then 0 else s.tb.distance.getD 0) (quality s) 0), none⟩) u
      else u := by
  intro a u
  obtain ⟨state, master, distance⟩ := tb_advanceTo s due
  have state_u : u.tb.state = s.tb.state := state
  have master_u : u.tb.master = s.tb.master := master
  have distance_u : u.tb.distance = s.tb.distance := distance
  have ports : u.upPorts = s.upPorts := upPorts_advanceTo s due
  have own : u.own = s.own := own_advanceTo s due
  have upstream : upstreamPort u = upstreamPort s := upstreamPort_congr master_u own (advanceTo_reach s due)
  have cell (k : Kind) (b : List Byte) : ownCell u k 0 b = ownCell s k 0 b := ownCell_advanceTo s due k 0 b 0 0
  have quality_u : quality u = quality s := by
    unfold quality
    rw [state_u]
  have emits : emitsTime u = emitsTime s := by
    unfold emitsTime
    rw [state_u, master_u]
  clear_value u
  unfold emitTime Machine.timeCell offerEach
  rw [emits, ports, upstream, cell, state_u, master_u, distance_u, quality_u]

theorem loseUpstream_eq (now : Nat) (t : Timebase) :
    let c : TimeCounters := { t.counters with losses := t.counters.losses + 1 }
    loseUpstream now t = match t.state with
      | .locked => { t with state := .holdover, holdoverSince := some now, watchSince := none, counters := c }
      | .acquiring => { t with
          state := .free, correction := 0, slewResidue := 0, stepPending := false, lockCount := 0, watchSince := none
          counters := c }
      | .holdover | .free | .master => t := by
  unfold loseUpstream
  cases t.state <;> rfl

theorem setMaster_spec (s : State) (m : FrameNo) :
    let t := s.tb
    let self := m ≠ 0 ∧ m = s.own
    (self → t.state = .master → t.master = m → setMaster s m = s) ∧
    (self → ¬ (t.state = .master ∧ t.master = m) → setMaster s m = { s with tb := { t with
      state := .master, master := m, correction := 0, slewResidue := 0, stepPending := false, lockCount := 0
      excursions := 0, watchSince := none, holdoverSince := none, lastOffset := none, distance := some 0 } }) ∧
    (¬ self → m = t.master → setMaster s m = s) ∧
    (¬ self → m ≠ t.master → t.state = .master → setMaster s m = { s with tb := { t with
      state := .holdover, master := m, holdoverSince := some s.now } }) ∧
    (¬ self → m ≠ t.master → t.state ≠ .master → setMaster s m = { s with tb := loseUpstream s.now { t with
      master := m } }) := by
  intro t self
  unfold setMaster
  refine ⟨fun own state master => ?_, fun own changes => ?_, fun other same => ?_, fun other differs state => ?_,
    fun other differs state => ?_⟩
  · rw [if_pos own, if_pos ⟨state, master⟩]
  · rw [if_pos own, if_neg changes, ← own.2]
    rfl
  · rw [if_neg other, if_pos same]
  · rw [if_neg other, if_neg differs, if_pos state] <;> rfl
  · rw [if_neg other, if_neg differs, if_neg state] <;> rfl

end acts

/-- Settles O48. -/
theorem timeTimers : Obligations.TimeTimers := by
  unfold Obligations.TimeTimers
  refine ⟨fun s running => ?emission, fun s t running since => ?watch, loseUpstream_eq,
    fun s t running state since => ?holdover, tbPlain_eq, fun f a => ?acts, fun s => ?choice, setMaster_spec,
    fun f p a => ⟨rfl, rfl, rfl, rfl, rfl, rfl⟩⟩
  case emission =>
    intro due a u emits
    have timed := emitTime_timed (s := s) due
    have ends {v : State} (emitted : emitTime u = v) : Acts .emissionTimer s v [] := by
      show execEmissionTimer s = _
      unfold execEmissionTimer
      refine run_ends running ?_
      dsimp only
      rw [atTimer_some, ← emitted]
      rfl
    refine ⟨fun silent => ends (timed.trans (if_neg (fun h => silent (emitsTime_iff.1 h)))),
      fun sends => ends (timed.trans (if_pos (emitsTime_iff.2 sends)))⟩
  case watch =>
    show execTimeWatch s = _
    unfold execTimeWatch
    refine run_ends running ?_
    dsimp only
    rw [since, atTimer_some]
    rfl
  case holdover =>
    have limit : s.store.working.holdover * 1000000000 = holdoverTime s.store.working := by
      simp only [holdoverTime, second]
    show execHoldoverLimit s = _
    unfold execHoldoverLimit
    refine run_ends running ?_
    dsimp only
    rw [if_pos state, since, atTimer_some, limit]
    rfl
  case acts =>
    intro b c
    have act := tbAct_eq f a
    refine ⟨fun size stepped => ?_, fun calm moved => ?_, fun calm state master => ?_⟩
    · rw [act, if_pos (.inr (.inr (by rw [stepped] <;> rfl))), stepped]
      rfl
    · have moved : b.s.tb.state ≠ a.s.tb.state ∨ c.s.tb.master ≠ a.s.tb.master ∨ (f a).2.isSome :=
        moved.imp_right .inl
      rw [act]
      refine (if_pos moved).trans ?_
      rw [calm]
      rfl
    · rw [act]
      have kept : (if b.s.tb.state = a.s.tb.state then b else streamTimeChanged b) = b := if_pos state
      refine (if_neg ?_).trans kept
      rw [kept, calm]
      rintro (moved | moved | stepped)
      · exact moved state
      · exact moved master
      · cases stepped
  case choice =>
    intro rank member m fit chooses collects followed
    obtain ⟨kept, nobody, chosen⟩ := retestMaster_spec s
    obtain ⟨merged, others⟩ := mergeMaster_spec s
    exact ⟨kept, nobody, chosen, merged, others⟩

end Sys2Proof.MasterChoice

/-! SUPPORT. Beacons at the reach unit (R45 to R49), route changes (R54) and the ageing of the Reach Table (R50, R52). -/

namespace Sys2Proof.ReachActs

open Sys2Proof Sys2Proof.Machine Sys2Proof.Statements Sys2Proof.PortUnits Sys2Proof.PortQueues Sys2Proof.PortCells
  Sys2Proof.ReceivedCells Sys2Proof.RosterActs Sys2Proof.RosterCells Sys2Proof.RosterTimers

/-! ## A BEACON under the flood rules (R10, R12) -/

section flood

variable {rx : Rx} {s : State}

theorem origin_ne_zero (good : cellWf .beacon rx = true) (flooded : rx.dest.toNat = 63) : rx.origin ≠ 0 := by
  have fits := headerFits_of_good good
  rintro zero
  unfold headerFits at fits
  rw [flooded, zero] at fits
  revert fits
  decide

/-- What the port unit takes of a BEACON: one of no hops names the partner. -/
def heardBeacon (s : State) (rx : Rx) : State :=
  if rx.hops = 0 then (heard s rx).modPort rx.port (fun r =>
    { r with partnerFrame := rx.origin, silenceSince := some s.now }) else heard s rx

/-- Only the port's record changes. -/
theorem heardBeacon_frame (s : State) (rx : Rx) : { heardBeacon s rx with ports := s.ports } = s := by
  unfold heardBeacon
  split <;> rfl

theorem takeFlood_beacon (h : Arrives .beacon rx .up s) (flooded : rx.dest.toNat = 63) (o : Act → Act) :
    takeFlood .beacon rx o ⟨heard s rx, []⟩ = if rx.origin = s.own then
        ⟨(heardBeacon s rx).modCounters rx.port (fun c => { c with own := c.own + 1 }), []⟩
      else if isNew (floodRecord (s.flood.get rx.origin) .beacon) rx.incarnation rx.floodSeq then
        o ⟨floodCopies (recordFlood (heardBeacon s rx) .beacon rx) .beacon rx, []⟩
      else takeOffer rx ⟨heardBeacon s rx, []⟩ := by
  have port_up : ((heard s rx).port rx.port).state = .up := (port_heard s rx rx.port).trans h.port
  have partner : partnerBeacon s.now rx.origin ((heard s rx).port rx.port) =
      { (heard s rx).port rx.port with partnerFrame := rx.origin, silenceSince := some s.now } := by
    unfold partnerBeacon setPartnerFrame
    rw [if_pos port_up]
    simp only [if_neg (origin_ne_zero h.good flooded)]
  have heard_eq : (if rx.hops = 0 then (⟨heard s rx, []⟩ : Act).on (fun s => s.modPort rx.port (partnerBeacon s.now rx.origin))
      else ⟨heard s rx, []⟩) = ⟨heardBeacon s rx, []⟩ := by
    unfold heardBeacon
    by_cases direct : rx.hops = 0
    · rw [if_pos direct, if_pos direct]
      exact congrArg (Act.mk · []) (modPort_congr partner)
    · rw [if_neg direct, if_neg direct]
  have frame := heardBeacon_frame s rx
  have own : (heardBeacon s rx).own = s.own := (congrArg State.own frame :)
  have flood : (heardBeacon s rx).flood = s.flood := (congrArg State.flood frame :)
  unfold takeFlood
  simp only [true_and]
  rw [heard_eq]
  dsimp only
  rw [own, flood]
  rfl

end flood

/-! ## The tests of a new BEACON (R47) -/

section tests

variable {s : State} {rx : Rx}

theorem beaconFits_iff : beaconFits rx = true ↔ rx.payload.length = 20 ∧
    (parseContents rx.payload).frame.toNat = rx.origin.val ∧ (parseContents rx.payload).incarnation = rx.incarnation := by
  unfold beaconFits
  simp only [Bool.and_eq_true, beq_iff_eq, and_assoc]

theorem older_iff {n : Nat} (a b : BitVec n) : older a b = true ↔ a ≠ b ∧ newer a b = false := by
  unfold older
  rw [Bool.and_eq_true, bne_iff_ne, Bool.not_eq_true', and_comm]

/-- The incarnation of a BEACON is older than the entry's. -/
def Stale (s : State) (rx : Rx) : Prop :=
  ∃ r, s.route rx.origin = some r ∧ rx.incarnation ≠ r.incarnation ∧ newer rx.incarnation r.incarnation = false

theorem stale_iff : (match s.route rx.origin with
    | some r => older rx.incarnation r.incarnation
    | none => false) = true ↔ Stale s rx := by
  unfold Stale
  cases s.route rx.origin with
  | none => simp
  | some r => simp [older_iff]

theorem testBeacon_eq (known : s.own ≠ 0 ∧ s.reach.portSet.get rx.port = true) :
    (beaconFits rx = false → testBeacon s rx = .malformed) ∧
    (beaconFits rx = true → Stale s rx → testBeacon s rx = .stale) ∧
    (beaconFits rx = true → ¬ Stale s rx → rx.hops.val = 7 → testBeacon s rx = .far) ∧
    (beaconFits rx = true → ¬ Stale s rx → rx.hops.val < 7 → testBeacon s rx = .learn) := by
  have known : ¬ (s.own = 0 ∨ s.reach.portSet.get rx.port = false) := by
    rw [not_or, Bool.not_eq_false]
    exact known
  have limit : maxHops = 7 := rfl
  unfold testBeacon
  rw [if_neg known]
  refine ⟨fun unfit => if_pos unfit, fun fits stale => ?_, fun fits fresh far => ?_, fun fits fresh near => ?_⟩
  · rw [if_neg (by rw [fits]; decide)]
    exact if_pos (stale_iff.2 stale)
  · rw [if_neg (by rw [fits]; decide)]
    refine (if_neg (fun h => fresh (stale_iff.1 h))).trans (if_pos far)
  · rw [if_neg (by rw [fits]; decide)]
    refine (if_neg (fun h => fresh (stale_iff.1 h))).trans (if_neg (by omega))

end tests

/-! ## Route changes and offers (R49, R54) -/

section routes

theorem streamRouteChanged_eq (f : FrameNo) (s : State) (ps : List Post) :
    streamRouteChanged f ⟨s, ps⟩ = ⟨modSlots (fun _ => cutBlock s.now) (slotsOf s f) s, ps⟩ := by
  unfold streamRouteChanged Act.each modSlots
  dsimp only
  generalize now_eq : s.now = now
  generalize slotsOf s f = ns
  induction ns generalizing s with
  | nil => rfl
  | cons n ns ih =>
    have one : (⟨s, ps⟩ : Act).on (cutOff · n) = ⟨s.modSlot n (cutBlock now), ps⟩ := by
      rw [Act.on, cutOff_eq, now_eq]
    rw [List.foldl_cons, List.foldl_cons, one]
    exact ih _ now_eq

theorem mem_slotsOf (s : State) (f : FrameNo) (n : SlotIx) : n ∈ slotsOf s f ↔ (s.slot n).peer = f := by
  unfold slotsOf
  rw [List.mem_filter, beq_iff_eq, and_iff_right (mem_allSlots n)]

theorem routeChangedEvent_spec (f : FrameNo) (p : PortIx) (s : State) (ps : List Post) :
    let t := routeChangedEvent f p ⟨s, ps⟩
    let gone := BitVec.ofNat 32 ((s.link p).dQueue.filter (fun q => q.cell.dest.toNat == f.val)).length
    t.posts = ps ∧ t.s.stream.unmatched = s.stream.unmatched ∧
    { t.s with stream := s.stream } = s.modLink p (fun l => { l with
      dQueue := l.dQueue.filter (fun q => q.cell.dest.toNat != f.val)
      counters := { l.counters with reroute := l.counters.reroute + gone } }) ∧
    ∀ n, t.s.slot n = if (s.slot n).peer = f then cutBlock s.now (s.slot n) else s.slot n := by
  intro t gone
  have rerouted : s.modLink p (rerouteLink f) = s.modLink p (fun l => { l with
      dQueue := l.dQueue.filter (fun q => q.cell.dest.toNat != f.val)
      counters := { l.counters with reroute := l.counters.reroute + gone } }) := modLink_congr rfl
  have t_eq : t = ⟨modSlots (fun _ => cutBlock s.now) (slotsOf s f) (s.modLink p (rerouteLink f)), ps⟩ :=
    streamRouteChanged_eq f _ ps
  obtain ⟨frame, unmatched⟩ := modSlots_frame (fun _ => cutBlock s.now) (slotsOf s f) (s.modLink p (rerouteLink f))
  rw [t_eq]
  refine ⟨rfl, unmatched, (frame.trans rerouted :), fun n => ?_⟩
  have listed := mem_slotsOf s f n
  have nodup : (slotsOf s f).Nodup := allSlots_nodup.filter _
  refine (modSlots_slot nodup _ n).trans ?_
  by_cases peer : (s.slot n).peer = f
  · rw [if_pos (listed.2 peer), if_pos peer] <;> rfl
  · rw [if_neg (fun h => peer (listed.1 h)), if_neg peer] <;> rfl

variable {rx : Rx} {s : State} {ps : List Post} {r : Route}

theorem takeOffer_none (off : s.own = 0 ∨ s.reach.portSet.get rx.port = false ∨ rx.hops.val = 7 ∨
    s.route rx.origin = none) : takeOffer rx ⟨s, ps⟩ = ⟨s, ps⟩ := by
  unfold takeOffer
  by_cases deaf : s.own = 0 ∨ s.reach.portSet.get rx.port = false ∨ rx.hops.val = maxHops
  · exact if_pos deaf
  · rw [if_neg deaf]
    have unknown : s.route rx.origin = none := by
      rw [not_or, not_or] at deaf
      rcases off with h | h | h | h
      · exact absurd h deaf.1
      · exact absurd h deaf.2.1
      · exact absurd h deaf.2.2
      · exact h
    dsimp only
    rw [unknown]

theorem takeOffer_known (numbered : s.own ≠ 0) (port : s.reach.portSet.get rx.port = true) (near : rx.hops.val < 7)
    (route : s.route rx.origin = some r) : takeOffer rx ⟨s, ps⟩ =
      if r.incarnation ≠ rx.incarnation then ⟨s, ps⟩ else
        (judgeOffer r rx).elim ⟨s, ps⟩ (fun n =>
          let w : Act := ⟨countReach (setRoute s rx.origin (some n.1)) (fun c =>
            if n.2 then { c with late := c.late + 1 } else { c with improved := c.improved + 1 }), ps⟩
          if n.1.port = r.port then w else routeChangedEvent rx.origin r.port w) := by
  have heard : ¬ (s.own = 0 ∨ s.reach.portSet.get rx.port = false ∨ rx.hops.val = maxHops) := by
    have limit : maxHops = 7 := rfl
    rw [not_or, not_or, Bool.not_eq_false]
    exact ⟨numbered, port, by omega⟩
  unfold takeOffer
  rw [if_neg heard]
  dsimp only
  rw [route]
  dsimp only
  by_cases incarnation : r.incarnation ≠ rx.incarnation
  · rw [if_pos incarnation, if_pos incarnation]
  · rw [if_neg incarnation, if_neg incarnation]
    cases judgeOffer r rx <;> rfl

theorem judgeOffer_cases (r : Route) (rx : Rx) :
    let h := rx.hops.val + 1
    let better := rx.floodSeq = r.sequence ∧ (h < r.hops ∨ h = r.hops ∧ rx.port.val < r.port.val)
    let late := rx.floodSeq ≠ r.sequence ∧ newer rx.floodSeq r.sequence = true
    (¬ better ∧ ¬ late → judgeOffer r rx = none) ∧
    (better → judgeOffer r rx = some ({ r with hops := h, port := rx.port }, false)) ∧
    (late → judgeOffer r rx =
      some ({ r with hops := h, port := rx.port, sequence := rx.floodSeq, age := 0, refreshed := true }, true)) := by
  intro h better late
  unfold judgeOffer
  dsimp only
  refine ⟨fun ⟨notBetter, notLate⟩ => ?_, fun ⟨same, nearer⟩ => ?_, fun ⟨differs, newer⟩ => ?_⟩
  · by_cases same : rx.floodSeq = r.sequence
    · rw [if_pos same, if_neg (fun nearer => notBetter ⟨same, nearer⟩)]
    · rw [if_neg same, if_neg (fun newer => notLate ⟨same, newer⟩)]
  · rw [if_pos same, if_pos nearer]
    rfl
  · rw [if_neg differs, if_pos newer]
    rfl

end routes

/-! ## Learning (R48) -/

section learning

variable {rx : Rx} {s v : State}

/-- The Reach Table entry of a learned BEACON, and whether it replaces another serial. -/
def learned (v : State) (rx : Rx) (conflict : Bool) : State :=
  { v with reach := { v.reach with
    table := upd v.reach.table rx.origin (fun _ => some {
      hops := rx.hops.val + 1, port := rx.port, incarnation := rx.incarnation, sequence := rx.floodSeq, age := 0
      refreshed := true, contents := parseContents rx.payload })
    counters := { v.reach.counters with
      learned := v.reach.counters.learned + 1
      conflict := if conflict then v.reach.counters.conflict + 1 else v.reach.counters.conflict } } }

theorem learnBeacon_new (unknown : v.route rx.origin = none) :
    learnBeacon rx ⟨v, []⟩ = advertEvent rx.origin (reachGainedEvent rx.origin ⟨learned v rx false, []⟩) := by
  unfold learnBeacon
  dsimp only
  rw [unknown]
  rfl

theorem learnBeacon_known {r : Route} (known : v.route rx.origin = some r) :
    let w := learned v rx (r.contents.serial != (parseContents rx.payload).serial)
    learnBeacon rx ⟨v, []⟩ = advertEvent rx.origin
      (if r.port = rx.port then ⟨w, []⟩ else routeChangedEvent rx.origin r.port ⟨w, []⟩) := by
  intro w
  unfold learnBeacon
  dsimp only
  rw [known]
  rfl

end learning

/-- Settles O49. -/
theorem beaconCell : Obligations.BeaconCell := by
  unfold Obligations.BeaconCell
  refine ⟨fun rx s h flooded => ?beacon, fun rx s ps => ⟨takeOffer_none, fun r numbered port near route => ?offer⟩,
    fun f a => ⟨rfl, rfl⟩, routeChangedEvent_spec⟩
  case beacon =>
    intro u v c fresh known fits stale count
    have ends : Ends (.beacon rx) s (takeFlood .beacon rx (takeBeacon rx) ⟨heard s rx, []⟩) := ends_flooded h flooded
    rw [takeFlood_beacon h flooded] at ends
    have frame : { v with links := u.links } = recordFlood u .beacon rx :=
      floodCopies_frame (recordFlood u .beacon rx) .beacon rx
    have frame_u : { u with ports := s.ports } = s := heardBeacon_frame s rx
    have own : v.own = s.own := (congrArg State.own frame :).trans (congrArg State.own frame_u :)
    have reach : v.reach = s.reach := (congrArg State.reach frame :).trans (congrArg State.reach frame_u :)
    have route (f : FrameNo) : v.route f = s.route f := by
      unfold State.route
      rw [reach]
    refine ⟨fun self => ?_, fun other old => ?_, fun other new => ?_⟩
    · rw [if_pos self] at ends
      exact ends
    · rw [if_neg other, if_neg old] at ends
      exact ends
    · rw [if_neg other, if_pos new] at ends
      have ends {a : Act} (act : takeBeacon rx ⟨v, []⟩ = a) : Ends (.beacon rx) s a := by
        have taken : Ends (.beacon rx) s (takeBeacon rx ⟨v, []⟩) := ends
        rw [act] at taken
        exact taken
      have known_iff : known ↔ v.own ≠ 0 ∧ v.reach.portSet.get rx.port = true := by rw [own, reach]
      have stale_iff : stale ↔ Stale v rx := by
        unfold Stale
        rw [route]
      have fits_iff : beaconFits rx = true ↔ fits := beaconFits_iff
      clear_value v
      refine ⟨fun unknown => ends ?_, fun known unfit => ends ?_, fun known fit old => ends ?_,
        fun known fit young far => ends ?_, fun known fit young near => ?_⟩
      · have discarded : testBeacon v rx = .discard := by
          refine if_pos ?_
          rw [← Bool.not_eq_true, ← (Classical.not_not : ¬ v.own ≠ 0 ↔ v.own = 0), ← Classical.not_and_iff_not_or_not, ← known_iff]
          exact unknown
        unfold takeBeacon
        dsimp only
        rw [discarded]
      · obtain ⟨malformed, -⟩ := testBeacon_eq (known_iff.1 known)
        unfold takeBeacon
        dsimp only
        rw [malformed (Bool.eq_false_iff.2 (fun fit => unfit (fits_iff.1 fit)))] <;> rfl
      · obtain ⟨-, staled, -⟩ := testBeacon_eq (known_iff.1 known)
        unfold takeBeacon
        dsimp only
        rw [staled (fits_iff.2 fit) (stale_iff.1 old)] <;> rfl
      · obtain ⟨-, -, fared, -⟩ := testBeacon_eq (known_iff.1 known)
        unfold takeBeacon
        dsimp only
        rw [fared (fits_iff.2 fit) (fun old => young (stale_iff.2 old)) far] <;> rfl
      · obtain ⟨-, -, -, learns⟩ := testBeacon_eq (known_iff.1 known)
        have ends {a : Act} (act : learnBeacon rx ⟨v, []⟩ = a) : Ends (.beacon rx) s a := by
          refine ends ?_
          unfold takeBeacon
          dsimp only
          rw [learns (fits_iff.2 fit) (fun old => young (stale_iff.2 old)) near]
          exact act
        intro route' w
        cases entry : s.route rx.origin with
        | none => exact ends (learnBeacon_new ((route rx.origin).trans entry))
        | some r =>
          have act := learnBeacon_known (rx := rx) ((route rx.origin).trans entry)
          dsimp only
          by_cases same : r.port = rx.port
          · rw [if_pos same]
            exact ends (act.trans (congrArg (advertEvent rx.origin) (if_pos same)))
          · rw [if_neg same]
            exact ends (act.trans (congrArg (advertEvent rx.origin) (if_neg same)))
  case offer =>
    intro h better late moved
    obtain ⟨neither, isBetter, isLate⟩ := judgeOffer_cases r rx
    have offered := takeOffer_known (ps := ps) numbered port near route
    refine ⟨?_, fun incarnation nearer => ?_, fun incarnation newer => ?_⟩
    · rintro (differs | worse)
      · exact offered.trans (if_pos differs)
      · refine offered.trans ?_
        rw [neither worse]
        exact ite_self _
    · refine offered.trans ((if_neg (fun differs => differs incarnation)).trans ?_)
      rw [isBetter nearer]
      rfl
    · refine offered.trans ((if_neg (fun differs => differs incarnation)).trans ?_)
      rw [isLate newer]
      rfl

end Sys2Proof.ReachActs

/-! SUPPORT. The period timer of the reach unit: the BEACON (R45, R46) and the ageing (R50, R52). -/

namespace Sys2Proof.ReachAgeing

open Sys2Proof Sys2Proof.Machine Sys2Proof.Statements Sys2Proof.PortUnits Sys2Proof.RosterActs

section ageing

variable {s : State}

/-- An entry of the Reach Table as an expiry that it survives, or does not, leaves it. -/
def aged (r : Route) : Route :=
  if r.refreshed then { r with refreshed := false, age := 0 }
  else if r.age + 1 = 3 then r
  else { r with age := r.age + 1 }

theorem agesOut_iff (r : Route) : agesOut r = true ↔ r.refreshed = false ∧ r.age + 1 = 3 := by
  unfold agesOut ageLimit
  rw [Bool.and_eq_true, Bool.not_eq_true', beq_iff_eq]

/-- What the expiry makes of one frame's entry. -/
def ageFrame (s : State) (f : FrameNo) : State :=
  match s.route f with
  | some r => if agesOut r then s else setRoute s f (some (ageRoute r))
  | none => s

theorem ageFrame_eq (s : State) (f : FrameNo) : ageFrame s f =
    { s with reach := { s.reach with table := upd s.reach.table f (Option.map aged) } } := by
  have kept (h : (s.reach.table.get f).map aged = s.route f) :
      s = { s with reach := { s.reach with table := upd s.reach.table f (Option.map aged) } } := by
    have table : upd s.reach.table f (Option.map aged) = s.reach.table := by
      rw [upd_congr (g := fun _ => s.route f) h]
      exact upd_self rfl
    rw [table]
  unfold ageFrame
  cases route : s.route f with
  | none => exact kept (by rw [show s.reach.table.get f = none from route, route] <;> rfl)
  | some r =>
    have entry : s.reach.table.get f = some r := route
    dsimp only
    by_cases out : agesOut r = true
    · rw [if_pos out]
      obtain ⟨idle, last⟩ := (agesOut_iff r).1 out
      refine kept ?_
      rw [entry, route, Option.map_some, aged, idle, if_neg (by decide), if_pos last]
    · rw [if_neg out]
      have aged_eq : ageRoute r = aged r := by
        unfold ageRoute aged
        by_cases refreshed : r.refreshed = true
        · rw [if_pos refreshed, if_pos refreshed]
        · rw [if_neg refreshed, if_neg refreshed, if_neg]
          exact fun last => out ((agesOut_iff r).2 ⟨Bool.eq_false_iff.2 refreshed, last⟩)
      have table : upd s.reach.table f (fun _ => some (ageRoute r)) = upd s.reach.table f (Option.map aged) :=
        upd_congr (by rw [entry, Option.map_some, aged_eq])
      unfold setRoute State.modReach
      dsimp only
      rw [table]

theorem foldl_ageFrame (fs : List FrameNo) (s : State) : fs.foldl ageFrame s =
    { s with reach := { s.reach with table := fs.foldl (fun v f => upd v f (Option.map aged)) s.reach.table } } := by
  induction fs generalizing s with
  | nil => rfl
  | cons f fs ih =>
    rw [List.foldl_cons, ih, ageFrame_eq]
    rfl

theorem route_foldl_ageFrame {f : FrameNo} (nonzero : f ≠ 0) :
    (allFrames.foldl ageFrame s).route f = (s.route f).map aged := by
  rw [foldl_ageFrame]
  refine (get_foldl_upd (fun _ => Option.map aged) allFrames allFrames_nodup s.reach.table f).trans ?_
  exact if_pos ((mem_allFrames f).2 nonzero)

/-- The entries that an expiry ends. -/
def endedFrames (s : State) : List FrameNo :=
  allFrames.filter (fun f => (s.route f).any (fun r => !r.refreshed && r.age + 1 == 3))

theorem ageTable_eq (s : State) (ps : List Post) : ageTable ⟨s, ps⟩ =
    (endedFrames s).foldl (fun a f => a.race3 (rosterReachLost f) (timeReachLost f) (streamReachLost f))
      ⟨(endedFrames s).foldl markUnknown (allFrames.foldl ageFrame s), ps⟩ := by
  have ended : allFrames.filter (fun f => match s.route f with | some r => agesOut r | none => false) = endedFrames s := by
    unfold endedFrames
    congr 1
    funext f
    cases s.route f <;> rfl
  show loseEntries (allFrames.filter (fun f => match s.route f with | some r => agesOut r | none => false))
    ⟨allFrames.foldl ageFrame s, ps⟩ = _
  rw [ended]
  generalize endedFrames s = lost
  generalize allFrames.foldl ageFrame s = v
  rfl

end ageing

theorem ownContents_eq (s : State) :
    let leaving := s.roster.standing = .leaving
    ownContents s =
      { frame := BitVec.ofNat 8 s.own.val
        anchorRank := BitVec.ofNat 8 (if leaving then 0 else s.store.working.anchorRank.val)
        timeRank := BitVec.ofNat 8 (if leaving then 0 else s.store.working.timeRank.val)
        timeState := BitVec.ofNat 8 (timeStateCode s.tb.state), serial := s.serial, incarnation := s.store.incarnation
        generation := s.roster.generation, followedAnchor := BitVec.ofNat 8 s.roster.anchor.val
        followedMaster := BitVec.ofNat 8 s.tb.master.val, standing := BitVec.ofNat 8 (standingCode s.roster.standing)
        leaving := if leaving then 1 else 0 } := by
  intro leaving
  have flag : BitVec.ofNat 8 (flagCode (s.roster.standing == .leaving)) = if leaving then 1 else 0 := by
    by_cases h : s.roster.standing = .leaving
    · rw [if_pos (show leaving from h), h]
      rfl
    · rw [if_neg (show ¬ leaving from h), beq_eq_false_iff_ne.2 h]
      rfl
  unfold ownContents
  rw [flag]

/-- Settles O50. -/
theorem periodTimer : Obligations.PeriodTimer := by
  unfold Obligations.PeriodTimer
  refine ⟨fun s running => ?timer, fun s => ?beacon, fun s ps => ?ageing, fun s f => rfl⟩
  case timer =>
    intro due a
    show execPeriodTimer s = _
    unfold execPeriodTimer
    refine run_ends running ?_
    dsimp only
    rw [atTimer_some]
    rfl
  case beacon =>
    intro leaving q c
    have contents : ownContents s = c := ownContents_eq s
    unfold originateBeacon
    refine ⟨fun unnumbered => if_pos unnumbered, fun numbered => (if_neg numbered).trans ?_⟩
    have contents_u : ownContents (s.modReach (fun r => { r with ownSequence := r.ownSequence + 1 })) = c := contents
    dsimp only
    rw [contents_u]
    rfl
  case ageing =>
    refine ⟨allFrames.foldl ageFrame s, ageTable_eq s ps, ?_, ?_, fun f nonzero => route_foldl_ageFrame nonzero⟩
    · rw [foldl_ageFrame]
    · rw [foldl_ageFrame]

end Sys2Proof.ReachAgeing

/-! SUPPORT. The note path: SEND_NOTE (R161, R162), a NOTE at its destination (R163), answers and their timer (R164). -/

namespace Sys2Proof.NoteActs

open Sys2Proof Sys2Proof.Machine Sys2Proof.Statements Sys2Proof.PortUnits Sys2Proof.PortQueues Sys2Proof.ReceivedCells
  Sys2Proof.Delivery Sys2Proof.ExchangeEvents Sys2Proof.OrderWindow Sys2Proof.RosterCells Sys2Proof.MasterChoice

/-! ## Sending (R161, R162) -/

section sending

variable {s : State} {ps : List Post} {o : Order} {dest : FrameNo}

/-- The destination of a SEND_NOTE is another frame's number. -/
def Named (s : State) (o : Order) : Prop := 1 ≤ noteDest o ∧ noteDest o ≤ 31 ∧ noteDest o ≠ s.own.val

theorem bodyLengthOk_iff (n : Nat) : bodyLengthOk n = true ↔ 1 ≤ n ∧ n ≤ 192 := decide_eq_true_iff

theorem unnamed_iff : (noteDest o = 0 ∨ 31 < noteDest o ∨ noteDest o = s.own.val) ↔ ¬ Named s o := by
  unfold Named
  omega

theorem noteBadParameter_dest (unnamed : ¬ Named s o) : noteBadParameter s o = some 0 := if_pos (unnamed_iff.2 unnamed)

theorem noteBadParameter_pointer (named : Named s o) (null : notePointer o = 0) : noteBadParameter s o = some 1 := by
  unfold noteBadParameter
  rw [if_neg (fun h => unnamed_iff.1 h named), if_pos null]

theorem noteBadParameter_length (named : Named s o) (pointer : notePointer o ≠ 0)
    (outside : ¬ (1 ≤ noteLength o ∧ noteLength o ≤ 192)) : noteBadParameter s o = some 2 := by
  have refused : bodyLengthOk (noteLength o) = false := Bool.eq_false_iff.2 (fun h => outside ((bodyLengthOk_iff _).1 h))
  unfold noteBadParameter
  rw [if_neg (fun h => unnamed_iff.1 h named), if_neg pointer, if_pos refused]

theorem noteBadParameter_none (named : Named s o) (pointer : notePointer o ≠ 0) (low : 1 ≤ noteLength o)
    (high : noteLength o ≤ 192) : noteBadParameter s o = none := by
  have allowed : ¬ bodyLengthOk (noteLength o) = false := by rw [(bodyLengthOk_iff _).2 ⟨low, high⟩]; decide
  unfold noteBadParameter
  rw [if_neg (fun h => unnamed_iff.1 h named), if_neg pointer, if_neg allowed]

theorem noteRoom_iff : noteRoom s = true ↔ s.notes.window.length < 4 := decide_eq_true_iff

theorem noteOrder_bad {i : Nat} (bad : noteBadParameter s o = some i) :
    noteOrder ⟨s, []⟩ o = complete ⟨s, []⟩ o.sequence .badOrder i := by
  unfold noteOrder
  dsimp only
  rw [bad] <;> rfl

theorem noteOrder_valid (valid : noteBadParameter s o = none) : noteOrder ⟨s, []⟩ o =
    if noteRoom s = true ∧ s.notes.waiting = [] then takeNoteOrder ⟨s, []⟩ o
    else ⟨{ held s o with notes := { s.notes with waiting := s.notes.waiting ++ [o.sequence] } }, []⟩ := by
  unfold noteOrder
  dsimp only
  rw [valid] <;> rfl

/-- The destination is a MEMBER that can be reached. -/
def There (s : State) (dest : FrameNo) : Prop := (s.entry dest).state = .member ∧ (s.route dest).isSome = true

theorem away_iff : (copyMember s dest = false ∨ (s.route dest).isNone = true) ↔ ¬ There s dest := by
  unfold There
  rw [← Bool.not_eq_true, copyMember_iff, Classical.not_and_iff_not_or_not, Bool.not_eq_true, Option.isSome_eq_false_iff]

variable (index : noteDest o = dest.val)

include index

theorem takeNoteOrder_away (member : s.roster.standing = .member) (away : ¬ There s dest) :
    takeNoteOrder ⟨s, ps⟩ o = complete ⟨s, ps⟩ o.sequence .unreachable := by
  unfold takeNoteOrder
  dsimp only
  rw [frameOf_val index, if_neg (fun h => h member), if_pos (away_iff.2 away)]

theorem takeNoteOrder_fault {x : Nat} (member : s.roster.standing = .member) (there : There s dest)
    (fault : firstFault s.mem.readFaults (notePointer o) (noteLength o) = some x) :
    takeNoteOrder ⟨s, ps⟩ o = (complete ⟨s, ps⟩ o.sequence .memoryFault).post (faultPost .noteBodyRead x) := by
  unfold takeNoteOrder
  dsimp only
  rw [frameOf_val index, if_neg (fun h => h member), if_neg (fun h => away_iff.1 h there), memRead_error fault] <;> rfl

theorem takeNoteOrder_sent {r : Route} (member : s.roster.standing = .member) (copy : (s.entry dest).state = .member)
    (route : s.route dest = some r) (readable : Readable s.mem (notePointer o) (noteLength o)) :
    let body := bytesIn s.mem (notePointer o) (noteLength o)
    let u := offer (held s o) r.port ⟨ownCell s .note dest.val (notePayload s.notes.number s.serial body), none⟩
    takeNoteOrder ⟨s, ps⟩ o = ⟨{ u with notes := { s.notes with
      window := s.notes.window ++ [⟨o.sequence, dest, s.notes.number, noteLength o, s.now⟩]
      number := s.notes.number + 1
      counters := { s.notes.counters with sent := s.notes.counters.sent + 1 } } }, ps⟩ := by
  intro body u
  have there : There s dest := ⟨copy, by rw [route] <;> rfl⟩
  have length : body.length = noteLength o := by simp [body, bytesIn]
  have sent : sendRouted (held s o) dest (noteCell (held s o) dest body) = u :=
    sendRouted_route (s := held s o) route _
  have taken : takeNoteOrder ⟨s, ps⟩ o = ⟨sendNote (held s o) o dest body, ps⟩ := by
    unfold takeNoteOrder
    dsimp only
    rw [frameOf_val index, if_neg (fun h => h member), if_neg (fun h => away_iff.1 h there),
      memRead_bytesIn readable] <;> rfl
  rw [taken]
  unfold sendNote
  rw [sent, length]
  rfl

end sending

/-- Settles O51. -/
theorem sendNote : Obligations.SendNote := by
  unfold Obligations.SendNote
  refine ⟨fun s o oldest => ?order, fun s ps o dest index => ?taken, fun s running idle => ?idle,
    fun s q rest o running room waiting found => ?waiting⟩
  case order =>
    have ends {a : Act} (act : noteOrder ⟨s, []⟩ o = a) : Ends .sendNote s a := ends_order rfl oldest act
    intro bad named
    refine ⟨fun unnamed => ends (noteOrder_bad (noteBadParameter_dest unnamed)),
      fun named null => ends (noteOrder_bad (noteBadParameter_pointer named null)),
      fun named pointer outside => ends (noteOrder_bad (noteBadParameter_length named pointer outside)),
      fun named pointer low high => ?_⟩
    have valid := noteOrder_valid (noteBadParameter_none named pointer low high)
    refine ⟨fun room free => ends (valid.trans (if_pos ⟨noteRoom_iff.2 room, free⟩)), fun full => ?_⟩
    refine ends (valid.trans (if_neg ?_))
    rintro ⟨room, free⟩
    have := noteRoom_iff.1 room
    rcases full with full | queued
    · omega
    · exact queued free
  case taken =>
    intro member there body
    exact ⟨fun notMember => if_pos notMember, takeNoteOrder_away index, fun x => takeNoteOrder_fault index,
      fun r => takeNoteOrder_sent index⟩
  case idle =>
    show execWaitingNoteTaken s = _
    unfold execWaitingNoteTaken
    refine run_ends running ?_
    unfold takeWaitingNote
    by_cases room : noteRoom s = false
    · exact if_pos room
    · rw [if_neg room]
      have none_waits : s.notes.waiting = [] := by
        refine idle.resolve_left (fun full => ?_)
        have := noteRoom_iff.1 (Bool.not_eq_false _ ▸ room)
        omega
      dsimp only
      rw [none_waits]
  case waiting =>
    show execWaitingNoteTaken s = _
    unfold execWaitingNoteTaken
    refine run_ends running ?_
    unfold takeWaitingNote
    rw [if_neg (by rw [noteRoom_iff.2 room]; decide)]
    dsimp only
    rw [waiting]
    have found' : windowOrder (s.modNotes (fun n => { n with waiting := rest })) q = some o := found
    dsimp only [Act.on]
    rw [found'] <;> rfl

end Sys2Proof.NoteActs

/-! SUPPORT. A NOTE at its destination (R163), the answers to a note and its timer (R164). -/

namespace Sys2Proof.NoteCellActs

open Sys2Proof Sys2Proof.Machine Sys2Proof.Statements Sys2Proof.PortUnits Sys2Proof.PortQueues Sys2Proof.ReceivedCells
  Sys2Proof.Delivery Sys2Proof.ExchangeEvents Sys2Proof.OrderWindow Sys2Proof.MasterChoice Sys2Proof.NoteActs

/-! ## At the destination (R163) -/

section destination

variable {rx : Rx} {s : State} {k : InboxIx}

/-- A NOTE of the right form. -/
def NoteForm (b : List Byte) : Prop := 1 ≤ beAt b 2 2 ∧ beAt b 2 2 ≤ 192 ∧ b.length = 16 + beAt b 2 2

theorem noteFits_iff (b : List Byte) : noteFits b = true ↔ NoteForm b := by
  unfold noteFits NoteForm
  rw [Bool.and_eq_true, bodyLengthOk_iff, beq_iff_eq, and_assoc] <;> rfl

/-- The sender and this part are MEMBER. -/
def Known (s : State) (rx : Rx) : Prop := s.roster.standing = .member ∧ (s.entry rx.origin).state = .member

theorem unknown_iff : (s.roster.standing ≠ .member ∨ copyMember s rx.origin = false) ↔ ¬ Known s rx := by
  unfold Known
  rw [Classical.not_and_iff_not_or_not, ← Bool.not_eq_true, copyMember_iff]

/-- The search through the indices meets the least one that passes the test. -/
theorem find?_finRange_eq_some {n : Nat} {p : Fin n → Bool} {k : Fin n} :
    (List.finRange n).find? p = some k ↔ p k = true ∧ ∀ j, j < k → p j = false := by
  rw [List.find?_eq_some_iff_getElem]
  refine and_congr_right fun _ => ⟨?_, fun clear => ?_⟩
  · rintro ⟨i, inside, here, clear⟩ j below
    have i_eq : i = k.val := by rw [← here, List.getElem_finRange] <;> rfl
    have at_j := clear j.val (i_eq ▸ below)
    rw [List.getElem_finRange, Bool.not_eq_true'] at at_j
    exact at_j
  · have inside : k.val < (List.finRange n).length := by rw [List.length_finRange]; exact k.isLt
    refine ⟨k.val, inside, by rw [List.getElem_finRange] <;> rfl, fun j below => ?_⟩
    rw [List.getElem_finRange, Bool.not_eq_true']
    exact clear _ below

theorem inbox_full : allInbox.find? (fun k => !s.notes.inbox.get k) = none ↔ ∀ k, s.notes.inbox.get k = true := by
  unfold allInbox
  simp [List.mem_finRange]

theorem inbox_first : allInbox.find? (fun k => !s.notes.inbox.get k) = some k ↔
    s.notes.inbox.get k = false ∧ ∀ j, j < k → s.notes.inbox.get j = true := by
  unfold allInbox
  simp only [find?_finRange_eq_some, Bool.not_eq_true', Bool.not_eq_false']

theorem takeNote_malformed (unfit : ¬ NoteForm rx.payload) : takeNote rx ⟨s, []⟩ =
    ⟨countNotes s (fun c => { c with malformed := c.malformed + 1 }), []⟩ := by
  have refused : noteFits rx.payload = false := Bool.eq_false_iff.2 (fun h => unfit ((noteFits_iff _).1 h))
  exact if_pos refused

section known

variable (fits : NoteForm rx.payload)

include fits

theorem takeNote_refused (unknown : ¬ Known s rx) : takeNote rx ⟨s, []⟩ =
    ⟨countNotes s (fun c => { c with refused := c.refused + 1 }), []⟩ := by
  have taken : ¬ noteFits rx.payload = false := by rw [(noteFits_iff _).2 fits]; decide
  unfold takeNote
  dsimp only
  rw [if_neg taken, if_pos (unknown_iff.2 unknown)] <;> rfl

theorem takeNote_known (known : Known s rx) : takeNote rx ⟨s, []⟩ =
    if s.ex.state ≠ .attached then ⟨noteNotAttached s rx (BitVec.ofNat 16 (beAt rx.payload 0 2)), []⟩
    else (allInbox.find? (fun k => !s.notes.inbox.get k)).elim
      ⟨noteBusy s rx (BitVec.ofNat 16 (beAt rx.payload 0 2)), []⟩
      (fun k => writeNote ⟨s, []⟩ rx (BitVec.ofNat 16 (beAt rx.payload 0 2)) k) := by
  have taken : ¬ noteFits rx.payload = false := by rw [(noteFits_iff _).2 fits]; decide
  unfold takeNote
  dsimp only
  rw [if_neg taken, if_neg (fun h => unknown_iff.1 h known)]
  by_cases detached : s.ex.state ≠ .attached
  · rw [if_pos detached, if_pos detached] <;> rfl
  · rw [if_neg detached, if_neg detached]
    cases allInbox.find? (fun k => !s.notes.inbox.get k) <;> rfl

theorem length_noteSlotBytes : (noteSlotBytes rx).length = 63 + beAt rx.payload 2 2 := by
  obtain ⟨-, -, length⟩ := fits
  unfold noteSlotBytes
  simp only [List.length_append, length_leBytes, length_zeros, List.length_drop, length, noteHeadSize]
  omega

variable (number : BitVec 16)

theorem writeNote_fits (fit : Writable s.mem (inboxAddress s k) (64 + beAt rx.payload 2 2)) :
    ∃ m, Stored s.mem m (inboxAddress s k) (leBytes 1 1 ++ noteSlotBytes rx) ∧
      writeNote ⟨s, []⟩ rx number k = ⟨answerNote (countNotes (holdInbox { s with mem := m } k true)
        (fun c => { c with accepted := c.accepted + 1 })) rx number .accepted k.val, [.notice (.notes (bit 8 k.val))]⟩ := by
  have length := length_noteSlotBytes fits
  have flag : (leBytes 1 1).length = 1 := rfl
  obtain ⟨-, written⟩ := writeRuns_two (s := s) (a := inboxAddress s k + 1) (b := inboxAddress s k)
    (as := noteSlotBytes rx) (bs := leBytes 1 1)
  obtain ⟨m, body, -, flagged⟩ := written (writable_sub fit (by omega) (by omega))
  obtain ⟨m', head, runs⟩ := flagged (writable_sub fit (by omega) (by omega))
  refine ⟨m', stored_cons body head, ?_⟩
  unfold writeNote noteSlotRuns
  dsimp only
  rw [runs] <;> rfl

theorem writeNote_bodyFault {x : Nat}
    (fault : firstFault s.mem.writeFaults (inboxAddress s k + 1) (63 + beAt rx.payload 2 2) = some x) :
    writeNote ⟨s, []⟩ rx number k = ⟨noteBusy s rx number, [faultPost .inboxWrite x]⟩ := by
  obtain ⟨faulted, -⟩ := writeRuns_two (s := s) (a := inboxAddress s k + 1) (b := inboxAddress s k)
    (as := noteSlotBytes rx) (bs := leBytes 1 1)
  unfold writeNote noteSlotRuns
  dsimp only
  rw [faulted x ((length_noteSlotBytes fits).symm ▸ fault)] <;> rfl

theorem writeNote_flagFault {x : Nat} (fit : Writable s.mem (inboxAddress s k + 1) (63 + beAt rx.payload 2 2))
    (fault : firstFault s.mem.writeFaults (inboxAddress s k) 1 = some x) :
    ∃ m, Stored s.mem m (inboxAddress s k + 1) (noteSlotBytes rx) ∧
      writeNote ⟨s, []⟩ rx number k = ⟨noteBusy { s with mem := m } rx number, [faultPost .inboxWrite x]⟩ := by
  obtain ⟨-, written⟩ := writeRuns_two (s := s) (a := inboxAddress s k + 1) (b := inboxAddress s k)
    (as := noteSlotBytes rx) (bs := leBytes 1 1)
  obtain ⟨m, body, faulted, -⟩ := written ((length_noteSlotBytes fits).symm ▸ fit)
  refine ⟨m, body, ?_⟩
  unfold writeNote noteSlotRuns
  dsimp only
  rw [faulted x fault] <;> rfl

end known

end destination

/-! ## Answers (R164) -/

section answers

variable {rx : Rx} {s : State} {e : NoteEntry} {x : NoteAnswer}

/-- The window entry that an answer is for. -/
def answered (s : State) (rx : Rx) : Option NoteEntry :=
  s.notes.window.find? (fun e => e.dest == rx.origin && e.number == BitVec.ofNat 16 (beAt rx.payload 0 2))

theorem takeNoteAnswer_eq (s : State) (rx : Rx) : takeNoteAnswer rx ⟨s, []⟩ =
    (noteAnswerOfCode (beAt rx.payload 2 1)).elim ⟨countNotes s (fun c => { c with ignored := c.ignored + 1 }), []⟩ (fun x =>
      if rx.payload.length ≠ 4 ∨ 7 < beAt rx.payload 3 1 then
        ⟨countNotes s (fun c => { c with ignored := c.ignored + 1 }), []⟩
      else (answered s rx).elim ⟨countNotes s (fun c => { c with ignored := c.ignored + 1 }), []⟩ (fun e =>
        resolveNote ⟨s, []⟩ e x (beAt rx.payload 3 1))) := by
  unfold takeNoteAnswer answered
  dsimp only
  cases noteAnswerOfCode (beAt rx.payload 2 1) with
  | none => rfl
  | some x =>
    show (if _ then _ else _) = if _ then _ else _
    congr 1
    cases s.notes.window.find? (fun e => e.dest == rx.origin && e.number == BitVec.ofNat 16 (beAt rx.payload 0 2)) <;> rfl

theorem takeNoteAnswer_ignored (h : ¬ (rx.payload.length = 4 ∧ beAt rx.payload 3 1 ≤ 7) ∨
    noteAnswerOfCode (beAt rx.payload 2 1) = none ∨ answered s rx = none) :
    takeNoteAnswer rx ⟨s, []⟩ = ⟨countNotes s (fun c => { c with ignored := c.ignored + 1 }), []⟩ := by
  rw [takeNoteAnswer_eq]
  cases code : noteAnswerOfCode (beAt rx.payload 2 1) with
  | none => rfl
  | some x =>
    rw [Option.elim_some]
    by_cases unfit : rx.payload.length ≠ 4 ∨ 7 < beAt rx.payload 3 1
    · rw [if_pos unfit]
    · rw [if_neg unfit]
      have nobody : answered s rx = none := by
        rcases h with h | h | h
        · exact absurd (by omega) h
        · rw [h] at code
          cases code
        · exact h
      rw [nobody] <;> rfl

theorem takeNoteAnswer_resolved (fits : rx.payload.length = 4 ∧ beAt rx.payload 3 1 ≤ 7)
    (code : noteAnswerOfCode (beAt rx.payload 2 1) = some x) (found : answered s rx = some e) :
    takeNoteAnswer rx ⟨s, []⟩ = resolveNote ⟨s, []⟩ e x (beAt rx.payload 3 1) := by
  rw [takeNoteAnswer_eq, code, Option.elim_some, if_neg (by omega), found, Option.elim_some]

theorem expireNote_eq (e : NoteEntry) (u : State) : expireNote e ⟨u, []⟩ = complete ⟨{ u with notes := { u.notes with
    window := u.notes.window.filter (fun y => y != e)
    counters := { u.notes.counters with unconfirmed := u.notes.counters.unconfirmed + 1 } } }, []⟩ e.order .unconfirmed 0
      (leBytes 2 e.number.toNat) := rfl

end answers

/-- Settles O52. -/
theorem noteCells : Obligations.NoteCells := by
  unfold Obligations.NoteCells
  refine ⟨fun rx s h dest => ?note, fun rx s h dest => ?answer, fun s number e running found => ?timer⟩
  case note =>
    intro b number u fits known count sent answer
    have routed : rx.dest.toNat ≠ 63 := by
      have := s.own.isLt
      omega
    have ends {a : Act} (act : takeNote rx ⟨u, []⟩ = a) : Ends (.note rx) s a := by
      have taken : Ends (.note rx) s (takeNote rx ⟨u, []⟩) := ends_routed h routed dest
      rw [act] at taken
      exact taken
    refine ⟨fun unfit => ends (takeNote_malformed unfit), fun fit unknown => ends (takeNote_refused fit unknown),
      fun fit known detached => ends ((takeNote_known (s := u) fit known).trans (if_pos detached)), fun fit known attached full => ?_,
      fun k fit known attached empty first => ?_⟩
    · refine ends ((takeNote_known (s := u) fit known).trans ((if_neg (fun h => h attached)).trans ?_))
      rw [(inbox_full (s := u)).2 full]
      rfl
    · intro base bytes
      have bytes_eq : noteSlotBytes rx = bytes := rfl
      have taken : takeNote rx ⟨u, []⟩ = writeNote ⟨u, []⟩ rx number k := by
        refine (takeNote_known (s := u) fit known).trans ((if_neg (fun h => h attached)).trans ?_)
        rw [(inbox_first (s := u)).2 ⟨empty, first⟩]
        rfl
      refine ⟨fun fits => ?_, fun x fault => ends (taken.trans (writeNote_bodyFault fit number fault)), fun x fits fault => ?_⟩
      · obtain ⟨m, stored, written⟩ := writeNote_fits (s := u) (k := k) fit number fits
        exact ⟨m, stored, ends (taken.trans written)⟩
      · obtain ⟨m, stored, written⟩ := writeNote_flagFault (s := u) (k := k) fit number fits fault
        exact ⟨m, stored, ends (taken.trans written)⟩
  case answer =>
    intro b number found fits u
    have routed : rx.dest.toNat ≠ 63 := by
      have := s.own.isLt
      omega
    have ends {a : Act} (act : takeNoteAnswer rx ⟨u, []⟩ = a) : Ends (.noteAnswer rx) s a := by
      have taken : Ends (.noteAnswer rx) s (takeNoteAnswer rx ⟨u, []⟩) := ends_routed h routed dest
      rw [act] at taken
      exact taken
    refine ⟨fun stray => ends (takeNoteAnswer_ignored stray), fun e x fits code is => ?_⟩
    have matched : e.number = number := by
      have := List.find?_some is
      rw [Bool.and_eq_true, beq_iff_eq, beq_iff_eq] at this
      exact this.2
    intro v
    refine ends ((takeNoteAnswer_resolved (s := u) fits code is).trans ?_)
    rw [← matched]
    cases x <;> rfl
  case timer =>
    intro u
    have matched : e.number = number := by simpa using List.find?_some found
    have notes : u.notes = s.notes := advanceTo_notes ..
    have expired := expireNote_eq e u
    rw [notes, matched] at expired
    show execAnswerTimer number s = _
    unfold execAnswerTimer noteOfNumber
    refine run_ends running ?_
    dsimp only
    rw [found]
    dsimp only
    rw [atTimer_some]
    exact expired

end Sys2Proof.NoteCellActs

/-! SUPPORT. Stream slots: a slot replaced in the state, its state and notice (R117, R156), its gate and settled state
(R125, R126), and the cells it sends (R119). -/

namespace Sys2Proof.StreamSlots

open Sys2Proof Sys2Proof.Machine Sys2Proof.Statements Sys2Proof.PortQueues Sys2Proof.TriggerActs

section slots

variable {s : State} {ps : List Post} {n m : SlotIx} {x y : Slot}

/-! ## A slot replaced -/

theorem modSlot_eq_setSlot (s : State) (n : SlotIx) (f : Slot → Slot) : s.modSlot n f = setSlot s n (f (s.slot n)) :=
  modSlot_congr rfl

theorem setSlot_setSlot (s : State) (n : SlotIx) (x y : Slot) : setSlot (setSlot s n x) n y = setSlot s n y :=
  modSlot_modSlot ..

theorem slot_setSlot (s : State) (n : SlotIx) (x : Slot) : (setSlot s n x).slot n = x := slot_modSlot_same ..

theorem slot_setSlot_other (other : m ≠ n) : (setSlot s n x).slot m = s.slot m :=
  (slot_modSlot s n m _).trans (if_neg other)

theorem setSlot_self (s : State) (n : SlotIx) : setSlot s n (s.slot n) = s := modSlot_self rfl

theorem modSlot_setSlot (s : State) (n : SlotIx) (x : Slot) (f : Slot → Slot) :
    (setSlot s n x).modSlot n f = setSlot s n (f x) := modSlot_modSlot ..

theorem cutOff_eq_setSlot (s : State) (n : SlotIx) : cutOff s n = setSlot s n (cutBlock s.now (s.slot n)) := by
  rw [cutOff_eq, modSlot_eq_setSlot]

/-! ## Notices and states (R117, R156) -/

theorem streamNotice_eq (s : State) (ps : List Post) (n : SlotIx) :
    (⟨s, ps⟩ : Act).streamNotice n = ⟨s, slotPosts ps n⟩ := by
  unfold Act.streamNotice slotPosts
  dsimp only
  split
  · rfl
  · exact congrArg (Act.mk s) (List.append_assoc ..)

theorem notify_eq (s : State) (ps : List Post) (n : SlotIx) :
    notify ⟨s, ps⟩ n = ⟨setSlot s n { s.slot n with sinceNotice := 0 }, slotPosts ps n⟩ := by
  unfold notify Act.on
  dsimp only
  rw [modSlot_eq_setSlot, streamNotice_eq]

theorem setSlotState_setSlot (s : State) (ps : List Post) (n : SlotIx) (x : Slot) (st : StreamState) (cause : StreamCause) :
    setSlotState ⟨setSlot s n x, ps⟩ n st cause = movedSlot s ps n x st cause := by
  unfold setSlotState Act.on movedSlot
  dsimp only
  rw [modSlot_setSlot, notify_eq, setSlot_setSlot, slot_setSlot]

/-! ## Gate and settled state (R125, R126) -/

/-- A slot whose gate is judged where it is a source with a closed gate and neither halt flag set. -/
def judgedSlot (s : State) (x : Slot) : Slot :=
  if x.role = .source ∧ x.gateOpen = false ∧ x.selfHalt = false ∧ x.peerHalt = false then
    (gateDue s x).elim x (fun t => openGate t x)
  else x

theorem judgeGate_eq (s : State) (n : SlotIx) : judgeGate s n = setSlot s n (judgedSlot s (s.slot n)) := by
  unfold judgeGate judgedSlot
  dsimp only
  by_cases judged : (s.slot n).role = .source ∧ (s.slot n).gateOpen = false ∧ (s.slot n).selfHalt = false ∧
      (s.slot n).peerHalt = false
  · rw [if_pos judged, if_pos judged]
    cases gateDue s (s.slot n) with
    | none => exact (setSlot_self s n).symm
    | some t => exact modSlot_eq_setSlot ..
  · rw [if_neg judged, if_neg judged, setSlot_self]

theorem takeSettled_eq (s : State) (ps : List Post) (n : SlotIx) (cause : StreamCause) :
    let y := judgedSlot s (s.slot n)
    takeSettled ⟨s, ps⟩ n cause = movedSlot s ps n y (settledState s y) cause := by
  intro y
  unfold takeSettled Act.on
  dsimp only
  rw [judgeGate_eq, setSlotState_setSlot, slot_setSlot] <;> rfl

theorem settle_eq (s : State) (ps : List Post) (n : SlotIx) (cause : StreamCause) :
    let y := judgedSlot s (s.slot n)
    settle ⟨s, ps⟩ n cause = if isSettling (s.slot n).state = true then
        if settledState s y = (s.slot n).state then ⟨setSlot s n y, ps⟩ else movedSlot s ps n y (settledState s y) cause
      else ⟨s, ps⟩ := by
  intro y
  unfold settle Act.on
  dsimp only
  rw [judgeGate_eq, setSlotState_setSlot, slot_setSlot] <;> rfl

/-! ## Cells of a slot (R119) -/

variable {k : Kind} {b : List Byte} {w : BitVec 32}

theorem sendSlotCell_unknown (unknown : s.route (s.slot n).peer = none) : sendSlotCell s n k b w =
    setSlot s n { s.slot n with counters := { (s.slot n).counters with unsent := (s.slot n).counters.unsent + 1 } } := by
  unfold sendSlotCell
  dsimp only
  rw [unknown]
  exact modSlot_eq_setSlot ..

theorem sendSlotCell_route {r : Route} (route : s.route (s.slot n).peer = some r) : sendSlotCell s n k b w =
    offer s r.port ⟨ownCell s k (s.slot n).peer.val b 0 w, none⟩ := by
  unfold sendSlotCell
  dsimp only
  rw [route]

end slots

end Sys2Proof.StreamSlots

/-! SUPPORT. The timers of a stream slot (R122, R124, R126, R130, R131, R134, R136, R138), the cells it sends (R119), and
what the other units' events do to it (R133 to R136). -/

namespace Sys2Proof.StreamSlotTimers

open Sys2Proof Sys2Proof.Machine Sys2Proof.Statements Sys2Proof.PortUnits Sys2Proof.PortQueues Sys2Proof.MasterChoice
  Sys2Proof.StreamSlots

/-! ## Cells of a slot (R119) -/

section cells

variable {v : State} {n : SlotIx}

/-- A slot with one more cell that could not be sent. -/
def unsent (x : Slot) : Slot := { x with counters := { x.counters with unsent := x.counters.unsent + 1 } }

theorem peerReachable_eq (v : State) (n : SlotIx) : peerReachable v n = (v.route (v.slot n).peer).isSome := rfl

theorem sendOpen_route {r : Route} (route : v.route (v.slot n).peer = some r) :
    let y := v.slot n
    sendOpen v n = (let w := offer v r.port ⟨ownCell v .openCell y.peer.val
        (openPayload y.tag y.openNumber y.blockSize y.pace), none⟩
      setSlot w n { y with counters := { y.counters with openSent := y.counters.openSent + 1 } }) := by
  intro y
  unfold sendOpen
  dsimp only
  rw [sendSlotCell_route route, modSlot_eq_setSlot, peerReachable_eq, route]
  rfl

theorem sendOpen_unknown (unknown : v.route (v.slot n).peer = none) : sendOpen v n = setSlot v n (unsent (v.slot n)) := by
  unfold sendOpen
  dsimp only
  rw [sendSlotCell_unknown unknown, modSlot_setSlot, peerReachable_eq, unknown]
  rfl

theorem sendCredit_route {r : Route} (route : v.route (v.slot n).peer = some r) :
    let y := v.slot n
    sendCredit v n = (let w := offer v r.port ⟨ownCell v .credit y.peer.val
        (creditPayload y.tag y.openNumber y.creditLimit y.selfHalt), none⟩
      setSlot w n { y with counters := { y.counters with creditSent := y.counters.creditSent + 1 } }) := by
  intro y
  unfold sendCredit
  dsimp only
  rw [sendSlotCell_route route, modSlot_eq_setSlot, peerReachable_eq, route]
  rfl

theorem sendCredit_unknown (unknown : v.route (v.slot n).peer = none) : sendCredit v n = setSlot v n (unsent (v.slot n)) := by
  unfold sendCredit
  dsimp only
  rw [sendSlotCell_unknown unknown, modSlot_setSlot, peerReachable_eq, unknown]
  rfl

end cells

/-! ## Timers -/

section timers

variable {s : State} {n : SlotIx}

/-- A slot changed when the clock has come to a limit. -/
theorem modSlot_advanceTo (s : State) (t : Nat) (n : SlotIx) (f : Slot → Slot) :
    (advanceTo s t).modSlot n f = setSlot (advanceTo s t) n (f (s.slot n)) := by
  rw [modSlot_eq_setSlot, slot_advanceTo]

theorem sendsCredit_iff (x : Slot) : sendsCredit x = true ↔
    x.role = .sink ∧ (x.state = .flowing ∨ x.state = .halted ∨ x.state = .stranded) := by
  simp only [sendsCredit, Bool.and_eq_true, Bool.or_eq_true, beq_iff_eq, or_assoc]

theorem repeatsHalt_iff (x : Slot) : repeatsHalt x = true ↔
    x.role = .source ∧ x.selfHalt = true ∧ x.state ≠ .closed ∧ x.state ≠ .opening := by
  simp only [repeatsHalt, Bool.and_eq_true, beq_iff_eq, bne_iff_ne, and_assoc]

theorem closeOpening_opening {a : Act} (opening : (a.s.slot n).state = .opening) (cause : StreamCause) (outcome : Outcome) :
    closeOpening a n cause outcome = closeSlot a n cause true outcome := if_pos opening

theorem ends_closeDeadline {t : Nat} {a : Act} (running : s.inReset = false)
    (drains : (s.slot n).state = .draining ∨ ((s.slot n).role = .sink ∧ (s.slot n).drain = true ∧ (s.slot n).state ≠ .closed))
    (deadline : (s.slot n).closeDeadline = some t) (act : closeAtDeadline n ⟨advanceTo s t, []⟩ = a) :
    Ends (.closeDeadline n) s a := by
  show execCloseDeadline n s = _
  unfold execCloseDeadline
  refine run_ends running ?_
  dsimp only
  rw [if_pos drains, deadline, atTimer_some]
  exact act

end timers

/-! ## Events of other units (R133 to R136) -/

section events

variable {s : State} {ps : List Post} {n : SlotIx} {cause : StreamCause}

theorem mayStrand_iff (x : Slot) : mayStrand x = true ↔ (x.role = .source ∧ isSettling x.state = true) ∨
    (x.role = .sink ∧ (x.state = .flowing ∨ x.state = .halted) ∧ x.drain = false) := by
  unfold mayStrand
  cases x.role <;> simp

theorem strand_strands (strands : mayStrand (s.slot n) = true) : strand ⟨s, ps⟩ n cause =
    movedSlot s ps n { cutBlock s.now (s.slot n) with strandDeadline := some (s.now + 2000000000) } .stranded cause := by
  unfold strand Act.on
  dsimp only
  rw [if_pos strands, cutOff_eq_setSlot, modSlot_setSlot, setSlotState_setSlot] <;> rfl

theorem mayRun_iff : mayRun s n = true ↔ (s.entry (s.slot n).peer).state = .member ∧
    (s.route (s.slot n).peer).isSome = true ∧ s.roster.standing = .member := by
  simp only [mayRun, peerReachable, Bool.and_eq_true, beq_iff_eq, and_assoc]

/-- A judged gate leaves the slot's role. -/
theorem judgedSlot_role (s : State) (x : Slot) : (judgedSlot s x).role = x.role := by
  unfold judgedSlot
  split
  · cases gateDue s x <;> rfl
  · rfl

theorem judgeReturn_returns (returns : (s.slot n).state = .stranded ∧ mayRun s n = true) :
    let a := takeSettled ⟨setSlot s n { s.slot n with strandDeadline := none }, ps⟩ n .returned
    judgeReturn ⟨s, ps⟩ n = if (s.slot n).role = .sink then ⟨sendCredit a.s n, a.posts⟩ else a := by
  intro a
  have role : (a.s.slot n).role = (s.slot n).role := by
    have settled := takeSettled_eq (setSlot s n { s.slot n with strandDeadline := none }) ps n .returned
    have a_eq : a = _ := settled
    rw [a_eq]
    unfold movedSlot
    dsimp only
    rw [slot_setSlot, slot_setSlot]
    exact judgedSlot_role ..
  unfold judgeReturn
  rw [if_pos returns]
  have cleared : s.modSlot n (fun x => { x with strandDeadline := none }) =
      setSlot s n { s.slot n with strandDeadline := none } := modSlot_eq_setSlot ..
  dsimp only [Act.on]
  rw [cleared]
  show (if (a.s.slot n).role = .sink then (⟨sendCredit a.s n, a.posts⟩ : Act) else a) = _
  rw [role]

theorem drainPeerLeaving_eq (s : State) (ps : List Post) (n : SlotIx) : drainPeerLeaving ⟨s, ps⟩ n =
    closeIfResolved (movedSlot s ps n { s.slot n with
      strandDeadline := none, closeDeadline := some (s.now + 1000000000), drainMode := some .peerLeaving
      fetchEnded := true } .draining .peerLeaving) n := by
  unfold drainPeerLeaving Act.on
  dsimp only
  rw [modSlot_eq_setSlot, setSlotState_setSlot] <;> rfl

theorem slotPeerLeaving_live (source : (s.slot n).role = .source)
    (live : isSettling (s.slot n).state = true ∨ (s.slot n).state = .stranded) :
    slotPeerLeaving ⟨s, ps⟩ n = drainPeerLeaving ⟨s, ps⟩ n := by
  unfold slotPeerLeaving
  dsimp only
  rw [source]
  refine if_pos ?_
  rw [Bool.or_eq_true, beq_iff_eq]
  exact live

theorem slotPeerLeaving_idle (source : (s.slot n).role = .source)
    (idle : ¬ (isSettling (s.slot n).state = true ∨ (s.slot n).state = .stranded)) :
    slotPeerLeaving ⟨s, ps⟩ n = if (s.slot n).state = .draining ∧ (s.slot n).drainMode = some .finish then
        closeIfResolved ⟨s.modSlot n (fun x => { x with drainMode := some .finishPeerLeaving }), ps⟩ n
      else ⟨s, ps⟩ := by
  unfold slotPeerLeaving
  dsimp only
  rw [source]
  refine if_neg ?_
  rw [Bool.or_eq_true, beq_iff_eq]
  exact idle

theorem slotPeerLeaving_sink (sink : (s.slot n).role = .sink) : slotPeerLeaving ⟨s, ps⟩ n =
    if (s.slot n).state = .flowing ∨ (s.slot n).state = .halted ∨ (s.slot n).state = .stranded then
      drainSink ⟨s, ps⟩ n .peerLeaving else ⟨s, ps⟩ := by
  unfold slotPeerLeaving
  dsimp only
  rw [sink]
  simp only [Bool.or_eq_true, beq_iff_eq, or_assoc]

/-- What an entry-changed event does to a slot with that peer. -/
theorem entryChanged_eq (a : Act) (n : SlotIx) (st : EntryState) :
    (if (a.s.slot n).state = .opening then
      if st = .member then a else closeOpening a n .unreachable .unreachable
    else
      match st with
      | .vacant | .refused => slotPeerGone a n
      | .leaving => slotPeerLeaving a n
      | .stray | .quarantined => strand a n .peerStray
      | .member => a) =
    if (a.s.slot n).state = .opening then
      if st = .member then a else closeSlot a n .unreachable true .unreachable
    else
      match st with
      | .vacant | .refused =>
        if (a.s.slot n).state = .closed ∨ (a.s.slot n).state = .offered then a else closeSlot a n .peerLost true
      | .leaving => slotPeerLeaving a n
      | .stray | .quarantined => strand a n .peerStray
      | .member => a := by
  by_cases opening : (a.s.slot n).state = .opening
  · rw [if_pos opening, if_pos opening, closeOpening_opening opening]
  · rw [if_neg opening, if_neg opening]
    have gone : slotPeerGone a n =
        if (a.s.slot n).state = .closed ∨ (a.s.slot n).state = .offered then a else closeSlot a n .peerLost true := by
      unfold slotPeerGone
      simp only [opening, or_false]
    cases st with
    | vacant => exact gone
    | refused => exact gone
    | _ => rfl

end events

/-- Settles O59. -/
theorem streamTimers : Obligations.StreamTimers := by
  unfold Obligations.StreamTimers
  refine ⟨fun s n running => ?timers, fun s ps n cause => ?slot, fun f a => ?units⟩
  case timers =>
    intro x till
    refine ⟨fun opening => ⟨?_, ?_⟩, fun t gate armed shut => ?_, fun sink live => ?_, fun source halt isOpen started => ?_,
      fun t stranded deadline => ?_, fun t deadline => ⟨fun source draining leaving => ?_, fun source draining other => ?_,
      fun sink drains isOpen => ?_⟩, fun v r route => ?_, fun v unknown => ?_⟩
    · show execOpenRepeat n s = _
      unfold execOpenRepeat
      refine run_ends running ?_
      dsimp only
      rw [if_pos opening, atTimer_some]
      dsimp only [Act.on]
      rw [modSlot_advanceTo]
    · show execOpenLimit n s = _
      unfold execOpenLimit
      refine run_ends running ?_
      dsimp only
      rw [if_pos opening, atTimer_some]
      refine closeOpening_opening ?_ _ _
      rw [slot_advanceTo]
      exact opening
    · show execStartGate n s = _
      unfold execStartGate
      refine run_ends running ?_
      dsimp only
      rw [gate]
      exact if_pos ⟨armed, shut⟩
    · show execCreditPeriod n s = _
      unfold execCreditPeriod
      refine run_ends running ?_
      dsimp only
      rw [if_pos ((sendsCredit_iff _).2 ⟨sink, live⟩), atTimer_some]
      dsimp only [Act.on]
      rw [modSlot_advanceTo]
    · show execHaltRepeat n s = _
      unfold execHaltRepeat
      refine run_ends running ?_
      dsimp only
      rw [if_pos ((repeatsHalt_iff _).2 ⟨source, halt, isOpen, started⟩), atTimer_some]
      dsimp only [Act.on]
      rw [modSlot_advanceTo]
    · show execStrandDeadline n s = _
      unfold execStrandDeadline
      refine run_ends running ?_
      dsimp only
      rw [if_pos stranded, deadline, atTimer_some]
      rfl
    · refine ends_closeDeadline running (.inl draining) deadline ?_
      unfold closeAtDeadline
      dsimp only
      rw [slot_advanceTo, source, leaving]
    · refine ends_closeDeadline running (.inl draining) deadline ?_
      unfold closeAtDeadline
      dsimp only
      rw [slot_advanceTo, source]
      cases mode : (s.slot n).drainMode with
      | none => rfl
      | some m =>
        cases m with
        | peerLeaving => exact absurd mode other
        | _ => rfl
    · refine ends_closeDeadline running (.inr ⟨sink, drains, isOpen⟩) deadline ?_
      unfold closeAtDeadline
      dsimp only
      rw [slot_advanceTo, sink]
    · exact ⟨sendOpen_route route, sendCredit_route route, fun on => sendSlotCell_route route,
        fun b o => sendSlotCell_route route⟩
    · exact ⟨sendOpen_unknown unknown, sendCredit_unknown unknown, fun on => sendSlotCell_unknown unknown,
        fun w => sendSlotCell_unknown unknown, fun b o => sendSlotCell_unknown unknown⟩
  case slot =>
    intro x strands runs
    refine ⟨fun does => strand_strands ((mayStrand_iff _).2 does), fun does => if_neg (fun h => does ((mayStrand_iff _).1 h)),
      fun stays => if_neg (fun h => stays ⟨h.1, mayRun_iff.1 h.2⟩),
      fun stranded run => judgeReturn_returns ⟨stranded, mayRun_iff.2 run⟩, fun source live => ?_,
      fun source draining finish => ?_, fun source settles stranded finishes => ?_, fun sink => ?_⟩
    · exact (slotPeerLeaving_live source live).trans (drainPeerLeaving_eq s ps n)
    · have settles : ¬ (isSettling (s.slot n).state = true ∨ (s.slot n).state = .stranded) := by
        rw [draining]
        decide
      refine (slotPeerLeaving_idle source settles).trans ((if_pos ⟨draining, finish⟩).trans ?_)
      rw [modSlot_eq_setSlot]
    · have rests : ¬ (isSettling (s.slot n).state = true ∨ (s.slot n).state = .stranded) := by
        rintro (h | h)
        · rw [settles] at h
          cases h
        · exact stranded h
      exact (slotPeerLeaving_idle source rests).trans (if_neg finishes)
    · exact slotPeerLeaving_sink sink
  case units =>
    intro own entry standing
    have closes (cause : StreamCause) (outcome : Outcome) (g : Act → SlotIx → Act) :
        (fun (a : Act) n => if (a.s.slot n).state = .opening then closeOpening a n cause outcome else g a n) =
        fun a n => if (a.s.slot n).state = .opening then closeSlot a n cause true outcome else g a n := by
      funext a n
      by_cases opening : (a.s.slot n).state = .opening
      · rw [if_pos opening, if_pos opening, closeOpening_opening opening]
      · rw [if_neg opening, if_neg opening]
    have own_eq : slotsOf a.s f = own := rfl
    refine ⟨?_, rfl, ?_, ?_⟩
    · unfold streamReachLost Act.each
      rw [own_eq, closes]
    · unfold streamEntryChanged Act.each
      dsimp only
      rw [own_eq]
      clear_value own
      generalize allSlots = ms
      refine congrArg (fun g => ms.foldl judgeReturn (own.foldl g a)) (funext fun a => funext fun n => ?_)
      exact entryChanged_eq a n entry
    · unfold streamStandingChanged Act.each
      dsimp only
      generalize allSlots = ms
      refine congrArg (fun g => ms.foldl judgeReturn (ms.foldl g a)) (funext fun a => funext fun n => ?_)
      by_cases member : standing = .member
      · exact (if_pos member).trans (if_pos member).symm
      · refine (if_neg member).trans (Eq.trans ?_ (if_neg member).symm)
        by_cases opening : (a.s.slot n).state = .opening
        · rw [if_pos opening, if_pos opening, closeOpening_opening opening]
        · rw [if_neg opening, if_neg opening]

end Sys2Proof.StreamSlotTimers

/-! SUPPORT. Block Records: the fetch and its stops (R146, R147, R157), the tail's link (R149), a block's start and its
cells (R129, R150, R151). -/

namespace Sys2Proof.BlockRecords

open Sys2Proof Sys2Proof.Machine Sys2Proof.Statements Sys2Proof.PortQueues Sys2Proof.ExchangeEvents Sys2Proof.StreamSlots

section faults

variable {s : State} {ps : List Post} {n : SlotIx} {x : Slot}

/-! ## Memory faults (R157) -/

theorem faultHalt_stays (stays : (s.slot n).state = .offered ∨ (s.slot n).state = .opening ∨ (s.slot n).state = .closed ∨
    (s.slot n).selfHalt = true) : faultHalt ⟨s, ps⟩ n = ⟨s, ps⟩ := if_pos stays

theorem faultHalt_halts (open_ : ¬ ((s.slot n).state = .offered ∨ (s.slot n).state = .opening ∨
    (s.slot n).state = .closed ∨ (s.slot n).selfHalt = true)) : faultHalt ⟨s, ps⟩ n =
      settle ⟨sendHalt (setSlot s n { s.slot n with selfHalt := true, lastHalt := s.now }) n true, ps⟩ n .memoryFault := by
  unfold faultHalt Act.on
  dsimp only
  rw [if_neg open_, modSlot_eq_setSlot]

/-- A fault is counted in the slot and reported. -/
theorem blockFault_setSlot (s : State) (ps : List Post) (n : SlotIx) (x : Slot) (w : What) (e : Nat) :
    blockFault ⟨setSlot s n x, ps⟩ n w e =
      ⟨setSlot s n { x with counters := { x.counters with faults := x.counters.faults + 1 } }, ps ++ [faultPost w e]⟩ := by
  unfold blockFault Act.on
  dsimp only
  rw [modSlot_setSlot] <;> rfl

/-! ## Fetch stops (R138, R146) -/

/-- The slot drains under FINISH. -/
abbrev Finishes (x : Slot) : Prop :=
  x.state = .draining ∧ (x.drainMode = some .finish ∨ x.drainMode = some .finishPeerLeaving)


theorem finishing_eq (x : Slot) : finishing x = decide (Finishes x) := by
  rw [Bool.eq_iff_iff, decide_eq_true_eq]
  simp only [finishing, Finishes, Bool.and_eq_true, Bool.or_eq_true, beq_iff_eq]

theorem stopFetch_fault (x : Slot) : stopFetch .memoryFault x = { x with stop := some .memoryFault } := by
  have ended : (x.fetchEnded || (finishing x && FetchStop.memoryFault != .memoryFault)) = x.fetchEnded := by simp
  unfold stopFetch
  rw [ended]

theorem stopFetch_other {st : FetchStop} (other : st ≠ .memoryFault) (x : Slot) :
    stopFetch st x = { x with stop := some st, fetchEnded := x.fetchEnded || decide (Finishes x) } := by
  have ended : (x.fetchEnded || (finishing x && st != .memoryFault)) = (x.fetchEnded || decide (Finishes x)) := by
    rw [finishing_eq, bne_iff_ne.2 other, Bool.and_true]
  unfold stopFetch
  rw [ended]

theorem fetchFault_eq (s : State) (ps : List Post) (n : SlotIx) (e : Nat) : fetchFault ⟨s, ps⟩ n e =
    faultHalt ⟨setSlot s n { s.slot n with
      stop := some .memoryFault, counters := { (s.slot n).counters with faults := (s.slot n).counters.faults + 1 } },
      ps ++ [faultPost .blockRecordRead e]⟩ n := by
  unfold fetchFault Act.on
  dsimp only
  rw [modSlot_eq_setSlot, stopFetch_fault, blockFault_setSlot]

/-! ## The fetch of a record (R146, R147) -/

theorem fetchRecord_fault {v : BitVec 64} {e : Nat} (fault : firstFault s.mem.readFaults v.toNat 48 = some e) :
    fetchRecord ⟨s, ps⟩ n v = faultHalt ⟨setSlot s n { s.slot n with
      stop := some .memoryFault, counters := { (s.slot n).counters with faults := (s.slot n).counters.faults + 1 } },
      ps ++ [faultPost .blockRecordRead e]⟩ n := by
  have read : memRead s.mem v.toNat blockRecordSize = .error e := memRead_error fault
  unfold fetchRecord
  dsimp only
  rw [read]
  dsimp only
  exact fetchFault_eq s ps n e

theorem fetchRecord_notPosted {v : BitVec 64} (readable : Readable s.mem v.toNat 48)
    (open_ : leAt (bytesIn s.mem v.toNat 48) 0x14 1 ≠ 1) : fetchRecord ⟨s, ps⟩ n v = ⟨setSlot s n { s.slot n with
      stop := some .notPosted, fetchEnded := (s.slot n).fetchEnded || decide (Finishes (s.slot n)) }, ps⟩ := by
  have read : memRead s.mem v.toNat blockRecordSize = .ok (bytesIn s.mem v.toNat 48) := memRead_bytesIn readable
  unfold fetchRecord
  dsimp only
  rw [read]
  dsimp only
  refine (if_pos open_).trans ?_
  rw [Act.on, modSlot_eq_setSlot, stopFetch_other (by decide)]

theorem fetchRecord_posted {v : BitVec 64} (readable : Readable s.mem v.toNat 48)
    (posted : leAt (bytesIn s.mem v.toNat 48) 0x14 1 = 1) :
    let y := appendRec v (bytesIn s.mem v.toNat 48) (s.slot n)
    fetchRecord ⟨s, ps⟩ n v = completeAndEnd (if y.creditLimit ≠ (s.slot n).creditLimit ∧ sendsCredit y = true then
      ⟨sendCredit (setSlot s n y) n, ps⟩ else ⟨setSlot s n y, ps⟩) n := by
  intro y
  have read : memRead s.mem v.toNat blockRecordSize = .ok (bytesIn s.mem v.toNat 48) := memRead_bytesIn readable
  have taken : ¬ leAt (bytesIn s.mem v.toNat 48) 0x14 1 ≠ Machine.posted := fun h => h posted
  unfold fetchRecord Act.on
  dsimp only
  rw [read]
  dsimp only
  rw [if_neg taken, modSlot_eq_setSlot, slot_setSlot]

/-! ## The tail's link (R149) -/

theorem rereadLink_none (none_last : (s.slot n).lastRecord = none) : rereadLink ⟨s, ps⟩ n = ⟨s, ps⟩ := by
  unfold rereadLink
  dsimp only
  rw [none_last]

variable {l : LastRecord} (last : (s.slot n).lastRecord = some l)

include last

theorem rereadLink_last : rereadLink ⟨s, ps⟩ n = match memRead s.mem l.address.toNat 8 with
    | .error x => fetchFault ⟨s, ps⟩ n x
    | .ok b => if leNat b = 0 then ⟨s.modSlot n (stopFetch .tail), ps⟩
      else if l.done then ⟨s.modSlot n (linkTail (leNat b) l), ps ++ [.status n]⟩
        else ⟨s.modSlot n (linkTail (leNat b) l), ps⟩ := by
  unfold rereadLink
  dsimp only
  rw [last] <;> rfl

theorem rereadLink_fault {e : Nat} (fault : firstFault s.mem.readFaults l.address.toNat 8 = some e) :
    rereadLink ⟨s, ps⟩ n = faultHalt ⟨setSlot s n { s.slot n with
      stop := some .memoryFault, counters := { (s.slot n).counters with faults := (s.slot n).counters.faults + 1 } },
      ps ++ [faultPost .blockRecordRead e]⟩ n := by
  rw [rereadLink_last last, memRead_error fault]
  exact fetchFault_eq s ps n e

theorem rereadLink_zero (readable : Readable s.mem l.address.toNat 8) (zero : leNat (bytesIn s.mem l.address.toNat 8) = 0) :
    rereadLink ⟨s, ps⟩ n = ⟨setSlot s n { s.slot n with
      stop := some .tail, fetchEnded := (s.slot n).fetchEnded || decide (Finishes (s.slot n)) }, ps⟩ := by
  rw [rereadLink_last last, memRead_bytesIn readable]
  refine (if_pos zero).trans ?_
  rw [modSlot_eq_setSlot, stopFetch_other (by decide)]

theorem rereadLink_link (readable : Readable s.mem l.address.toNat 8) (link : leNat (bytesIn s.mem l.address.toNat 8) ≠ 0) :
    rereadLink ⟨s, ps⟩ n = ⟨setSlot s n (linkTail (leNat (bytesIn s.mem l.address.toNat 8)) l (s.slot n)),
      if l.done then ps ++ [.status n] else ps⟩ := by
  rw [rereadLink_last last, memRead_bytesIn readable]
  refine (if_neg link).trans ?_
  rw [modSlot_eq_setSlot]
  split <;> rfl

omit last in
/-- The slot with its tail's link known. -/
theorem linkTail_eq (link : Nat) (l : LastRecord) (x : Slot) : linkTail link l x = { x with
    stop := none, nextRecord := some (BitVec.ofNat 64 link), lastRecord := some { l with linkZero := false }
    fetched := x.fetched.map (fun r => if r.address = some l.address then { r with linked := true } else r)
    released := if l.done then x.released + 1 else x.released
    releaseMark := if l.done then l.number.getD x.releaseMark else x.releaseMark } := by
  unfold linkTail releaseRec
  cases l.done with
  | false => rfl
  | true =>
    cases l.number <;> rfl

/-! ## The retry of a stop (R146, R157) -/

omit last

theorem retryStop_none (idle : (s.slot n).stop = none) : retryStop ⟨s, ps⟩ n = ⟨s, ps⟩ := by
  unfold retryStop
  dsimp only
  rw [idle]

theorem retryStop_tail (tail : (s.slot n).stop = some .tail) : retryStop ⟨s, ps⟩ n = rereadLink ⟨s, ps⟩ n := by
  unfold retryStop
  dsimp only
  rw [tail]

theorem retryStop_other {f : FetchStop} (stop : (s.slot n).stop = some f) (other : f ≠ .tail) :
    retryStop ⟨s, ps⟩ n =
      if (s.slot n).fetchEnded = true ∧ (s.slot n).nextRecord.isSome = true then ⟨s, ps⟩ else readNext ⟨s, ps⟩ n := by
  unfold retryStop
  dsimp only
  rw [stop]
  cases f with
  | tail => exact absurd rfl other
  | _ => rfl

theorem readNext_eq (s : State) (ps : List Post) (n : SlotIx) : readNext ⟨s, ps⟩ n =
    (s.slot n).nextRecord.elim (rereadLink ⟨s, ps⟩ n)
      (fetchRecord ⟨setSlot s n { s.slot n with stop := none }, ps⟩ n ·) := by
  unfold readNext Act.on
  dsimp only
  rw [modSlot_eq_setSlot]
  generalize { s.slot n with stop := none } = x
  cases (s.slot n).nextRecord <;> rfl

theorem retryStop_next {f : FetchStop} {v : BitVec 64} (stop : (s.slot n).stop = some f) (other : f ≠ .tail)
    (next : (s.slot n).nextRecord = some v) : retryStop ⟨s, ps⟩ n = if (s.slot n).fetchEnded then ⟨s, ps⟩
      else fetchRecord ⟨setSlot s n { s.slot n with stop := none }, ps⟩ n v := by
  have reads : readNext ⟨s, ps⟩ n = fetchRecord ⟨setSlot s n { s.slot n with stop := none }, ps⟩ n v :=
    (readNext_eq s ps n).trans (congrArg (Option.elim · _ _) next)
  rw [retryStop_other stop other, next, reads]
  simp only [Option.isSome_some, and_true]

theorem retryStop_unknown {f : FetchStop} (stop : (s.slot n).stop = some f) (other : f ≠ .tail)
    (next : (s.slot n).nextRecord = none) : retryStop ⟨s, ps⟩ n = rereadLink ⟨s, ps⟩ n := by
  rw [retryStop_other stop other, next, if_neg (fun h => Bool.false_ne_true h.2)]
  exact (readNext_eq s ps n).trans (congrArg (Option.elim · _ _) next)

/-- A faulted completion write made again. -/
theorem retryWrite_eq (a : Act) (n : SlotIx) : retryWrite a n = if (a.s.slot n).writeStop = true then
    completeAndEnd ⟨setSlot a.s n { a.s.slot n with writeStop := false }, a.posts⟩ n else a := by
  rw [← modSlot_eq_setSlot a.s n (fun x => { x with writeStop := false })]
  rfl

end faults

/-! ## A record joins the list (R146, R147) -/

section append

theorem badRecord_iff (x : Slot) (buffer length : Nat) : badRecord x buffer length = true ↔
    buffer % 64 ≠ 0 ∨ x.role = .source ∧ x.blockSize < length ∨ x.role = .sink ∧ length < x.blockSize := by
  unfold badRecord
  cases x.role <;> simp

/-- The record that joins the list. -/
def joined (v : BitVec 64) (b : List Byte) (x : Slot) : Rec :=
  let bad := badRecord x (leAt b 8 8) (leAt b 0x10 4)
  newRec (some v) (leAt b 0 8 != 0) (if bad then none else some x.nextBlock)
    (if bad then .resolved else match x.role with | .source => .waiting | .sink => .credited)
    (if bad then some .rejected else none) (BitVec.ofNat 64 (leAt b 8 8)) (leAt b 0x10 4)

theorem appendRec_fields (v : BitVec 64) (b : List Byte) (x : Slot) :
    let y := appendRec v b x
    let bad := badRecord x (leAt b 8 8) (leAt b 0x10 4)
    y.fetched = x.fetched ++ [joined v b x] ∧
    y.lastRecord = some ⟨v, leAt b 0 8 == 0, false, (joined v b x).number⟩ ∧
    y.nextRecord = (if leAt b 0 8 = 0 then none else some (BitVec.ofNat 64 (leAt b 0 8))) ∧
    y.nextBlock = (if bad then x.nextBlock else x.nextBlock + 1) ∧
    y.creditLimit = (if bad = false ∧ x.role = .sink then x.nextBlock + 1 else x.creditLimit) ∧
    y.role = x.role ∧ y.state = x.state ∧
    y.stop = (if leAt b 0 8 = 0 then some .tail else x.stop) ∧
    y.fetchEnded = if leAt b 0 8 = 0 then x.fetchEnded || decide (Finishes x) else x.fetchEnded := by
  intro y bad
  by_cases tail : leAt b 0 8 = 0
  · have y_eq : y = _ := (if_pos tail).trans (stopFetch_other (by decide) _)
    rw [y_eq]
    simp only [if_pos tail]
    exact ⟨rfl, rfl, trivial, rfl, rfl, trivial, trivial, trivial, trivial⟩
  · have y_eq : y = _ := if_neg tail
    rw [y_eq]
    simp only [if_neg tail]
    exact ⟨rfl, rfl, trivial, rfl, rfl, trivial, trivial, trivial, trivial⟩

end append

/-! ## A block's start and its cells (R129, R150, R151) -/

section blocks

variable {s : State} {ps : List Post} {n : SlotIx}

theorem startRec_eq (b : BitVec 32) (p : PortIx) (x : Slot) :
    let made : Rec := { address := none, linked := false, number := some b, stage := .waiting, outcome := none
                        buffer := 0, length := 0, lengthDone := 0, timestamp := 0, quality := 0, arrival := 0
                        late := false, cutOff := false, ackSince := none }
    let y : Slot := modRec b (fun e => { e with stage := .sending })
      (if x.fetched.any (fun e => e.number == some b) then x
        else { x with endBlock := some made, nextBlock := x.nextBlock + 1 })
    startRec b p x = { y with
      unresolved := x.unresolved + 1, sending := some ⟨b, 0, p⟩
      endStarted := x.endStarted || ((findRec y b).map (·.length) == some 0)
      counters := { x.counters with blocksStarted := x.counters.blocksStarted + 1 } } := by
  intro made y
  unfold startRec
  dsimp only [y]
  by_cases host : x.fetched.any (fun e => e.number == some b) = true
  · simp only [if_pos host]
    rfl
  · simp only [if_neg host]
    rfl

theorem startBlock_route {b : BitVec 32} {time : Time} {r : Route} (route : s.route (s.slot n).peer = some r) :
    startBlock ⟨s, ps⟩ n b time =
      offerCell ⟨setSlot s n (startRec b r.port (s.slot n)), ps⟩ n ⟨b, 0, r.port⟩ time := by
  unfold startBlock Act.on
  dsimp only
  rw [route]
  exact congrArg (fun w => offerCell ⟨w, ps⟩ n ⟨b, 0, r.port⟩ time) (modSlot_eq_setSlot s n _)

variable {d : Sending} {time : Time} {r : Rec} (found : findRec (s.slot n) d.block = some r)

include found

theorem offerCell_reads (readable : Readable s.mem (r.buffer.toNat + cellOffset d.index) (cellCount r.length d.index)) :
    offerCell ⟨s, ps⟩ n d time = ⟨setSlot s n { s.slot n with
      sending := some d
      offer := some ⟨dataCell s (s.slot n) d.block d.index r.length time
          (bytesIn s.mem (r.buffer.toNat + cellOffset d.index) (cellCount r.length d.index)), d.port,
        ⟨n, (s.slot n).openNumber, d.block, d.index, cellCount r.length d.index, cellLast r.length d.index⟩⟩ }, ps⟩ := by
  unfold offerCell Act.on
  dsimp only
  rw [found]
  dsimp only
  rw [memRead_bytesIn readable]
  dsimp only
  rw [modSlot_eq_setSlot]

theorem offerCell_fault {e : Nat}
    (fault : firstFault s.mem.readFaults (r.buffer.toNat + cellOffset d.index) (cellCount r.length d.index) = some e) :
    let y := cutBlock s.now (s.slot n)
    offerCell ⟨s, ps⟩ n d time = faultHalt ⟨setSlot s n { y with
      counters := { y.counters with faults := y.counters.faults + 1 } }, ps ++ [faultPost .bufferRead e]⟩ n := by
  intro y
  unfold offerCell
  dsimp only
  rw [found]
  dsimp only
  rw [memRead_error fault]
  unfold bufferFault Act.on
  dsimp only
  rw [cutOff_eq_setSlot, blockFault_setSlot]

end blocks

end Sys2Proof.BlockRecords

/-! SUPPORT. Completions: the writes of a record (R144, R148), what a record DONE changes (R149), and a faulted write
(R157). -/

namespace Sys2Proof.Completions

open Sys2Proof Sys2Proof.Machine Sys2Proof.Statements Sys2Proof.PortQueues Sys2Proof.Delivery Sys2Proof.ExchangeEvents
  Sys2Proof.StreamSlots Sys2Proof.BlockRecords

/-! ## The fields of a completion (R144) -/

/-- The fields a completion writes after the outcome. -/
def doneFields (role : Role) (r : Rec) : List Byte :=
  leBytes 1 (flagCode r.late + 2 * flagCode r.cutOff) ++ leBytes 1 r.quality.toNat ++ leBytes 4 r.lengthDone ++
    leBytes 4 (r.number.elim 0 (·.toNat)) ++ leBytes 8 r.timestamp.toNat ++
    (if role = .source then [] else leBytes 8 r.arrival.toNat)

theorem recFields_eq (role : Role) (r : Rec) : recFields role r = doneFields role r := by
  unfold recFields doneFields
  cases role <;> cases r.number <;> rfl

theorem isExceptional_eq (o : BlockOutcome) :
    isExceptional o = decide (o = .damaged ∨ o = .unconfirmed ∨ o = .discarded ∨ o = .rejected) := by
  cases o <;> rfl

/-! ## The oldest record of a slot -/

section oldest

variable {s : State} {ps : List Post} {n : SlotIx} {r : Rec} {rest : List Rec} {ad : BitVec 64} {o : BlockOutcome} {k : Nat}
  {run : Run}

theorem writeRec_eq (address : r.address = some ad) (o : BlockOutcome) : writeRec s n o r =
    writeRuns s [(ad.toNat + 0x15, leBytes 1 (blockOutcomeCode o) ++ doneFields (s.slot n).role r),
      (ad.toNat + 0x14, leBytes 1 2)] := by
  unfold writeRec recRuns
  rw [address, recFields_eq]
  rfl

/-- The state of a record made DONE. -/
def recordDone (s : State) (n : SlotIx) (r : Rec) (rest : List Rec) (ad : BitVec 64) (m : Memory) (o : BlockOutcome) : State :=
  let x := s.slot n
  { setSlot s n { x with
    fetched := rest, doneCount := x.doneCount + 1, sinceNotice := x.sinceNotice + 1
    counters := countOutcome x.counters o
    lastRecord := x.lastRecord.map (fun l => if l.address = ad then { l with done := true } else l)
    released := if r.linked then x.released + 1 else x.released
    releaseMark := if r.linked then r.number.getD x.releaseMark else x.releaseMark } with mem := m }

theorem releaseRec_eq (number : Option (BitVec 32)) (x : Slot) :
    releaseRec number x = { x with released := x.released + 1, releaseMark := number.getD x.releaseMark } := by
  cases number <;> rfl

variable (list : (s.slot n).fetched = r :: rest)

include list

theorem recDone_eq (address : r.address = some ad) (m : Memory) (o : BlockOutcome) :
    ({ s with mem := m } : State).modSlot n (recDone o r) = recordDone s n r rest ad m o := by
  have fields : recDone o r (s.slot n) = { s.slot n with
      fetched := rest, doneCount := (s.slot n).doneCount + 1, sinceNotice := (s.slot n).sinceNotice + 1
      counters := countOutcome (s.slot n).counters o
      lastRecord := (s.slot n).lastRecord.map (fun l => if l.address = ad then { l with done := true } else l)
      released := if r.linked then (s.slot n).released + 1 else (s.slot n).released
      releaseMark := if r.linked then r.number.getD (s.slot n).releaseMark else (s.slot n).releaseMark } := by
    unfold recDone
    dsimp only
    rw [list, address, releaseRec_eq]
    simp only [Option.some.injEq, List.drop_succ_cons, List.drop_zero]
    cases r.linked <;> rfl
  rw [modSlot_eq_setSlot]
  show setSlot { s with mem := m } n (recDone o r (s.slot n)) = _
  rw [fields]
  rfl

theorem completeRun_idle (idle : r.outcome = none) : completeRun n (k + 1) ⟨s, ps⟩ run = (⟨s, ps⟩, run) := by
  unfold completeRun
  dsimp only
  rw [list]
  dsimp only
  rw [idle]

theorem completeRun_written {s' : State} (held : r.outcome = some o) (written : writeRec s n o r = (s', none)) :
    completeRun n (k + 1) ⟨s, ps⟩ run = completeRun n k ⟨s'.modSlot n (recDone o r), ps⟩
      ⟨run.exceptional || isExceptional o, run.ended || (o == .ended && r.length == 0), true⟩ := by
  rw [completeRun]
  dsimp only
  rw [list]
  dsimp only
  rw [held]
  dsimp only
  rw [written]
  rfl

theorem completeRun_fault {s' : State} {e : Nat} (held : r.outcome = some o) (faults : writeRec s n o r = (s', some e)) :
    completeRun n (k + 1) ⟨s, ps⟩ run = (faultHalt ⟨setSlot s' n { s'.slot n with
      writeStop := true, counters := { (s'.slot n).counters with faults := (s'.slot n).counters.faults + 1 } },
      ps ++ [faultPost .blockRecordWrite e]⟩ n, run) := by
  rw [completeRun]
  dsimp only
  rw [list]
  dsimp only
  rw [held]
  dsimp only
  rw [faults]
  dsimp only
  unfold completionFault Act.on
  dsimp only
  rw [modSlot_eq_setSlot, blockFault_setSlot]

theorem completeAll_written {s' : State} (outcome : r.outcome.getD .discarded = o)
    (written : writeRec s n o r = (s', none)) :
    completeAll n (k + 1) ⟨s, ps⟩ = completeAll n k ⟨s'.modSlot n (recDone o r), ps⟩ := by
  rw [completeAll]
  dsimp only
  rw [list]
  dsimp only
  rw [outcome, written]
  rfl

theorem completeAll_fault {s' : State} {e : Nat} (outcome : r.outcome.getD .discarded = o)
    (faults : writeRec s n o r = (s', some e)) : completeAll n (k + 1) ⟨s, ps⟩ = ⟨setSlot s' n { s'.slot n with
      counters := { (s'.slot n).counters with faults := (s'.slot n).counters.faults + 1 } },
      ps ++ [faultPost .blockRecordWrite e]⟩ := by
  rw [completeAll]
  dsimp only
  rw [list]
  dsimp only
  rw [outcome, faults]
  dsimp only
  rw [← blockFault_setSlot, setSlot_self]

end oldest

/-! ## The writes of a completion (R148, R157) -/

section writes

variable {s : State} {n : SlotIx} {r : Rec} {ad : BitVec 64} (address : r.address = some ad) (o : BlockOutcome)

include address

theorem writeRec_stored (writable : Writable s.mem (ad.toNat + 0x14) (2 + (doneFields (s.slot n).role r).length)) :
    ∃ m, Stored s.mem m (ad.toNat + 0x14)
        (leBytes 1 2 ++ leBytes 1 (blockOutcomeCode o) ++ doneFields (s.slot n).role r) ∧
      writeRec s n o r = ({ s with mem := m }, none) := by
  have two := writeRuns_two (s := s) (a := ad.toNat + 0x15) (b := ad.toNat + 0x14)
    (as := leBytes 1 (blockOutcomeCode o) ++ doneFields (s.slot n).role r) (bs := leBytes 1 2)
  obtain ⟨m, fields, -, stores⟩ := two.2 (writable_sub writable (by omega) (by
    rw [List.length_append, length_leBytes]
    omega))
  obtain ⟨m', state, written⟩ := stores (writable_sub writable (Nat.le_refl _) (by
    rw [length_leBytes]
    omega))
  refine ⟨m', ?_, (writeRec_eq address o).trans written⟩
  rw [List.append_assoc]
  exact stored_cons fields state

theorem writeRec_fieldsFault {e : Nat}
    (fault : firstFault s.mem.writeFaults (ad.toNat + 0x15) (1 + (doneFields (s.slot n).role r).length) = some e) :
    writeRec s n o r = (s, some e) := by
  rw [writeRec_eq address o]
  refine writeRuns_two.1 e ?_
  rw [List.length_append, length_leBytes]
  exact fault

theorem writeRec_stateFault {e : Nat}
    (fields : Writable s.mem (ad.toNat + 0x15) (1 + (doneFields (s.slot n).role r).length))
    (fault : firstFault s.mem.writeFaults (ad.toNat + 0x14) 1 = some e) :
    ∃ m, Stored s.mem m (ad.toNat + 0x15) (leBytes 1 (blockOutcomeCode o) ++ doneFields (s.slot n).role r) ∧
      writeRec s n o r = ({ s with mem := m }, some e) := by
  have two := writeRuns_two (s := s) (a := ad.toNat + 0x15) (b := ad.toNat + 0x14)
    (as := leBytes 1 (blockOutcomeCode o) ++ doneFields (s.slot n).role r) (bs := leBytes 1 2)
  obtain ⟨m, stored, faults, -⟩ := two.2 (by
    rw [List.length_append, length_leBytes]
    exact fields)
  exact ⟨m, stored, (writeRec_eq address o).trans (faults e (by rw [length_leBytes]; exact fault))⟩

end writes

end Sys2Proof.Completions

/-! SUPPORT. The commands of blocks: the record fetch (R146, R147), the ready block (R129), pace points (R127), the
acknowledgement timer (R155) and held completions (R148, R156). -/

namespace Sys2Proof.BlockCommands

open Sys2Proof Sys2Proof.Machine Sys2Proof.Statements Sys2Proof.PortUnits Sys2Proof.PortQueues Sys2Proof.Delivery
  Sys2Proof.ExchangeEvents Sys2Proof.TriggerActs Sys2Proof.LaneActs Sys2Proof.StreamSlots Sys2Proof.StreamSlotTimers
  Sys2Proof.BlockRecords Sys2Proof.Completions

/-! ## BLOCK_RECORD_FETCH -/

section fetch

variable {s : State} {n : SlotIx} (running : s.inReset = false)

/-- The engine fetches for the slot. -/
def Fetches (s : State) (n : SlotIx) : Prop :=
  (s.slot n).state ≠ .closed ∧ (s.slot n).fetched.length < 16 ∧ (s.slot n).stop = none ∧
    (s.slot n).fetchEnded = false ∧ s.memOpen = true

theorem fetches_iff : (mayFetch (s.slot n) && s.memOpen) = true ↔ Fetches s n := by
  simp only [mayFetch, Fetches, Bool.and_eq_true, bne_iff_ne, decide_eq_true_eq, Option.isNone_iff_eq_none,
    Bool.not_eq_true', and_assoc]
  rfl

include running

theorem acts_fetch_idle (idle : ¬ Fetches s n ∨ (s.slot n).nextRecord = none) : Acts (.blockRecordFetch n) s s [] := by
  show execBlockRecordFetch n s = _
  unfold execBlockRecordFetch
  refine run_ends running ?_
  dsimp only
  rcases idle with not | unknown
  · rw [Bool.eq_false_iff.2 (fun h => not (fetches_iff.1 h))]
  · rw [unknown]
    cases mayFetch (s.slot n) && s.memOpen <;> rfl

theorem ends_fetch {v : BitVec 64} (fetches : Fetches s n) (next : (s.slot n).nextRecord = some v) :
    Ends (.blockRecordFetch n) s (fetchRecord ⟨s, []⟩ n v) := by
  show execBlockRecordFetch n s = _
  unfold execBlockRecordFetch
  refine run_ends running ?_
  dsimp only
  rw [fetches_iff.2 fetches, next]

end fetch

/-- What an appended record changes, read as R147 says it. -/
theorem appendRec_bad (v : BitVec 64) (b : List Byte) (x : Slot) :
    let y := appendRec v b x
    let bad := leAt b 8 8 % 64 ≠ 0 ∨ x.role = .source ∧ x.blockSize < leAt b 0x10 4 ∨
      x.role = .sink ∧ leAt b 0x10 4 < x.blockSize
    (bad → y.nextBlock = x.nextBlock ∧ y.creditLimit = x.creditLimit ∧
      (y.fetched.getLast?.map (fun r => (r.stage, r.outcome, r.number))) = some (.resolved, some .rejected, none)) ∧
    (¬ bad → y.nextBlock = x.nextBlock + 1 ∧
      y.creditLimit = (if x.role = .sink then x.nextBlock + 1 else x.creditLimit) ∧
      (y.fetched.getLast?.map (fun r => (r.stage, r.outcome, r.number))) =
        some (if x.role = .source then .waiting else .credited, none, some x.nextBlock)) := by
  intro y bad
  obtain ⟨list, -, -, number, limit, -⟩ := appendRec_fields v b x
  rw [list, List.getLast?_concat, number, limit]
  unfold joined
  dsimp only
  refine ⟨fun rejects => ?_, fun taken => ?_⟩
  · rw [(badRecord_iff x _ _).2 rejects]
    exact ⟨rfl, rfl, rfl⟩
  · rw [Bool.eq_false_iff.2 (fun h => taken ((badRecord_iff x _ _).1 h))]
    refine ⟨rfl, by simp only [true_and], ?_⟩
    cases x.role <;> rfl

/-! ## The ready block (R129) -/

/-- The block next to send. -/
theorem nextToSend_iff (x : Slot) (b : BitVec 32) : nextToSend x = some b ↔ x.endStarted = false ∧
    ((∃ r, x.fetched.find? (fun e => decide (e.stage = .waiting)) = some r ∧ r.number = some b) ∨
      (∀ e ∈ x.fetched, e.stage ≠ .waiting) ∧ (x.state = .draining ∧ x.drainMode = some .finish) ∧ x.fetchEnded = true ∧
        b = x.nextBlock) := by
  have waiting : (fun r : Rec => r.stage == .waiting) = fun e => decide (e.stage = .waiting) := rfl
  unfold nextToSend
  rw [waiting]
  by_cases ended : x.endStarted = true
  · simp [ended]
  · rw [if_neg ended]
    cases first : x.fetched.find? (fun e => decide (e.stage = .waiting)) with
    | some r =>
      have some_waiting : ¬ ∀ e ∈ x.fetched, e.stage ≠ .waiting := fun none =>
        none r (List.mem_of_find?_eq_some first) (by simpa using List.find?_some first)
      simp [ended, some_waiting]
    | none =>
      have none_waiting : ∀ e ∈ x.fetched, e.stage ≠ .waiting := by simpa using first
      dsimp only
      split
      case isTrue finishes =>
        obtain ⟨drains, mode, ended'⟩ := finishes
        simp [ended, drains, mode, ended', eq_comm (b := b)]
        exact fun _ => none_waiting
      case isFalse stays =>
        refine ⟨fun h => absurd h (by simp), fun h => ?_⟩
        obtain ⟨-, ⟨r, h, -⟩ | ⟨-, ⟨drains, mode⟩, ended', -⟩⟩ := h
        · cases h
        · exact absurd ⟨drains, mode, ended'⟩ stays

theorem readyBlock_iff {s : State} {n : SlotIx} (b : BitVec 32) :
    let x := s.slot n
    let finishes := x.state = .draining ∧ x.drainMode = some .finish
    readyBlock s n = some b ↔
      (x.role = .source ∧ (x.state = .flowing ∨ finishes ∧ (x.pace = 0 ∨ s.tb.state ≠ .free ∧ s.tb.state ≠ .acquiring)) ∧
        x.selfHalt = false ∧ x.peerHalt = false ∧ x.sending = none ∧ x.unresolved < 16 ∧ (s.route x.peer).isSome = true) ∧
      nextToSend x = some b ∧ newer x.creditLimit b = true := by
  intro x finishes
  have sync : noSync s = false ↔ s.tb.state ≠ .free ∧ s.tb.state ≠ .acquiring := by
    rw [Bool.eq_false_iff, Ne, noSync_iff, not_or]
  unfold readyBlock
  dsimp only
  split
  case isTrue may =>
    simp only [Bool.and_eq_true, Bool.or_eq_true, beq_iff_eq, Bool.not_eq_true', Bool.and_eq_false_iff, bne_eq_false_iff_eq,
      Option.isNone_iff_eq_none, decide_eq_true_eq, sync, peerReachable_eq, and_assoc] at may
    obtain ⟨role, state, self, peer, idle, room, route⟩ := may
    rw [Option.filter_eq_some_iff]
    refine ⟨fun h => ⟨⟨role, ?_, self, peer, idle, room, route⟩, h⟩, fun h => h.2⟩
    rcases state with flows | ⟨drains, mode, pace⟩
    · exact .inl flows
    · exact .inr ⟨⟨drains, mode⟩, pace⟩
  case isFalse stays =>
    refine ⟨fun h => absurd h (by simp), fun ⟨⟨role, state, self, peer, idle, room, route⟩, _⟩ => absurd ?_ stays⟩
    simp only [Bool.and_eq_true, Bool.or_eq_true, beq_iff_eq, Bool.not_eq_true', Bool.and_eq_false_iff, bne_eq_false_iff_eq,
      Option.isNone_iff_eq_none, decide_eq_true_eq, sync, peerReachable_eq, and_assoc]
    refine ⟨role, ?_, self, peer, idle, room, route⟩
    rcases state with flows | ⟨⟨drains, mode⟩, pace⟩
    · exact .inl flows
    · exact .inr ⟨drains, mode, pace⟩

/-! ## Pace points (R127) -/

/-- The index after a moment is that of the first later point. -/
theorem indexAfter_first {x : Slot} {t : Time} (paced : x.pace ≠ 0) :
    t.toNat < x.startTime.toNat + indexAfter x t * x.pace ∧
      ∀ j, j < indexAfter x t → x.startTime.toNat + j * x.pace ≤ t.toNat := by
  have pace := Nat.pos_of_ne_zero paced
  unfold indexAfter
  by_cases early : t.toNat < x.startTime.toNat
  · rw [if_pos early]
    exact ⟨by omega, fun j h => absurd h (Nat.not_lt_zero j)⟩
  · rw [if_neg early]
    refine ⟨?_, fun j h => ?_⟩
    · have later := Nat.lt_mul_of_div_lt (Nat.lt_add_one ((t.toNat - x.startTime.toNat) / x.pace)) pace
      omega
    · have sooner := (Nat.le_div_iff_mul_le pace).1 (Nat.le_of_lt_succ h)
      omega

theorem hasPacePoints_iff (x : Slot) : hasPacePoints x = true ↔
    x.role = .source ∧ x.state ≠ .closed ∧ x.gateOpen = true ∧ x.pace ≠ 0 := by
  simp only [hasPacePoints, Bool.and_eq_true, beq_iff_eq, bne_iff_ne, and_assoc]

theorem slot_advanceToRack (s : State) (t : Time) (n : SlotIx) : (advanceToRack s t).slot n = s.slot n := by
  rcases advanceToRack_advance s t with still | ⟨d, moved⟩
  · rw [still]
  · rw [moved, slot_advance]

/-- The next pace point of a slot is the first later than rack time. -/
def nextPoint (n : SlotIx) (v : Act) : Act :=
  ⟨v.s.modSlot n (fun y => { y with nextPace := indexAfter y v.s.tb.rackTime }), v.posts⟩

section points

variable {s : State} {n : SlotIx} (running : s.inReset = false) (points : hasPacePoints (s.slot n) = true)

include running points

theorem ends_pacePoint : Ends (.pacePoint n) s
    (takePoint ⟨advanceToRack s (pacePoint (s.slot n) (s.slot n).nextPace), []⟩ n) := by
  show execPacePoint n s = _
  unfold execPacePoint
  exact run_ends running (if_pos points)

theorem ends_pacePoint_ready {b : BitVec 32} (ready : readyBlock (advanceToRack s (pacePoint (s.slot n) (s.slot n).nextPace)) n
    = some b) : Ends (.pacePoint n) s (nextPoint n (startBlock
      ⟨advanceToRack s (pacePoint (s.slot n) (s.slot n).nextPace), []⟩ n b (pacePoint (s.slot n) (s.slot n).nextPace))) := by
  refine (ends_pacePoint running points).trans (congrArg (fun a => Host.Outcome.next (finish a)) ?_)
  unfold takePoint
  dsimp only
  rw [ready, slot_advanceToRack]
  rfl

theorem ends_pacePoint_miss (none_ready : readyBlock (advanceToRack s (pacePoint (s.slot n) (s.slot n).nextPace)) n = none) :
    let a := advanceToRack s (pacePoint (s.slot n) (s.slot n).nextPace)
    Ends (.pacePoint n) s (nextPoint n ⟨if (s.slot n).state = .flowing then setSlot a n { s.slot n with
      counters := { (s.slot n).counters with missedPace := (s.slot n).counters.missedPace + 1 } } else a, []⟩) := by
  intro a
  refine (ends_pacePoint running points).trans (congrArg (fun a => Host.Outcome.next (finish a)) ?_)
  unfold takePoint
  dsimp only
  rw [none_ready, slot_advanceToRack]
  by_cases flows : (s.slot n).state = .flowing
  · simp only [if_pos flows]
    exact congrArg (fun v => nextPoint n ⟨v, []⟩) ((modSlot_eq_setSlot ..).trans (by rw [slot_advanceToRack]))
  · simp only [if_neg flows]
    rfl

end points

/-! ## ACKNOWLEDGEMENT_TIMER (R155) -/

theorem ends_acknowledgementTimer {s : State} {n : SlotIx} {b : BitVec 32} {r : Rec} {t : Nat} (running : s.inReset = false)
    (found : findRec (s.slot n) b = some r) (sent : r.stage = .sent) (since : r.ackSince = some t) :
    Ends (.acknowledgementTimer n b) s (resolveBlock ⟨advanceTo s (t + ackTime), []⟩ n r b .unconfirmed) := by
  show execAcknowledgementTimer n b s = _
  unfold execAcknowledgementTimer
  refine run_ends running ?_
  dsimp only
  rw [found, Option.filter_some, if_pos (beq_iff_eq.2 sent)]
  dsimp only
  rw [since, atTimer_some]

/-! ## Held completions (R148, R156) -/

section held

variable (a : Act) (n : SlotIx)

theorem completeHeld_stopped (stopped : (a.s.slot n).writeStop = true) : completeHeld a n = (a, false) := if_pos stopped

theorem completeHeld_going (going : (a.s.slot n).writeStop = false) :
    let q := completeRun n (a.s.slot n).fetched.length a ⟨false, false, false⟩
    completeHeld a n = (if runNoticed q.1 n q.2 then notify q.1 n else q.1, q.2.ended) :=
  if_neg (fun h => Bool.false_ne_true (going.symm.trans h))

theorem runNoticed_iff (r : Run) : runNoticed a n r = true ↔ r.exceptional = true ∨ r.any = true ∧
    (a.posts.contains (.notice (.streams (bit 64 n.val))) = true ∨ (a.s.slot n).interval ≤ (a.s.slot n).sinceNotice) := by
  simp only [runNoticed, noticeDue, Bool.or_eq_true, Bool.and_eq_true, decide_eq_true_eq]

theorem completeAndEnd_eq : completeAndEnd a n =
    if (completeHeld a n).2 = true ∧ ((completeHeld a n).1.s.slot n).role = .source then
      closeSlot (completeHeld a n).1 n .ended false .done else (completeHeld a n).1 := by
  unfold completeAndEnd
  dsimp only
  simp only [Bool.and_eq_true, beq_iff_eq]

end held

end Sys2Proof.BlockCommands

/-! SUPPORT. The commands of blocks (O60). -/

namespace Sys2Proof.BlockActs

open Sys2Proof Sys2Proof.Machine Sys2Proof.Statements Sys2Proof.PortUnits Sys2Proof.PortQueues Sys2Proof.Delivery
  Sys2Proof.ExchangeEvents Sys2Proof.StreamSlots Sys2Proof.StreamSlotTimers
  Sys2Proof.BlockRecords Sys2Proof.Completions Sys2Proof.BlockCommands

section fetch

variable {s : State} {n : SlotIx} {v : BitVec 64}

theorem acts_fetch_notPosted (running : s.inReset = false) (fetches : Fetches s n) (next : (s.slot n).nextRecord = some v)
    (readable : Readable s.mem v.toNat 48) (free : leAt (bytesIn s.mem v.toNat 48) 0x14 1 ≠ 1) :
    Acts (.blockRecordFetch n) s (setSlot s n { s.slot n with
      stop := some .notPosted, fetchEnded := decide (Finishes (s.slot n)) }) [] := by
  have ⟨_, _, _, going, _⟩ := fetches
  refine (ends_fetch running fetches next).trans (congrArg (fun a => Host.Outcome.next (finish a)) ?_)
  rw [fetchRecord_notPosted readable free]
  simp only [going, Bool.false_or]

theorem ends_fetch_posted (running : s.inReset = false) (fetches : Fetches s n) (next : (s.slot n).nextRecord = some v)
    (readable : Readable s.mem v.toNat 48) (posted : leAt (bytesIn s.mem v.toNat 48) 0x14 1 = 1) :
    let x := s.slot n
    let y := appendRec v (bytesIn s.mem v.toNat 48) x
    Ends (.blockRecordFetch n) s (completeAndEnd (if y.creditLimit ≠ x.creditLimit ∧
        x.role = .sink ∧ (x.state = .flowing ∨ x.state = .halted ∨ x.state = .stranded)
      then ⟨sendCredit (setSlot s n y) n, []⟩ else ⟨setSlot s n y, []⟩) n) := by
  intro x y
  obtain ⟨-, -, -, -, -, role, state, -⟩ := appendRec_fields v (bytesIn s.mem v.toNat 48) x
  have credits : sendsCredit y = true ↔
      x.role = .sink ∧ (x.state = .flowing ∨ x.state = .halted ∨ x.state = .stranded) := by
    rw [sendsCredit_iff, role, state]
  refine (ends_fetch running fetches next).trans (congrArg (fun a => Host.Outcome.next (finish a)) ?_)
  rw [fetchRecord_posted readable posted]
  exact congrArg (completeAndEnd · n) (ite_congr (propext (and_congr_right fun _ => credits)) (fun _ => rfl) (fun _ => rfl))

end fetch

section start

variable {s : State} {n : SlotIx} (running : s.inReset = false)

include running

theorem acts_blockStart_idle (idle : (s.slot n).pace ≠ 0 ∨ readyBlock s n = none) : Acts (.blockStart n) s s [] := by
  show execBlockStart n s = _
  unfold execBlockStart
  refine run_ends running ?_
  dsimp only
  by_cases unpaced : (s.slot n).pace = 0
  · rw [if_pos unpaced, idle.resolve_left (not_not_intro unpaced)]
  · rw [if_neg unpaced]

theorem ends_blockStart {b : BitVec 32} (unpaced : (s.slot n).pace = 0) (ready : readyBlock s n = some b) :
    Ends (.blockStart n) s (startBlock ⟨s, []⟩ n b 0) := by
  show execBlockStart n s = _
  unfold execBlockStart
  refine run_ends running ?_
  dsimp only
  rw [if_pos unpaced, ready]

end start

/-! ## The fields of a record that joins the list -/

theorem appendRec_record (v : BitVec 64) (b : List Byte) (x : Slot) :
    let y := appendRec v b x
    let link := leAt b 0 8
    (∃ e, y.fetched = x.fetched ++ [e] ∧ e.address = some v ∧ e.linked = decide (link ≠ 0) ∧
      e.buffer = BitVec.ofNat 64 (leAt b 8 8) ∧ e.length = leAt b 0x10 4 ∧ e.lengthDone = 0 ∧ e.timestamp = 0 ∧
      e.quality = 0 ∧ e.arrival = 0 ∧ e.late = false ∧ e.cutOff = false ∧ e.ackSince = none ∧
      y.lastRecord = some ⟨v, decide (link = 0), false, e.number⟩) ∧
    (link ≠ 0 → y.nextRecord = some (BitVec.ofNat 64 link) ∧ y.stop = x.stop ∧ y.fetchEnded = x.fetchEnded) ∧
    (link = 0 → y.nextRecord = none ∧ y.stop = some .tail ∧ (y.fetchEnded = true ↔ x.fetchEnded = true ∨ Finishes x)) := by
  intro y link
  obtain ⟨list, last, next, -, -, -, -, stop, over'⟩ := appendRec_fields v b x
  refine ⟨⟨joined v b x, list, rfl, (by rw [decide_not, ← Bool.beq_eq_decide_eq]; rfl), rfl, rfl, rfl, rfl, rfl, rfl, rfl, rfl, rfl, ?_⟩, fun linked => ?_,
    fun tail => ?_⟩
  · exact last.trans (by rw [Bool.beq_eq_decide_eq])
  · exact ⟨next.trans (if_neg linked), stop.trans (if_neg linked), over'.trans (if_neg linked)⟩
  · refine ⟨next.trans (if_pos tail), stop.trans (if_pos tail), ?_⟩
    rw [over', if_pos tail, Bool.or_eq_true, decide_eq_true_eq]

/-! ## The completion of the oldest record -/

section completion

variable {s : State} {ps : List Post} {n : SlotIx} {r : Rec} {rest : List Rec} {ad : BitVec 64} {o : BlockOutcome}
  (list : (s.slot n).fetched = r :: rest) (address : r.address = some ad)

include list address

theorem completes_done (writable : Writable s.mem (ad.toNat + 0x14) (2 + (doneFields (s.slot n).role r).length)) :
    ∃ m, Stored s.mem m (ad.toNat + 0x14)
        (leBytes 1 2 ++ leBytes 1 (blockOutcomeCode o) ++ doneFields (s.slot n).role r) ∧
      (∀ k run, r.outcome = some o → completeRun n (k + 1) ⟨s, ps⟩ run =
        completeRun n k ⟨recordDone s n r rest ad m o, ps⟩
          ⟨run.exceptional || decide (o = .damaged ∨ o = .unconfirmed ∨ o = .discarded ∨ o = .rejected),
            run.ended || (decide (o = .ended) && decide (r.length = 0)), true⟩) ∧
      (∀ k, r.outcome.getD .discarded = o → completeAll n (k + 1) ⟨s, ps⟩ =
        completeAll n k ⟨recordDone s n r rest ad m o, ps⟩) := by
  obtain ⟨m, stored, written⟩ := writeRec_stored address o writable
  refine ⟨m, stored, fun k run held => ?_, fun k outcome => ?_⟩
  · rw [completeRun_written list held written, recDone_eq list address, isExceptional_eq, Bool.beq_eq_decide_eq, Bool.beq_eq_decide_eq]
  · rw [completeAll_written list outcome written, recDone_eq list address]

omit list address in
theorem setSlot_mem (s : State) (m : Memory) (n : SlotIx) (x : Slot) :
    setSlot { s with mem := m } n x = { setSlot s n x with mem := m } := rfl

omit address in
/-- A faulted write, whichever of its two it is, stops the completions there. -/
theorem completes_stop {m : Memory} {e : Nat}
    (faults : writeRec s n (r.outcome.getD .discarded) r = ({ s with mem := m }, some e)) :
    let x := s.slot n
    let faulted := { x.counters with faults := x.counters.faults + 1 }
    let ps' := ps ++ [faultPost .blockRecordWrite e]
    (∀ k run, r.outcome.isSome = true → completeRun n (k + 1) ⟨s, ps⟩ run =
      (faultHalt ⟨{ setSlot s n { x with writeStop := true, counters := faulted } with mem := m }, ps'⟩ n, run)) ∧
    ∀ k, completeAll n (k + 1) ⟨s, ps⟩ = ⟨{ setSlot s n { x with counters := faulted } with mem := m }, ps'⟩ := by
  intro x faulted ps'
  refine ⟨fun k run held => ?_, fun k => ?_⟩
  · obtain ⟨o, outcome⟩ := Option.isSome_iff_exists.1 held
    rw [outcome, Option.getD_some] at faults
    rw [completeRun_fault list outcome faults, setSlot_mem]
    rfl
  · rw [completeAll_fault list rfl faults, setSlot_mem]
    rfl

end completion

section empty

variable {a : Act} {n : SlotIx} {k : Nat} (empty : (a.s.slot n).fetched = [])

include empty

theorem completeRun_empty {run : Run} : completeRun n k a run = (a, run) := by
  cases k with
  | zero => rfl
  | succ k => rw [completeRun, empty]

theorem completeAll_empty : completeAll n k a = a := by
  cases k with
  | zero => rfl
  | succ k => rw [completeAll, empty]

end empty

/-- Settles O60, from one lemma for each step of a block. -/
theorem blockCommands : Obligations.BlockCommands := by
  unfold Obligations.BlockCommands
  refine ⟨fun s n running => ?_, fun x t => indexAfter_first, fun c => ⟨rfl, rfl, rfl, rfl, rfl, rfl⟩,
    fun v b x _ => ?_, fun s ps n b time r route => ?_, fun s ps n d time r found => ?_, fun s ps n => ?_,
    fun s ps n r rest ad list address => ?_, fun a n => ?_, fun s ps n => ?_⟩
  · intro x fetches
    refine ⟨acts_fetch_idle running, fun v fetching next => ?_, ?_, ?_, ?_, ?_, ?_⟩
    · refine ⟨fun e fault => ?_, acts_fetch_notPosted running fetching next, fun readable posted =>
        ⟨ends_fetch_posted running fetching next readable posted, appendRec_bad v _ x⟩⟩
      exact (ends_fetch running fetching next).trans (congrArg (fun a => Host.Outcome.next (finish a))
        (fetchRecord_fault fault))
    · exact acts_blockStart_idle running
    · exact fun b => ends_blockStart running
    · exact fun b => (readyBlock_iff b).trans (and_congr_right fun _ => and_congr_left fun _ => nextToSend_iff x b)
    · intro role state gate paced
      have points := (hasPacePoints_iff x).2 ⟨role, state, gate, paced⟩
      exact ⟨fun b => ends_pacePoint_ready running points, ends_pacePoint_miss running points⟩
    · exact fun b r t found sent since => ends_acknowledgementTimer running found sent since
  · exact appendRec_record v b x
  · exact (startBlock_route route).trans (by rw [startRec_eq])
  · exact ⟨offerCell_reads found, fun e => offerCell_fault found⟩
  · exact ⟨faultHalt_stays, faultHalt_halts⟩
  · intro x fields size doneOf exceptional
    have size_eq : size - 1 = 1 + fields.length := by omega
    refine ⟨fun k run => completeRun_idle list, fun o writable => completes_done list address writable,
      fun e fault => ?_, fun e writable fault => ?_⟩
    · exact completes_stop list (m := s.mem) (writeRec_fieldsFault address _ (size_eq ▸ fault))
    · obtain ⟨m, stored, faults⟩ := writeRec_stateFault address _ (size_eq ▸ writable) fault
      exact ⟨m, stored, completes_stop list faults⟩
  · intro x q y noticed
    have noticed_iff : runNoticed q.1 n q.2 = true ↔ noticed := runNoticed_iff q.1 n q.2
    refine ⟨fun run k empty => ?_, completeHeld_stopped a n, fun going notices => ?_, fun going silent => ?_,
      completeAndEnd_eq a n⟩
    · exact ⟨completeRun_empty empty, completeAll_empty empty⟩
    · rw [completeHeld_going a n going, if_pos (noticed_iff.2 notices), notify_eq]
    · rw [completeHeld_going a n going, if_neg (fun h => silent (noticed_iff.1 h))]
  · refine ⟨retryStop_none, retryStop_tail, fun f stop other => ⟨fun v => retryStop_next stop other,
      retryStop_unknown stop other⟩, rereadLink_none, fun l last => ⟨rereadLink_zero last, fun readable link => ?_,
      fun e => rereadLink_fault last⟩⟩
    rw [rereadLink_link last readable link, linkTail_eq]

end Sys2Proof.BlockActs

/-! SUPPORT. The rescan (R178): the flag of a lane and of an inbox slot, the pending notice written to a lane held EMPTY,
and what the whole rescan writes where nothing of the area faults. -/

namespace Sys2Proof.Rescan

open Sys2Proof Sys2Proof.Machine Sys2Proof.Statements Sys2Proof.PortQueues Sys2Proof.Delivery Sys2Proof.ExchangeEvents

/-! ## Lanes and flags -/

theorem setLane_setLane (s : State) (k : NoticeIx) (b c : LaneBelief) : setLane (setLane s k b) k c = setLane s k c := by
  unfold setLane State.modEx
  dsimp only
  rw [upd_upd]

theorem setLane_self {s : State} {k : NoticeIx} {b : LaneBelief} (held : s.ex.lanes.get k = b) : setLane s k b = s := by
  unfold setLane State.modEx
  dsimp only
  rw [upd_self held]

theorem leNat_bytesIn_one (m : Memory) (a : Nat) : leNat (bytesIn m a 1) = (memByte m a).toNat := by
  show (memByte m (a + 0)).toNat + 256 * 0 = _
  rfl

section flag

variable {s : State} {a : Nat}

theorem readFlag_fault {x : Nat} (fault : firstFault s.mem.readFaults a 1 = some x) : readFlag s a = .error x := by
  rw [readFlag, memRead_error fault]

theorem readFlag_reads (readable : Readable s.mem a 1) : readFlag s a = .ok (decide (memByte s.mem a ≠ 0)) := by
  rw [readFlag, memRead_bytesIn readable]
  dsimp only
  rw [leNat_bytesIn_one]
  refine congrArg Except.ok ?_
  rw [Bool.eq_iff_iff, bne_iff_ne, decide_eq_true_eq]
  exact not_congr ⟨fun zero => BitVec.eq_of_toNat_eq zero, fun zero => by rw [zero]; rfl⟩

end flag

/-! ## One inbox slot -/

section inbox

variable {s : State} {k : InboxIx} (isOpen : s.memOpen = true)

theorem rescanInbox_closed (closed : s.memOpen = false) : rescanInbox s k = s := if_pos closed

include isOpen

theorem rescanInbox_fault {x : Nat} (fault : firstFault s.mem.readFaults (inboxAddress s k) 1 = some x) :
    rescanInbox s k = takeNotice s (.errors .memoryFault .memoryFault .rescanRead (BitVec.ofNat 64 x) 1) := by
  unfold rescanInbox
  rw [if_neg (by rw [isOpen]; decide), readFlag_fault fault]
  rfl

theorem rescanInbox_reads (readable : Readable s.mem (inboxAddress s k) 1) : rescanInbox s k =
    if memByte s.mem (inboxAddress s k) ≠ 0 then s else holdInbox s k false := by
  unfold rescanInbox
  rw [if_neg (by rw [isOpen]; decide), readFlag_reads readable]
  simp only [decide_eq_true_eq]

end inbox

/-! ## One lane -/

/-- The lane's record stays: it is held FULL, and its flag is not cleared. -/
abbrev LaneStays (s : State) (k : NoticeIx) : Prop :=
  (s.ex.lanes.get k).full = true ∧ memByte s.mem (laneAddress s k) ≠ 0

section lane

variable {s : State} {k : NoticeIx}

theorem rescanLane_closed (closed : s.memOpen = false) : rescanLane s k = s := if_pos closed

variable (isOpen : s.memOpen = true)

include isOpen

theorem rescanLane_fault {x : Nat} (fault : firstFault s.mem.readFaults (laneAddress s k) 1 = some x) :
    rescanLane s k = takeNotice s (.errors .memoryFault .memoryFault .rescanRead (BitVec.ofNat 64 x) 1) := by
  unfold rescanLane
  rw [if_neg (by rw [isOpen]; decide), readFlag_fault fault]
  rfl

variable (readable : Readable s.mem (laneAddress s k) 1)

include readable

theorem rescanLane_stays (stays : LaneStays s k) : rescanLane s k = s := by
  unfold rescanLane
  rw [if_neg (by rw [isOpen]; decide), readFlag_reads readable]
  dsimp only
  rw [if_pos stays.1, if_pos (decide_eq_true stays.2)]

/-- A lane found or held EMPTY: what was pending for it is written. -/
theorem rescanLane_empties (goes : ¬ LaneStays s k) :
    rescanLane s k = flushPending (setLane s k ⟨false, (s.ex.lanes.get k).pending⟩) k := by
  unfold rescanLane
  rw [if_neg (by rw [isOpen]; decide), readFlag_reads readable]
  dsimp only
  by_cases full : (s.ex.lanes.get k).full = true
  · rw [if_pos full, if_neg (fun h => goes ⟨full, of_decide_eq_true h⟩)]
  · have held : s.ex.lanes.get k = ⟨false, (s.ex.lanes.get k).pending⟩ := by
      rw [← Bool.eq_false_iff.2 full]
    rw [if_neg full, setLane_self held]

theorem rescanLane_nothing (goes : ¬ LaneStays s k) (nothing : (s.ex.lanes.get k).pending = none) :
    rescanLane s k = setLane s k ⟨false, none⟩ := by
  have held : ((setLane s k ⟨false, none⟩).ex.lanes.get k).pending = none := by
    show ((upd s.ex.lanes k _).get k).pending = none
    rw [get_upd_same]
  rw [rescanLane_empties isOpen readable goes, nothing, flushPending, held]

theorem rescanLane_pending {p : PendingNotice} (goes : ¬ LaneStays s k) (pending : (s.ex.lanes.get k).pending = some p) :
    rescanLane s k = laneFault k (writeLane (setLane s k ⟨false, some p⟩) k p) := by
  have held : ((setLane s k ⟨false, some p⟩).ex.lanes.get k).pending = some p := by
    show ((upd s.ex.lanes k _).get k).pending = _
    rw [get_upd_same]
  rw [rescanLane_empties isOpen readable goes, pending, flushPending, held]

/-- A lane record: its flag, merge count, reserved bytes and fields. -/
def laneRecord (p : PendingNotice) : List Byte :=
  leBytes 1 1 ++ leBytes 1 p.merges ++ zeros 6 ++ padTo 56 (noticeFields p.notice)

theorem rescanLane_written {p : PendingNotice} (goes : ¬ LaneStays s k) (pending : (s.ex.lanes.get k).pending = some p)
    (writable : Writable s.mem (laneAddress s k) 64) : ∃ m, Stored s.mem m (laneAddress s k) (laneRecord p) ∧
      rescanLane s k = { setLane s k ⟨true, none⟩ with mem := m } := by
  obtain ⟨m, stored, written⟩ := writeLane_fits (s := setLane s k ⟨false, some p⟩) (k := k) (p := p) writable
  refine ⟨m, stored, ?_⟩
  rw [rescanLane_pending isOpen readable goes pending, written, setLane_setLane]
  rfl

/-- A lane write that faults leaves the lane held EMPTY with its notice pending. -/
theorem rescanLane_stops {p : PendingNotice} {m : Memory} {x : Nat} (goes : ¬ LaneStays s k)
    (pending : (s.ex.lanes.get k).pending = some p)
    (fault : writeLane (setLane s k ⟨false, some p⟩) k p =
      ({ setLane (setLane s k ⟨false, some p⟩) k ⟨false, some p⟩ with mem := m }, some x)) :
    rescanLane s k = if k = 11 then enterBroken { setLane s k ⟨false, some p⟩ with mem := m }
      else takeNotice { setLane s k ⟨false, some p⟩ with mem := m }
        (.errors .memoryFault .memoryFault .laneWrite (BitVec.ofNat 64 x) 1) := by
  rw [rescanLane_pending isOpen readable goes pending, fault, setLane_setLane]
  rfl

end lane

/-- The rescan of a lane, by its flag, what it holds and where a write faults. -/
theorem rescanLane_spec (s : State) (k : NoticeIx) :
    let b := s.ex.lanes.get k
    let base := areaBase s + 0x400 + 0x40 * k.val
    let stays := b.full = true ∧ memByte s.mem base ≠ 0
    (s.memOpen = false → rescanLane s k = s) ∧
    (∀ x, s.memOpen = true → firstFault s.mem.readFaults base 1 = some x → rescanLane s k =
      takeNotice s (.errors .memoryFault .memoryFault .rescanRead (BitVec.ofNat 64 x) 1)) ∧
    (s.memOpen = true → Readable s.mem base 1 →
      (stays → rescanLane s k = s) ∧
      (¬ stays → b.pending = none → rescanLane s k = setLane s k ⟨false, none⟩) ∧
      ∀ p, ¬ stays → b.pending = some p →
        let record : List Byte := leBytes 1 p.merges ++ zeros 6 ++ padTo 56 (noticeFields p.notice)
        let kept (m : Memory) : State := { setLane s k ⟨false, some p⟩ with mem := m }
        let stops (m : Memory) (x : Nat) : Prop := rescanLane s k = if k = 11 then enterBroken (kept m)
          else takeNotice (kept m) (.errors .memoryFault .memoryFault .laneWrite (BitVec.ofNat 64 x) 1)
        (Writable s.mem base 64 → ∃ m, Stored s.mem m base (leBytes 1 1 ++ record) ∧
          rescanLane s k = { setLane s k ⟨true, none⟩ with mem := m }) ∧
        (∀ x, firstFault s.mem.writeFaults (base + 1) 63 = some x → stops s.mem x) ∧
        (∀ x, Writable s.mem (base + 1) 63 → firstFault s.mem.writeFaults base 1 = some x →
          ∃ m, Stored s.mem m (base + 1) record ∧ stops m x)) := by
  intro b base stays
  refine ⟨rescanLane_closed, fun x isOpen => rescanLane_fault isOpen, fun isOpen readable =>
    ⟨rescanLane_stays isOpen readable, rescanLane_nothing isOpen readable, fun p goes pending => ?_⟩⟩
  intro record kept stops
  refine ⟨fun writable => ?_, fun x fault => ?_, fun x body fault => ?_⟩
  · have record_eq : laneRecord p = leBytes 1 1 ++ record := by
      simp only [laneRecord, record, List.append_assoc]
    exact record_eq ▸ rescanLane_written isOpen readable goes pending writable
  · exact rescanLane_stops isOpen readable goes pending (m := s.mem)
      (writeLane_bodyFault (s := setLane s k ⟨false, some p⟩) fault)
  · obtain ⟨m, stored, faults⟩ := writeLane_flagFault (s := setLane s k ⟨false, some p⟩) (p := p) body fault
    exact ⟨m, stored, rescanLane_stops isOpen readable goes pending faults⟩

/-! ## Runs written one after the other -/

/-- Memory `m'` is `m` with runs of bytes written. -/
structure Written (m m' : Memory) (w : List (Nat × List Byte)) : Prop where
  inside : ∀ r ∈ w, ∀ i, i < r.2.length → memByte m' (r.1 + i) = r.2.getD i 0
  outside : ∀ a, (∀ r ∈ w, a < r.1 ∨ r.1 + r.2.length ≤ a) → memByte m' a = memByte m a
  readFaults : m'.readFaults = m.readFaults
  writeFaults : m'.writeFaults = m.writeFaults

theorem written_nil (m : Memory) : Written m m [] :=
  ⟨fun _ h => absurd h List.not_mem_nil, fun _ _ => rfl, rfl, rfl⟩

/-- One more run, apart from those before it. -/
theorem Written.snoc {m m' m'' : Memory} {w : List (Nat × List Byte)} {a : Nat} {bs : List Byte} (before : Written m m' w)
    (stored : Stored m' m'' a bs) (apart : ∀ r ∈ w, r.1 + r.2.length ≤ a ∨ a + bs.length ≤ r.1) :
    Written m m'' (w ++ [(a, bs)]) where
  inside r member i low := by
    rcases List.mem_append.1 member with old | new
    · have away := apart r old
      rw [stored.bytes, if_neg (by omega)]
      exact before.inside r old i low
    · obtain rfl := List.mem_singleton.1 new
      rw [stored.bytes, if_pos (by dsimp only at low ⊢; omega)]
      simp
  outside x out := by
    have away := out (a, bs) (List.mem_append_right w (List.mem_singleton.2 rfl))
    rw [stored.bytes, if_neg (by dsimp only at away; omega)]
    exact before.outside x fun r old => out r (List.mem_append_left _ old)
  readFaults := stored.readFaults.trans before.readFaults
  writeFaults := stored.writeFaults.trans before.writeFaults

/-- A run past all that were written is as it was. -/
theorem Written.below {m m' : Memory} {w : List (Nat × List Byte)} {a : Nat} (written : Written m m' w)
    (past : ∀ r ∈ w, r.1 + r.2.length ≤ a) : memByte m' a = memByte m a :=
  written.outside a fun r member => .inr (past r member)

/-! ## The mirrors -/

/-- The bytes of each mirror. -/
def mirrorLength : Mirror → Nat
  | .port _ => 80
  | .roster => 8
  | .timebase => 16
  | .origin => 4
  | .counters => 180

theorem length_mirrorBytes (s : State) (m : Mirror) : (mirrorBytes s m).length = mirrorLength m := by
  cases m with
  | port p => exact length_portEntryBytes s p
  | roster =>
    show (rosterSummaryBytes s).length = 8
    simp only [rosterSummaryBytes, List.length_append, length_leBytes]
  | timebase =>
    show (timebaseSummaryBytes s).length = 16
    simp only [timebaseSummaryBytes, List.length_append, length_leBytes, length_zeros]
  | origin =>
    show (originBytes s.store).length = 4
    rw [originBytes, length_leBytes]
  | counters => exact length_counterBlock s

/-- The run of a mirror. -/
def mirrorRun (s : State) (m : Mirror) : Nat × List Byte := (areaBase s + mirrorOffset m, mirrorBytes s m)

/-- Two mirrors share no byte. -/
abbrev MirrorsApart (m m' : Mirror) : Prop :=
  mirrorOffset m + mirrorLength m ≤ mirrorOffset m' ∨ mirrorOffset m' + mirrorLength m' ≤ mirrorOffset m

/-- No bytes of the Exchange Area fault. -/
structure AreaWorks (s : State) : Prop where
  isOpen : s.memOpen = true
  readable : Readable s.mem (areaBase s) 0x1800
  writable : Writable s.mem (areaBase s) 0x1800

theorem writeMirror_written {s : State} (works : AreaWorks s) {m : Memory} {w : List (Nat × List Byte)}
    (before : Written s.mem m w) (x : Mirror)
    (apart : ∀ r ∈ w, r.1 + r.2.length ≤ (mirrorRun s x).1 ∨ (mirrorRun s x).1 + (mirrorRun s x).2.length ≤ r.1) :
    ∃ m', Written s.mem m' (w ++ [mirrorRun s x]) ∧ writeMirror { s with mem := m } x = { s with mem := m' } := by
  have same : mirrorBytes { s with mem := m } x = mirrorBytes s x := by cases x <;> rfl
  have inside := mirror_inside s x
  have fits : Writable ({ s with mem := m } : State).mem (areaBase s + mirrorOffset x) (mirrorBytes s x).length := by
    show firstFault m.writeFaults _ _ = none
    rw [before.writeFaults]
    exact writable_sub works.writable (by omega) (by omega)
  obtain ⟨m', stored, wrote⟩ := writeArea_fits (s := { s with mem := m }) (w := .mirrorWrite) works.isOpen fits
  refine ⟨m', before.snoc stored apart, ?_⟩
  show writeArea _ .mirrorWrite (areaBase s + mirrorOffset x) (mirrorBytes { s with mem := m } x) = _
  rw [same, wrote]

theorem foldl_writeMirror {s : State} (works : AreaWorks s) (xs : List Mirror) : ∀ (m : Memory) (ys : List Mirror),
    Written s.mem m (ys.map (mirrorRun s)) → (ys ++ xs).Pairwise MirrorsApart →
    ∃ m', Written s.mem m' ((ys ++ xs).map (mirrorRun s)) ∧
      xs.foldl writeMirror { s with mem := m } = { s with mem := m' } := by
  induction xs with
  | nil => exact fun m ys before _ => ⟨m, by rw [List.append_nil]; exact before, rfl⟩
  | cons x xs ih =>
    intro m ys before apart
    obtain ⟨-, -, across⟩ := List.pairwise_append.1 apart
    obtain ⟨m', written, wrote⟩ := writeMirror_written works before x fun r old => by
      obtain ⟨y, member, rfl⟩ := List.mem_map.1 old
      have away := across y member x List.mem_cons_self
      simp only [mirrorRun, length_mirrorBytes]
      omega
    rw [List.foldl_cons, wrote, List.append_cons]
    rw [List.append_cons] at apart
    refine ih m' (ys ++ [x]) ?_ apart
    rw [List.map_append]
    exact written

/-! ## The lanes -/

/-- The state with other lanes and other memory. -/
def withLanes (s : State) (lanes : Vector LaneBelief 12) (m : Memory) : State :=
  { s with ex := { s.ex with lanes := lanes }, mem := m }

/-- What a rescan writes for a lane. -/
def rescanRuns (s : State) (k : NoticeIx) : List (Nat × List Byte) :=
  if LaneStays s k then [] else (s.ex.lanes.get k).pending.toList.map fun p => (laneAddress s k, laneRecord p)

/-- What a rescan leaves a lane held as. -/
def rescanned (s : State) (k : NoticeIx) : LaneBelief :=
  if LaneStays s k then s.ex.lanes.get k else ⟨(s.ex.lanes.get k).pending.isSome, none⟩

theorem length_laneRecord (p : PendingNotice) : (laneRecord p).length = 64 := by
  rw [laneRecord, laneRecord_eq, List.length_cons, length_laneBody]

/-- A lane's run is its own record. -/
theorem rescanRuns_within {s : State} {k : NoticeIx} {r : Nat × List Byte} (member : r ∈ rescanRuns s k) :
    r.1 = laneAddress s k ∧ r.2.length = 64 := by
  unfold rescanRuns at member
  split at member
  · exact absurd member List.not_mem_nil
  · obtain ⟨p, -, rfl⟩ := List.mem_map.1 member
    exact ⟨rfl, length_laneRecord p⟩

section lanes

variable {s : State} (works : AreaWorks s) {m : Memory} {w : List (Nat × List Byte)} (before : Written s.mem m w)

include works before

theorem rescanLane_step {lanes : Vector LaneBelief 12} {k : NoticeIx} (fresh : lanes.get k = s.ex.lanes.get k)
    (past : ∀ r ∈ w, r.1 + r.2.length ≤ laneAddress s k) :
    ∃ m', Written s.mem m' (w ++ rescanRuns s k) ∧
      rescanLane (withLanes s lanes m) k = withLanes s (upd lanes k fun _ => rescanned s k) m' := by
  have low := k.isLt
  have place : laneAddress s k = areaBase s + (0x400 + 0x40 * k.val) := by unfold laneAddress; omega
  have isOpen : (withLanes s lanes m).memOpen = true := works.isOpen
  have readable : Readable (withLanes s lanes m).mem (laneAddress (withLanes s lanes m) k) 1 := by
    show firstFault m.readFaults (laneAddress s k) 1 = none
    rw [before.readFaults]
    exact firstFault_sub works.readable (by omega) (by omega)
  have writable : Writable (withLanes s lanes m).mem (laneAddress (withLanes s lanes m) k) 64 := by
    show firstFault m.writeFaults (laneAddress s k) 64 = none
    rw [before.writeFaults]
    exact writable_sub works.writable (by omega) (by omega)
  have same : LaneStays (withLanes s lanes m) k ↔ LaneStays s k := by
    show (lanes.get k).full = true ∧ memByte m (laneAddress s k) ≠ 0 ↔ _
    rw [fresh, before.below past]
  unfold rescanRuns rescanned
  by_cases stays : LaneStays s k
  · rw [if_pos stays, if_pos stays, List.append_nil, rescanLane_stays isOpen readable (same.2 stays), upd_self fresh]
    exact ⟨m, before, rfl⟩
  · have goes : ¬ LaneStays (withLanes s lanes m) k := fun h => stays (same.1 h)
    rw [if_neg stays, if_neg stays]
    cases pending : (s.ex.lanes.get k).pending with
    | none =>
      have nothing : ((withLanes s lanes m).ex.lanes.get k).pending = none := (congrArg _ fresh).trans pending
      rw [rescanLane_nothing isOpen readable goes nothing]
      exact ⟨m, by rw [Option.toList_none, List.map_nil, List.append_nil]; exact before, rfl⟩
    | some p =>
      have held : ((withLanes s lanes m).ex.lanes.get k).pending = some p := (congrArg _ fresh).trans pending
      obtain ⟨m', stored, wrote⟩ := rescanLane_written isOpen readable goes held writable
      exact ⟨m', before.snoc stored fun r old => .inl (past r old), wrote⟩

end lanes

theorem foldl_rescanLane {s : State} (works : AreaWorks s) (ks : List NoticeIx) : ∀ (lanes : Vector LaneBelief 12)
    (m : Memory) (w : List (Nat × List Byte)), Written s.mem m w → ks.Pairwise (· < ·) →
    (∀ k ∈ ks, lanes.get k = s.ex.lanes.get k) → (∀ r ∈ w, ∀ k ∈ ks, r.1 + r.2.length ≤ laneAddress s k) →
    ∃ lanes' m', Written s.mem m' (w ++ ks.flatMap (rescanRuns s)) ∧
      ks.foldl rescanLane (withLanes s lanes m) = withLanes s lanes' m' ∧
      ∀ k, lanes'.get k = if k ∈ ks then rescanned s k else lanes.get k := by
  induction ks with
  | nil => exact fun lanes m w before _ _ _ => ⟨lanes, m, by rw [List.flatMap_nil, List.append_nil]; exact before, rfl,
      fun k => (if_neg List.not_mem_nil).symm⟩
  | cons k ks ih =>
    intro lanes m w before ascending fresh past
    obtain ⟨least, ascending⟩ := List.pairwise_cons.1 ascending
    obtain ⟨m₁, written, step⟩ := rescanLane_step works before (fresh k List.mem_cons_self)
      fun r old => past r old k List.mem_cons_self
    have other {j : NoticeIx} (member : j ∈ ks) : j ≠ k := Fin.ne_of_gt (least j member)
    obtain ⟨lanes', m', all, fold, left⟩ := ih (upd lanes k fun _ => rescanned s k) m₁ (w ++ rescanRuns s k) written
      ascending
      (fun j member => (get_upd_other _ _ _ _ (other member)).trans (fresh j (List.mem_cons_of_mem k member)))
      (fun r member j later => by
        rcases List.mem_append.1 member with old | new
        · exact past r old j (List.mem_cons_of_mem k later)
        · obtain ⟨place, length⟩ := rescanRuns_within new
          have after : k.val < j.val := least j later
          rw [place, length]
          unfold laneAddress
          omega)
    refine ⟨lanes', m', ?_, ?_, fun j => ?_⟩
    · rw [List.flatMap_cons, ← List.append_assoc]
      exact all
    · rw [List.foldl_cons, step, fold]
    · rw [left]
      by_cases here : j = k
      · subst here
        rw [if_neg (fun h => other h rfl), get_upd_same, if_pos List.mem_cons_self]
      · rw [get_upd_other _ _ _ _ here]
        simp only [List.mem_cons, here, false_or]

/-! ## The inbox slots -/

/-- The state with other inbox beliefs. -/
def withInbox (s : State) (inbox : Vector Bool 8) : State := { s with notes := { s.notes with inbox := inbox } }

theorem rescanInbox_step {s : State} {inbox : Vector Bool 8} {k : InboxIx} (isOpen : s.memOpen = true)
    (readable : Readable s.mem (inboxAddress s k) 1) : rescanInbox (withInbox s inbox) k =
      withInbox s (upd inbox k (· && memByte s.mem (inboxAddress s k) != 0)) := by
  refine (rescanInbox_reads (s := withInbox s inbox) isOpen readable).trans ?_
  show (if memByte s.mem (inboxAddress s k) ≠ 0 then withInbox s inbox
    else withInbox s (upd inbox k fun _ => false)) = _
  by_cases full : memByte s.mem (inboxAddress s k) ≠ 0
  · rw [if_pos full, bne_iff_ne.2 full]
    simp only [Bool.and_true]
    rw [upd_congr (g := fun _ => inbox.get k) rfl, upd_self rfl]
  · rw [if_neg full, Bool.eq_false_iff.2 (fun h => full (bne_iff_ne.1 h))]
    simp only [Bool.and_false]

theorem foldl_rescanInbox {s : State} (isOpen : s.memOpen = true)
    (readable : ∀ k, Readable s.mem (inboxAddress s k) 1) (ks : List InboxIx) : ∀ inbox : Vector Bool 8,
    ks.foldl rescanInbox (withInbox s inbox) = withInbox s
      (ks.foldl (fun v k => upd v k (· && memByte s.mem (inboxAddress s k) != 0)) inbox) := by
  induction ks with
  | nil => exact fun _ => rfl
  | cons k ks ih =>
    intro inbox
    rw [List.foldl_cons, List.foldl_cons, rescanInbox_step isOpen (readable k), ih]

end Sys2Proof.Rescan

/-! SUPPORT. NUDGE for a block chain (R146, R157) and for the rescan (R178) (O28). -/

namespace Sys2Proof.NudgeActs

open Sys2Proof Sys2Proof.Machine Sys2Proof.Statements Sys2Proof.PortUnits Sys2Proof.PortQueues Sys2Proof.RosterActs
  Sys2Proof.Delivery Sys2Proof.ExchangeEvents Sys2Proof.StreamSlots Sys2Proof.BlockRecords Sys2Proof.BlockCommands
  Sys2Proof.Rescan

/-! ## NUDGE for a block chain -/

section blocks

variable {s : State} {n : SlotIx} (running : s.inReset = false)

include running

theorem acts_nudge_idle (idle : s.memOpen = false ∨ (s.slot n).state = .closed) : Acts (.nudgeBlockChain n) s s [] :=
  run_ends running (if_pos idle)

variable (isOpen : s.memOpen = true) (opened : (s.slot n).state ≠ .closed)

include isOpen opened

theorem ends_nudge : Ends (.nudgeBlockChain n) s (retryStop (retryWrite ⟨s, []⟩ n) n) := by
  refine run_ends running (if_neg ?_)
  rintro (closed | closed)
  · exact Bool.false_ne_true (closed.symm.trans isOpen)
  · exact opened closed

theorem ends_nudge_write (stopped : (s.slot n).writeStop = true) : Ends (.nudgeBlockChain n) s
    (retryStop (completeAndEnd ⟨setSlot s n { s.slot n with writeStop := false }, []⟩ n) n) := by
  refine (ends_nudge running isOpen opened).trans (congrArg (fun a => Host.Outcome.next (finish (retryStop a n))) ?_)
  exact (retryWrite_eq _ n).trans (if_pos stopped)

variable (written : (s.slot n).writeStop = false)

include written

/-- With no write to make again the NUDGE retries the fetch stop alone. -/
theorem ends_nudge_stop {a : Act} (stop : retryStop ⟨s, []⟩ n = a) : Ends (.nudgeBlockChain n) s a := by
  refine (ends_nudge running isOpen opened).trans (congrArg (fun a => Host.Outcome.next (finish a)) ?_)
  rw [← stop]
  exact congrArg (retryStop · n) ((retryWrite_eq _ n).trans (if_neg (by rw [written]; decide)))

theorem nudge_fetches {v : BitVec 64} (stop : (s.slot n).stop = some .notPosted ∨ (s.slot n).stop = some .memoryFault)
    (next : (s.slot n).nextRecord = some v) (going : (s.slot n).fetchEnded = false)
    (room : (s.slot n).fetched.length < 16) :
    exec (.nudgeBlockChain n) s = exec (.blockRecordFetch n) (setSlot s n { s.slot n with stop := none }) := by
  obtain ⟨f, stopped, other⟩ : ∃ f, (s.slot n).stop = some f ∧ f ≠ .tail := by
    rcases stop with stop | stop
    · exact ⟨_, stop, by decide⟩
    · exact ⟨_, stop, by decide⟩
  have retries := (retryStop_next (ps := []) stopped other next).trans (if_neg (by rw [going]; decide))
  have restarted := slot_setSlot s n { s.slot n with stop := none }
  have fetches : Fetches (setSlot s n { s.slot n with stop := none }) n := by
    unfold Fetches
    rw [restarted]
    exact ⟨opened, room, rfl, going, isOpen⟩
  refine (ends_nudge_stop running isOpen opened written retries).trans
    (ends_fetch (s := setSlot s n { s.slot n with stop := none }) running fetches ?_).symm
  rw [restarted]
  exact next

theorem acts_nudge_over (notTail : (s.slot n).stop ≠ some .tail) (next : (s.slot n).nextRecord ≠ none)
    (over' : (s.slot n).fetchEnded = true) : Acts (.nudgeBlockChain n) s s [] := by
  refine ends_nudge_stop running isOpen opened written ?_
  cases stop : (s.slot n).stop with
  | none => exact retryStop_none stop
  | some f =>
    obtain ⟨v, known⟩ := Option.ne_none_iff_exists'.1 next
    have other : f ≠ .tail := fun tail => notTail (by rw [stop, tail])
    exact (retryStop_next stop other known).trans (if_pos over')

/-- The tail's link is read again. -/
theorem ends_nudge_tail {a : Act} (stop : (s.slot n).stop = some .tail ∨
    (s.slot n).stop = some .memoryFault ∧ (s.slot n).nextRecord = none) (rereads : rereadLink ⟨s, []⟩ n = a) :
    Ends (.nudgeBlockChain n) s a := by
  refine ends_nudge_stop running isOpen opened written (Eq.trans ?_ rereads)
  rcases stop with tail | ⟨fault, unknown⟩
  · exact retryStop_tail tail
  · exact retryStop_unknown fault (by decide) unknown

end blocks

/-! ## The whole rescan -/

section rescan

theorem acts_rescan_closed {s : State} (running : s.inReset = false) (closed : s.memOpen = false) :
    Acts .nudgeRescan s s [] :=
  runState_ends running (if_pos closed)

theorem acts_rescan {s : State} (running : s.inReset = false) (isOpen : s.memOpen = true) :
    Acts .nudgeRescan s
      (allInbox.foldl rescanInbox (allNotices.foldl rescanLane (rescanMirrors.foldl writeMirror s))) [] :=
  runState_ends running (if_neg (by rw [isOpen]; decide))

/-- The runs of a rescan: the mirrors, then the lane records. -/
def allRuns (s : State) : List (Nat × List Byte) :=
  rescanMirrors.map (mirrorRun s) ++ allNotices.flatMap (rescanRuns s)

variable {s : State} (works : AreaWorks s)

/-- Every run of the mirrors ends below the lanes. -/
theorem mirrors_below_lanes (s : State) : ∀ r ∈ rescanMirrors.map (mirrorRun s), r.1 + r.2.length ≤ areaBase s + 0x400 := by
  intro r member
  obtain ⟨x, listed, rfl⟩ := List.mem_map.1 member
  have low : ∀ x ∈ rescanMirrors, mirrorOffset x + mirrorLength x ≤ 0x400 := by decide
  have := low x listed
  simp only [mirrorRun, length_mirrorBytes]
  omega

theorem allRuns_below_inbox (s : State) (k : InboxIx) : ∀ r ∈ allRuns s, r.1 + r.2.length ≤ inboxAddress s k := by
  intro r member
  unfold inboxAddress
  rcases List.mem_append.1 member with mirror | lane
  · have := mirrors_below_lanes s r mirror
    omega
  · obtain ⟨j, -, own⟩ := List.mem_flatMap.1 lane
    obtain ⟨place, length⟩ := rescanRuns_within own
    have := j.isLt
    rw [place, length]
    unfold laneAddress
    omega

include works

/-- With no fault in the area a rescan writes its runs, and holds lanes and inbox slots as it finds them. -/
theorem rescan_works : ∃ lanes inbox m, Written s.mem m (allRuns s) ∧
    allInbox.foldl rescanInbox (allNotices.foldl rescanLane (rescanMirrors.foldl writeMirror s)) =
      withInbox (withLanes s lanes m) inbox ∧
    (∀ k, lanes.get k = rescanned s k) ∧
    ∀ k, inbox.get k = (s.notes.inbox.get k && memByte s.mem (inboxAddress s k) != 0) := by
  obtain ⟨m₁, mirrors, wrote⟩ := foldl_writeMirror works rescanMirrors s.mem [] (written_nil s.mem) (by decide)
  obtain ⟨lanes, m, all, scanned, left⟩ := foldl_rescanLane works allNotices s.ex.lanes m₁ _ mirrors
    (List.pairwise_lt_finRange 12) (fun _ _ => rfl) (fun r member k _ => by
      have := mirrors_below_lanes s r member
      unfold laneAddress
      omega)
  have readable (k : InboxIx) : Readable (withLanes s lanes m).mem (inboxAddress (withLanes s lanes m) k) 1 := by
    have := k.isLt
    show firstFault m.readFaults (areaBase s + 0x800 + 0x100 * k.val) 1 = none
    rw [all.readFaults]
    exact firstFault_sub works.readable (by omega) (by omega)
  have flag (k : InboxIx) : memByte (withLanes s lanes m).mem (inboxAddress (withLanes s lanes m) k) =
      memByte s.mem (inboxAddress s k) := all.below (allRuns_below_inbox s k)
  refine ⟨lanes, allInbox.foldl (fun v k => upd v k (· && memByte (withLanes s lanes m).mem
    (inboxAddress (withLanes s lanes m) k) != 0)) s.notes.inbox, m, all, ?_, fun k => ?_, fun k => ?_⟩
  · exact (congrArg (fun v => allInbox.foldl rescanInbox (allNotices.foldl rescanLane v)) wrote).trans
      ((congrArg (allInbox.foldl rescanInbox) scanned).trans
        (foldl_rescanInbox (s := withLanes s lanes m) works.isOpen readable allInbox s.notes.inbox))
  · exact (left k).trans (if_pos (List.mem_finRange k))
  · rw [← flag]
    exact (get_foldl_upd (fun k b => b && memByte (withLanes s lanes m).mem (inboxAddress (withLanes s lanes m) k) != 0) _
      (List.nodup_finRange 8) _ k).trans (if_pos (List.mem_finRange k))

end rescan

/-- Settles O28, from one lemma for each access of the two NUDGEs. -/
theorem nudgeBlocksAndRescan : Obligations.NudgeBlocksAndRescan := by
  unfold Obligations.NudgeBlocksAndRescan
  refine ⟨retryWrite_eq, fun s n running => acts_nudge_idle running, fun s n running isOpen opened => ?blocks,
    fun s => acts_rescan_closed, fun s running isOpen => acts_rescan running isOpen, rescanLane_spec, fun s k => ?inbox,
    fun s running isOpen readable writable => ?whole⟩
  case blocks =>
    intro x
    refine ⟨ends_nudge running isOpen opened, ends_nudge_write running isOpen opened, fun written idle =>
      ends_nudge_stop running isOpen opened written (retryStop_none idle), fun v written =>
      nudge_fetches running isOpen opened written, acts_nudge_over running isOpen opened, fun l written stop last => ?_⟩
    have rereads {a : Act} := ends_nudge_tail (a := a) running isOpen opened written stop
    obtain ⟨address, linkZero, isDone, number⟩ := l
    intro link y
    refine ⟨fun e fault => rereads (rereadLink_fault last fault), fun reads zero => rereads (rereadLink_zero last reads zero),
      fun reads found waits => rereads ?_, fun reads found over' => rereads ?_⟩
    · obtain rfl : isDone = false := waits
      rw [rereadLink_link last reads found, linkTail_eq] <;> rfl
    · obtain rfl : isDone = true := over'
      rw [rereadLink_link last reads found, linkTail_eq] <;> rfl
  case inbox =>
    refine ⟨rescanInbox_closed, fun x isOpen => rescanInbox_fault isOpen, fun isOpen readable => ?_⟩
    have reads := rescanInbox_reads isOpen readable
    exact ⟨fun full => reads.trans (if_pos full), fun empty => reads.trans (if_neg (not_not_intro empty))⟩
  case whole =>
    intro lane stays mirrors records
    obtain ⟨lanes, inbox, m, written, scanned, left, found⟩ := rescan_works ⟨isOpen, readable, writable⟩
    have lane_runs (k : NoticeIx) : (match (s.ex.lanes.get k).pending with
        | some p => if LaneStays s k then [] else
            [(lane k, leBytes 1 1 ++ leBytes 1 p.merges ++ zeros 6 ++ padTo 56 (noticeFields p.notice))]
        | none => []) = rescanRuns s k := by
      unfold rescanRuns
      cases (s.ex.lanes.get k).pending with
      | none => exact (ite_self _).symm
      | some p => rfl
    have runs : mirrors ++ records = allRuns s :=
      congrArg (mirrors ++ ·) (congrArg (List.flatMap · (List.finRange 12)) (funext lane_runs))
    rw [runs]
    refine ⟨withInbox (withLanes s lanes m) inbox, scanned ▸ acts_rescan running isOpen, left, found, written.inside,
      written.outside, written.readFaults, written.writeFaults, rfl⟩

end Sys2Proof.NudgeActs

/-! SUPPORT. The transmit arbiter (R15, R16) and the end of a local DATA cell (R151) (O58). -/

namespace Sys2Proof.Transmission

open Sys2Proof Sys2Proof.Machine Sys2Proof.Statements Sys2Proof.PortUnits Sys2Proof.PortQueues Sys2Proof.StreamSlots
  Sys2Proof.StreamSlotTimers

/-! ## A cell on the line -/

/-- A cell's start delimiter sent at a moment: the line holds it till its symbols are sent, eight IDLE symbols follow. -/
def lineStarted (now : Nat) (v : State) (p : PortIx) (turn : Fin 65) (c : Cell) (src : Option LocalCell) : State :=
  let e := now + (20 + c.payload.length + 2)
  v.modLink p (fun l => { l with turn := turn, line := some ⟨c, src, e⟩, gapEnds := e + 8 })

section start

variable {v : State} {p : PortIx} {turn : Fin 65} {c : Cell} {src : Option LocalCell}

theorem startCell_eq : startCell v p turn c src = reportDeparture (lineStarted v.now v p turn c src) p c := by
  unfold startCell lineTime symbolTime
  rw [Nat.mul_one]
  rfl

theorem startCell_silent (other : c.kind ≠ .probe) : startCell v p turn c src = lineStarted v.now v p turn c src :=
  startCell_eq.trans (if_neg other)

theorem startCell_probe (probe : c.kind = .probe) : startCell v p turn c src =
    (lineStarted v.now v p turn c src).modPort p (probeDeparts (BitVec.ofNat 8 (beAt c.payload 7 1)) v.tb.rackTime) :=
  startCell_eq.trans (if_pos probe)

end start

/-! ## What is written at transmission (R16) -/

section stamp

variable {q : Queued} {unpaced : Bool} {t : Time}

theorem stampCell_time (kind : q.cell.kind = .time) : stampCell q unpaced t =
    { q.cell with payload := patchBytes q.cell.payload 4 (beBytes 8 t.toNat) } := by
  unfold stampCell
  dsimp only
  rw [kind]

theorem stampCell_echo {v : Time} (kind : q.cell.kind = .echo) (answers : q.answers = some v) : stampCell q unpaced t =
    { q.cell with payload := patchBytes q.cell.payload 4 (beBytes 8 (t - v).toNat) } := by
  unfold stampCell
  dsimp only
  rw [kind, answers]

theorem stampCell_data (kind : q.cell.kind = .data) : stampCell q unpaced t =
    if unpaced = true ∧ beAt q.cell.payload 5 2 = 0 then
      { q.cell with payload := patchBytes q.cell.payload 12 (beBytes 8 t.toNat) } else q.cell := by
  unfold stampCell
  dsimp only
  rw [kind]

theorem stampCell_other (time : q.cell.kind ≠ .time) (echo : q.cell.kind ≠ .echo) (data : q.cell.kind ≠ .data) :
    stampCell q unpaced t = q.cell := by
  unfold stampCell
  dsimp only
  split
  case h_1 kind => exact absurd kind time
  case h_2 kind => exact absurd kind echo
  case h_3 kind => exact absurd kind data
  case h_4 => rfl

/-- A relayed DATA cell is sent as it came. -/
theorem stampCell_relayed (kind : q.cell.kind = .data) : stampCell q false t = q.cell :=
  (stampCell_data kind).trans (if_neg fun h => Bool.false_ne_true h.1)

end stamp

theorem kindClass_dq {k : Kind} (class' : kindClass k = .dq) : k = .data := by
  revert class'
  cases k <;> decide

/-! ## A grant taken -/

section grant

variable {v : State} {p : PortIx} {turn : Fin 65}

theorem takeGrant_queue {c : TxClass} {q : Queued} {rest : List Queued} (queue : queueOf (v.link p) c = q :: rest) :
    takeGrant v p turn (.queue c q) =
      startCell (v.modLink p (fun l => setQueue l c rest)) p turn (stampCell q false v.tb.rackTime) none := by
  unfold takeGrant
  dsimp only
  have taken : setQueue (v.link p) c ((queueOf (v.link p) c).drop 1) = setQueue (v.link p) c rest := by
    rw [queue]
    rfl
  rw [modLink_congr (g := fun l => setQueue l c rest) taken]

theorem takeGrant_slot {n : SlotIx} {o : Offer} (kind : o.cell.kind = .data) :
    let unpaced := (v.slot n).pace = 0 ∧ beAt o.cell.payload 5 2 = 0
    takeGrant v p turn (.slot n o) = lineStarted v.now (setSlot v n { v.slot n with offer := none }) p turn
      (if unpaced then { o.cell with payload := patchBytes o.cell.payload 12 (beBytes 8 v.tb.rackTime.toNat) } else o.cell)
      (some o.src) := by
  intro unpaced
  have stamped : stampCell ⟨o.cell, none⟩ ((v.slot n).pace == 0) v.tb.rackTime =
      if unpaced then { o.cell with payload := patchBytes o.cell.payload 12 (beBytes 8 v.tb.rackTime.toNat) } else o.cell := by
    rw [stampCell_data (q := ⟨o.cell, none⟩) kind]
    simp only [beq_iff_eq, unpaced]
  unfold takeGrant
  dsimp only
  rw [stamped, modSlot_eq_setSlot, startCell_silent]
  · rfl
  · split
    · rw [kind]
      decide
    · rw [kind]
      decide

end grant

/-! ## The decision (R15) -/

section decision

variable {s : State} {p : PortIx}

/-- The transmitter may send: it sends cells, and no local DATA cell is on the line. -/
def MaySend (s : State) (p : PortIx) : Prop :=
  ((s.port p).state = .up ∨ (s.port p).state = .training ∧ (s.port p).lock = true) ∧
    ((s.link p).line.bind (·.src)).isNone = true

theorem sendsCells_iff (x : Port) : sendsCells x = true ↔ x.state = .up ∨ x.state = .training ∧ x.lock = true := by
  unfold sendsCells transmitting
  cases x.state <;> cases x.lock <;> decide

theorem maySend_iff : ¬ (sendsCells (s.port p) = false ∨ (localOnLine (s.link p)).isSome = true) ↔ MaySend s p := by
  unfold MaySend
  rw [not_or, Bool.not_eq_false, sendsCells_iff, Bool.not_eq_true, Option.isSome_eq_false_iff]
  rfl

variable (running : s.inReset = false)

include running

theorem acts_arbiter_idle (idle : ¬ MaySend s p) : Acts (.arbiterDecision p) s s [] :=
  runState_ends running (if_pos (Classical.not_not.1 (mt maySend_iff.1 idle)))

variable (sends : MaySend s p)

include sends

theorem acts_arbiter_none (nothing : grant s p = none) : Acts (.arbiterDecision p) s s [] := by
  refine runState_ends running ((if_neg (maySend_iff.2 sends)).trans ?_)
  rw [nothing]

theorem acts_arbiter {turn : Fin 65} {g : Grant} (granted : grant s p = some (turn, g)) :
    Acts (.arbiterDecision p) s (takeGrant (advanceTo s (s.link p).gapEnds) p turn g) [] := by
  refine runState_ends running ((if_neg (maySend_iff.2 sends)).trans ?_)
  rw [granted]

/-- A cell of a queue is taken. -/
theorem acts_arbiter_queue {turn : Fin 65} {c : TxClass} {q : Queued} {rest : List Queued} {u : State}
    (granted : grant s p = some (turn, .queue c q)) (queue : queueOf (s.link p) c = q :: rest)
    (started : startCell ((advanceTo s (s.link p).gapEnds).modLink p (fun l => setQueue l c rest)) p turn
      (stampCell q false (advanceTo s (s.link p).gapEnds).tb.rackTime) none = u) :
    Acts (.arbiterDecision p) s u [] := by
  have act := acts_arbiter running sends granted
  rw [takeGrant_queue (v := advanceTo s (s.link p).gapEnds) queue, started] at act
  exact act

end decision

theorem grant_tq {s : State} {p : PortIx} {q : Queued} {rest : List Queued} (first : (s.link p).tQueue = q :: rest) :
    grant s p = some ((s.link p).turn, .queue .tq q) := by
  unfold grant
  dsimp only
  rw [first]

theorem grant_cq {s : State} {p : PortIx} {q : Queued} {rest : List Queued} (empty : (s.link p).tQueue = [])
    (first : (s.link p).cQueue = q :: rest) : grant s p = some ((s.link p).turn, .queue .cq q) := by
  unfold grant
  dsimp only
  rw [empty, first]

theorem grant_dq {s : State} {p : PortIx} (noTQueue : (s.link p).tQueue = []) (noCQueue : (s.link p).cQueue = []) :
    grant s p = nextParticipant s p := by
  unfold grant
  dsimp only
  rw [noTQueue, noCQueue]

/-! ## The participants in turn -/

section participants

variable {s : State} {p : PortIx}

/-- The participant at a place has a cell: the relay queue, or a slot with a cell on offer at the port. -/
def Has (s : State) (p : PortIx) (k : Nat) (g : Grant) : Prop :=
  (k = 0 ∧ ∃ q rest, (s.link p).dQueue = q :: rest ∧ g = .queue .dq q) ∨
    (∃ (n : SlotIx) (o : Offer), k = n.val + 1 ∧ (s.slot n).offer = some o ∧ o.port = p ∧ g = .slot n o)

theorem participant_iff (k : Nat) (g : Grant) : participant s p k = some g ↔ Has s p k g := by
  unfold Has
  cases k with
  | zero =>
    have nowhere : ¬ ∃ (n : SlotIx) (o : Offer), 0 = n.val + 1 ∧ (s.slot n).offer = some o ∧ o.port = p ∧ g = .slot n o :=
      fun ⟨n, _, zero, _⟩ => absurd zero (Nat.succ_ne_zero n.val).symm
    rw [or_iff_left nowhere]
    unfold participant
    cases (s.link p).dQueue with
    | nil => simp
    | cons q rest => simp [eq_comm]
  | succ k =>
    rw [or_iff_right (fun h => Nat.succ_ne_zero k h.1)]
    unfold participant
    dsimp only
    by_cases small : k < 64
    · rw [dif_pos small]
      cases offered : (s.slot ⟨k, small⟩).offer with
      | none =>
        refine ⟨fun h => absurd h (by simp), fun ⟨n, o, place, offers, _⟩ => ?_⟩
        obtain rfl : n = ⟨k, small⟩ := Fin.ext (Nat.succ.inj place).symm
        rw [offered] at offers
        cases offers
      | some o =>
        dsimp only
        constructor
        · intro h
          split at h
          case isTrue here =>
            cases h
            exact ⟨⟨k, small⟩, o, rfl, offered, here, rfl⟩
          case isFalse => cases h
        · rintro ⟨n, o', place, offers, here, rfl⟩
          obtain rfl : n = ⟨k, small⟩ := Fin.ext (Nat.succ.inj place).symm
          cases offered.symm.trans offers
          exact if_pos here
    · rw [dif_neg small]
      exact ⟨fun h => absurd h (by simp), fun ⟨n, _, place, _⟩ => absurd n.isLt (by omega)⟩

/-- The first index of a range at which a function answers. -/
theorem findSome?_range {α : Type} {f : Nat → Option α} {n i : Nat} {x : α} (low : i < n) (answers : f i = some x)
    (before : ∀ j, j < i → f j = none) : (List.range n).findSome? f = some x := by
  induction n with
  | zero => exact absurd low (Nat.not_lt_zero i)
  | succ n ih =>
    rw [List.range_succ, List.findSome?_append]
    by_cases last : i = n
    · subst last
      have none_before : (List.range i).findSome? f = none :=
        List.findSome?_eq_none_iff.2 fun j member => before j (List.mem_range.1 member)
      rw [none_before, Option.none_or, List.findSome?_cons, answers]
    · rw [ih (by omega), Option.some_or]

theorem nextParticipant_none (nobody : ∀ k g, ¬ Has s p k g) : nextParticipant s p = none := by
  unfold nextParticipant
  refine List.findSome?_eq_none_iff.2 fun i _ => ?_
  cases found : participant s p i with
  | none => rfl
  | some g => exact absurd ((participant_iff i g).1 found) (nobody i g)

theorem nextParticipant_first {i : Nat} {g : Grant} (low : i < 65) (has : Has s p (((s.link p).turn.val + 1 + i) % 65) g)
    (before : ∀ j g', j < i → ¬ Has s p (((s.link p).turn.val + 1 + j) % 65) g') :
    ∃ t : Fin 65, t.val = ((s.link p).turn.val + 1 + i) % 65 ∧ nextParticipant s p = some (t, g) := by
  refine ⟨⟨((s.link p).turn.val + 1 + i) % 65 % 65, Nat.mod_lt _ (by decide)⟩, Nat.mod_mod _ _, ?_⟩
  unfold nextParticipant
  rw [List.findSome?_map]
  refine findSome?_range low ?_ fun j early => ?_
  · rw [Function.comp_apply, (participant_iff _ g).2 has]
    rfl
  · rw [Function.comp_apply]
    cases found : participant s p (((s.link p).turn.val + 1 + j) % 65) with
    | none => rfl
    | some g' => exact absurd ((participant_iff _ g').1 found) (before j g' early)

/-- A queue that is served in turn is the relay queue. -/
theorem nextParticipant_queue {turn : Fin 65} {c : TxClass} {q : Queued}
    (next : nextParticipant s p = some (turn, .queue c q)) : c = .dq := by
  unfold nextParticipant at next
  obtain ⟨i, -, found⟩ := List.exists_of_findSome?_eq_some next
  obtain ⟨g, isAt, same⟩ := Option.map_eq_some_iff.1 found
  cases same
  rcases (participant_iff i _).1 isAt with ⟨-, q', rest, -, same⟩ | ⟨n, o, -, -, -, same⟩
  · cases same
    rfl
  · cases same

end participants

/-! ## A sent cell (R151) -/

/-- What a sent cell adds to its record. -/
theorem cellSentRec_eq (c : Cell) (lc : LocalCell) (y : Rec) : cellSentRec c lc y = { y with
    lengthDone := y.lengthDone + lc.bytes
    timestamp := if lc.index = 0 then BitVec.ofNat 64 (beAt c.payload 12 8) else y.timestamp
    quality := if lc.index = 0 then BitVec.ofNat 8 (beAt c.payload 20 1) else y.quality } := by
  unfold cellSentRec
  by_cases first : lc.index = 0
  · simp only [if_pos first]
  · simp only [if_neg first]

section sent

variable {u : State} {c : Cell} {lc : LocalCell}

theorem cellSent_stale (stale : (u.slot lc.slot).role ≠ .source ∨ (u.slot lc.slot).state = .closed ∨
    (u.slot lc.slot).openNumber ≠ lc.openNumber) : cellSent ⟨u, []⟩ c lc = ⟨u, []⟩ := if_pos stale

variable (held : ¬ ((u.slot lc.slot).role ≠ .source ∨ (u.slot lc.slot).state = .closed ∨
  (u.slot lc.slot).openNumber ≠ lc.openNumber))

include held

theorem cellSent_other (other : ∀ d, (u.slot lc.slot).sending = some d → d.block ≠ lc.block ∨ d.index ≠ lc.index) :
    cellSent ⟨u, []⟩ c lc = ⟨setSlot u lc.slot (modRec lc.block (cellSentRec c lc) (u.slot lc.slot)), []⟩ := by
  rw [← modSlot_eq_setSlot]
  unfold cellSent
  dsimp only
  refine (if_neg held).trans ?_
  cases sending : (u.slot lc.slot).sending with
  | none => rfl
  | some d => exact if_pos (other d sending)

theorem cellSent_ends {d : Sending} (sending : (u.slot lc.slot).sending = some d) (block : d.block = lc.block)
    (index : d.index = lc.index) (last : lc.last = true) :
    let y := modRec lc.block (cellSentRec c lc) (u.slot lc.slot)
    cellSent ⟨u, []⟩ c lc = ⟨setSlot u lc.slot { modRec d.block (fun r => { r with
      stage := .sent, ackSince := some u.now }) y with sending := none, offer := none }, []⟩ := by
  intro y
  have ended : endSending u.now y = { modRec d.block (fun r => { r with
      stage := .sent, ackSince := some u.now }) y with sending := none, offer := none } := by
    have still : y.sending = some d := sending
    unfold endSending
    rw [still]
  unfold cellSent Act.on
  dsimp only
  rw [if_neg held, sending]
  dsimp only
  rw [if_neg (by rw [not_or]; exact ⟨not_not_intro block, not_not_intro index⟩), if_pos last, modSlot_modSlot,
    modSlot_eq_setSlot]
  exact congrArg (fun y => (⟨setSlot u lc.slot y, []⟩ : Act)) ended

theorem cellSent_goes_on {d : Sending} (sending : (u.slot lc.slot).sending = some d) (block : d.block = lc.block)
    (index : d.index = lc.index) (more : lc.last = false) : cellSent ⟨u, []⟩ c lc =
      offerCell ⟨setSlot u lc.slot (modRec lc.block (cellSentRec c lc) (u.slot lc.slot)), []⟩ lc.slot
        { d with index := d.index + 1 } 0 := by
  unfold cellSent Act.on
  dsimp only
  rw [if_neg held, sending]
  dsimp only
  rw [if_neg (by rw [not_or]; exact ⟨not_not_intro block, not_not_intro index⟩), if_neg (by rw [more]; decide),
    modSlot_eq_setSlot]

end sent

section dataCell

variable {s : State} {p : PortIx} (running : s.inReset = false)

include running

theorem acts_dataCellSent_none (noLocal : (s.link p).line.bind (·.src) = none) : Acts (.dataCellSent p) s s [] := by
  refine run_ends running ?_
  unfold dataCellSent
  dsimp only
  cases line : (s.link p).line with
  | none => rfl
  | some x =>
    have noSource : x.src = none := by rw [line] at noLocal; exact noLocal
    dsimp only
    rw [noSource]

theorem ends_dataCellSent {c : Cell} {lc : LocalCell} {e : Nat} {a : Act} (line : (s.link p).line = some ⟨c, some lc, e⟩)
    (sent : cellSent ⟨(advanceTo s e).modLink p (fun l => { l with line := none }), []⟩ c lc = a) :
    Ends (.dataCellSent p) s a := by
  refine run_ends running ?_
  unfold dataCellSent
  dsimp only
  rw [line]
  exact sent

end dataCell

end Sys2Proof.Transmission

/-! SUPPORT. The transmit arbiter and the end of a local DATA cell (O58). -/

namespace Sys2Proof.TransmissionActs

open Sys2Proof Sys2Proof.Machine Sys2Proof.Statements Sys2Proof.PortQueues Sys2Proof.StreamSlots
  Sys2Proof.StreamSlotTimers Sys2Proof.Transmission

/-! ## What each grant puts on the line -/

section queues

variable {s : State} {p : PortIx} (running : s.inReset = false) (sends : MaySend s p) {q : Queued} {rest : List Queued}

include running sends

section timing

variable (first : (s.link p).tQueue = q :: rest)

include first

theorem acts_time (kind : q.cell.kind = .time) :
    let a := advanceTo s (s.link p).gapEnds
    Acts (.arbiterDecision p) s (lineStarted a.now (a.modLink p (fun l => { l with tQueue := rest })) p (s.link p).turn
      { q.cell with payload := patchBytes q.cell.payload 4 (beBytes 8 a.tb.rackTime.toNat) } none) [] := by
  refine acts_arbiter_queue running sends (grant_tq first) first ?_
  rw [stampCell_time kind]
  exact startCell_silent fun probe => Kind.noConfusion (probe.symm.trans kind)

theorem acts_probe (kind : q.cell.kind = .probe) :
    let a := advanceTo s (s.link p).gapEnds
    Acts (.arbiterDecision p) s ((lineStarted a.now (a.modLink p (fun l => { l with tQueue := rest })) p (s.link p).turn
      q.cell none).modPort p (probeDeparts (BitVec.ofNat 8 (beAt q.cell.payload 7 1)) a.tb.rackTime)) [] := by
  refine acts_arbiter_queue running sends (grant_tq first) first ?_
  rw [stampCell_other (by rw [kind]; decide) (by rw [kind]; decide) (by rw [kind]; decide)]
  exact startCell_probe kind

theorem acts_echo {v : Time} (kind : q.cell.kind = .echo) (answers : q.answers = some v) :
    let a := advanceTo s (s.link p).gapEnds
    Acts (.arbiterDecision p) s (lineStarted a.now (a.modLink p (fun l => { l with tQueue := rest })) p (s.link p).turn
      { q.cell with payload := patchBytes q.cell.payload 4 (beBytes 8 (a.tb.rackTime - v).toNat) } none) [] := by
  refine acts_arbiter_queue running sends (grant_tq first) first ?_
  rw [stampCell_echo kind answers]
  exact startCell_silent fun probe => Kind.noConfusion (probe.symm.trans kind)

theorem acts_trig (kind : q.cell.kind = .trig) :
    let a := advanceTo s (s.link p).gapEnds
    Acts (.arbiterDecision p) s (lineStarted a.now (a.modLink p (fun l => { l with tQueue := rest })) p (s.link p).turn
      q.cell none) [] := by
  refine acts_arbiter_queue running sends (grant_tq first) first ?_
  rw [stampCell_other (by rw [kind]; decide) (by rw [kind]; decide) (by rw [kind]; decide)]
  exact startCell_silent (by rw [kind]; decide)

end timing

theorem acts_control (noTQueue : (s.link p).tQueue = []) (first : (s.link p).cQueue = q :: rest)
    (control : kindClass q.cell.kind = .cq) :
    let a := advanceTo s (s.link p).gapEnds
    Acts (.arbiterDecision p) s (lineStarted a.now (a.modLink p (fun l => { l with cQueue := rest })) p (s.link p).turn
      q.cell none) [] := by
  have other {k : Kind} (notControl : kindClass k ≠ .cq) : q.cell.kind ≠ k := fun same => notControl (same ▸ control)
  refine acts_arbiter_queue running sends (grant_cq noTQueue first) first ?_
  rw [stampCell_other (other (by decide)) (other (by decide)) (other (by decide))]
  exact startCell_silent (other (by decide))

variable {turn : Fin 65} (noTQueue : (s.link p).tQueue = []) (noCQueue : (s.link p).cQueue = [])

include noTQueue noCQueue

theorem acts_relayed (next : nextParticipant s p = some (turn, .queue .dq q)) (first : (s.link p).dQueue = q :: rest)
    (data : kindClass q.cell.kind = .dq) :
    let a := advanceTo s (s.link p).gapEnds
    Acts (.arbiterDecision p) s (lineStarted a.now (a.modLink p (fun l => { l with dQueue := rest })) p turn q.cell none)
      [] := by
  have kind := kindClass_dq data
  refine acts_arbiter_queue running sends ((grant_dq noTQueue noCQueue).trans next) first ?_
  rw [stampCell_relayed kind]
  exact startCell_silent (by rw [kind]; decide)

theorem acts_slotCell {n : SlotIx} {o : Offer} (next : nextParticipant s p = some (turn, .slot n o))
    (kind : o.cell.kind = .data) :
    let a := advanceTo s (s.link p).gapEnds
    let unpaced := (s.slot n).pace = 0 ∧ beAt o.cell.payload 5 2 = 0
    Acts (.arbiterDecision p) s (lineStarted a.now (setSlot a n { s.slot n with offer := none }) p turn
      (if unpaced then { o.cell with payload := patchBytes o.cell.payload 12 (beBytes 8 a.tb.rackTime.toNat) } else o.cell)
      (some o.src)) [] := by
  intro a unpaced
  have act := acts_arbiter running sends ((grant_dq noTQueue noCQueue).trans next)
  rw [takeGrant_slot (v := advanceTo s (s.link p).gapEnds) kind, slot_advanceTo] at act
  exact act

end queues

section lines

variable {s : State} {p : PortIx} {c : Cell} {lc : LocalCell} {e : Nat} (running : s.inReset = false)
  (line : (s.link p).line = some ⟨c, some lc, e⟩)

/-- The state with the line free again. -/
def lineFree (s : State) (p : PortIx) (e : Nat) : State := (advanceTo s e).modLink p (fun l => { l with line := none })

theorem slot_lineFree (s : State) (p : PortIx) (e : Nat) (n : SlotIx) : (lineFree s p e).slot n = s.slot n :=
  slot_advanceTo s e n

include running line

theorem acts_dataCellSent_stale (stale : (s.slot lc.slot).role = .sink ∨ (s.slot lc.slot).state = .closed ∨
    (s.slot lc.slot).openNumber ≠ lc.openNumber) : Acts (.dataCellSent p) s (lineFree s p e) [] := by
  refine ends_dataCellSent running line (cellSent_stale (u := lineFree s p e) ?_)
  rw [slot_lineFree]
  exact stale.imp (fun sink => by rw [sink]; decide) id

variable (source : (s.slot lc.slot).role = .source) (opened : (s.slot lc.slot).state ≠ .closed)
  (same : (s.slot lc.slot).openNumber = lc.openNumber)

include source opened same

omit running line in
theorem cellSent_held : ¬ (((lineFree s p e).slot lc.slot).role ≠ .source ∨ ((lineFree s p e).slot lc.slot).state = .closed ∨
    ((lineFree s p e).slot lc.slot).openNumber ≠ lc.openNumber) := by
  rw [slot_lineFree]
  rintro (sink | closed | stale)
  · exact sink source
  · exact opened closed
  · exact stale same

theorem acts_dataCellSent_other (other : ∀ d, (s.slot lc.slot).sending = some d → d.block ≠ lc.block ∨ d.index ≠ lc.index) :
    Acts (.dataCellSent p) s
      (setSlot (lineFree s p e) lc.slot (modRec lc.block (cellSentRec c lc) (s.slot lc.slot))) [] := by
  refine ends_dataCellSent running line ?_
  rw [← slot_lineFree s p e]
  refine cellSent_other (u := lineFree s p e) (cellSent_held source opened same) ?_
  rw [slot_lineFree]
  exact other

variable {d : Sending} (sending : (s.slot lc.slot).sending = some d) (block : d.block = lc.block) (index : d.index = lc.index)

include sending block index

theorem acts_dataCellSent_last (last : lc.last = true) :
    let u := lineFree s p e
    let y := modRec lc.block (cellSentRec c lc) (s.slot lc.slot)
    Acts (.dataCellSent p) s (setSlot u lc.slot { modRec d.block (fun r => { r with
      stage := .sent, ackSince := some u.now }) y with sending := none, offer := none }) [] := by
  intro u y
  refine ends_dataCellSent running line ?_
  have sent := cellSent_ends (u := u) (c := c) (cellSent_held source opened same)
    (by rw [slot_lineFree]; exact sending) block index last
  rw [slot_lineFree] at sent
  exact sent

theorem ends_dataCellSent_next (more : lc.last = false) :
    Ends (.dataCellSent p) s (offerCell ⟨setSlot (lineFree s p e) lc.slot
      (modRec lc.block (cellSentRec c lc) (s.slot lc.slot)), []⟩ lc.slot { d with index := d.index + 1 } 0) := by
  refine ends_dataCellSent running line ?_
  have sent := cellSent_goes_on (u := lineFree s p e) (c := c) (cellSent_held source opened same)
    (by rw [slot_lineFree]; exact sending) block index more
  rw [slot_lineFree] at sent
  exact sent

end lines

/-- Settles O58, from one lemma for each grant and for each way a sent cell is reported. -/
theorem transmission : Obligations.Transmission := by
  unfold Obligations.Transmission
  refine ⟨fun s p running => ?arbiter, fun number time r => rfl, fun s p => acts_dataCellSent_none,
    fun s p c lc e running line => ?sent, fun s p => ?turns⟩
  case arbiter =>
    intro l a sends put
    refine ⟨acts_arbiter_idle running, fun q rest may first => acts_time running may first,
      fun q rest may first => acts_probe running may first, fun q rest v may first => acts_echo running may first,
      fun q rest may first => acts_trig running may first,
      fun q rest may noTQueue first => acts_control running may noTQueue first, fun may noTQueue noCQueue => ?_⟩
    cases next : nextParticipant s p with
    | none => exact acts_arbiter_none running may ((grant_dq noTQueue noCQueue).trans next)
    | some granted =>
      obtain ⟨turn, ⟨class', q⟩ | ⟨n, o⟩⟩ := granted
      · obtain rfl := nextParticipant_queue next
        exact fun rest first => acts_relayed running may noTQueue noCQueue next first
      · exact acts_slotCell running may noTQueue noCQueue next
  case sent =>
    intro u x sent
    have record : (cellSentRec c lc) = sent := funext (cellSentRec_eq c lc)
    refine ⟨acts_dataCellSent_stale running line, fun d source opened same sending block index => ?_,
      fun source opened same other => ?_⟩
    · rw [← record]
      exact ⟨acts_dataCellSent_last running line source opened same sending block index,
        ends_dataCellSent_next running line source opened same sending block index⟩
    · rw [← record]
      exact acts_dataCellSent_other running line source opened same other
  case turns =>
    intro l has
    exact ⟨nextParticipant_none, fun i g low at_i before => nextParticipant_first low at_i before⟩

end Sys2Proof.TransmissionActs

/-! SUPPORT. Received stream cells: their form (R119), and the slot they match (R118). -/

namespace Sys2Proof.StreamCells

open Sys2Proof Sys2Proof.Machine Sys2Proof.Statements Sys2Proof.PortUnits Sys2Proof.PortQueues Sys2Proof.StreamSlots

/-- A command ends in an act, said of another form of it. -/
theorem ends_as {c : Instr} {s : State} {a b : Act} (same : a = b) (ends : Ends c s a) : Ends c s b := same ▸ ends

/-! ## The form of a stream cell -/

section form

variable {rx : Rx} {b : List Byte} {length d : Nat} {tag number : BitVec 16}

theorem parseHead_fits (fits : StreamPayload rx length d tag number) (direction : d ≤ 1) :
    parseHead length rx.payload = some ⟨tag, number, d⟩ := by
  unfold parseHead
  rw [if_pos ⟨fits.length, fits.direction.symm ▸ direction⟩, fits.tag, fits.number, fits.direction, BitVec.ofNat_toNat,
    BitVec.ofNat_toNat, BitVec.setWidth_eq, BitVec.setWidth_eq]

theorem parseHead_unfit (unfit : ¬ (b.length = length ∧ beAt b 4 1 = 0 ∨ b.length = length ∧ beAt b 4 1 = 1)) :
    parseHead length b = none := by
  refine if_neg fun ⟨same, direction⟩ => unfit ?_
  rcases Nat.le_one_iff_eq_zero_or_eq_one.1 direction with zero | one
  · exact .inl ⟨same, zero⟩
  · exact .inr ⟨same, one⟩

theorem parseToward_fits (fits : StreamPayload rx length d tag number) (direction : d ≤ 1) :
    parseToward length d rx.payload = some ⟨tag, number, d⟩ := by
  unfold parseToward
  rw [parseHead_fits fits direction, Option.filter_some, if_pos (beq_self_eq_true d)]

theorem parseToward_unfit (unfit : ¬ (b.length = length ∧ beAt b 4 1 = d)) : parseToward length d b = none := by
  unfold parseToward parseHead
  split
  case isTrue same =>
    rw [Option.filter_some, if_neg]
    exact fun direction => unfit ⟨same.1, beq_iff_eq.1 direction⟩
  case isFalse => rfl

end form

/-- A flag byte, read. -/
theorem flagCode_beq (on : Bool) : (flagCode on == 1) = on := by cases on <;> rfl

/-! ## The match (R118) -/

/-- A cell matches a slot, by its direction. -/
def CellMatch (s : State) (rx : Rx) (tag number : BitVec 16) (d : Nat) (m : SlotIx) : Prop :=
  if d = 1 then SourceMatch s rx tag number m else SinkMatch s rx tag number m

theorem matchesSource_iff {s : State} {rx : Rx} {tag number : BitVec 16} {m : SlotIx} :
    matchesSource (s.slot m) rx.origin tag number = true ↔ SourceMatch s rx tag number m := by
  simp only [matchesSource, SourceMatch, Bool.and_eq_true, beq_iff_eq, bne_iff_ne, and_assoc]

theorem matchesSink_iff {s : State} {rx : Rx} {tag number : BitVec 16} {m : SlotIx} :
    matchesSink (s.slot m) rx.origin rx.incarnation tag number = true ↔ SinkMatch s rx tag number m := by
  simp only [matchesSink, SinkMatch, Bool.and_eq_true, beq_iff_eq, bne_iff_ne, and_assoc]

/-- The one slot of which a test holds. -/
theorem find?_allSlots {test : SlotIx → Bool} {n : SlotIx} (only : ∀ m, m = n ↔ test m = true) :
    allSlots.find? test = some n := by
  cases found : allSlots.find? test with
  | none => exact absurd ((only n).1 rfl) (List.find?_eq_none.1 found n (mem_allSlots n))
  | some m => rw [(only m).2 (List.find?_some found)]

theorem find?_allSlots_none {test : SlotIx → Bool} (never : ∀ m, ¬ test m = true) : allSlots.find? test = none :=
  List.find?_eq_none.2 fun m _ => never m

section taken

variable {s : State} {rx : Rx} {tag number : BitVec 16} {d : Nat} {ps : List Post} {answered : Bool}
  {f : Act → SlotIx → Act}

theorem slot_heard (s : State) (rx : Rx) (n : SlotIx) : (heard s rx).slot n = s.slot n := rfl

theorem cellMatch_iff (m : SlotIx) :
    (if d = towardSource then matchesSource ((heard s rx).slot m) rx.origin tag number
      else matchesSink ((heard s rx).slot m) rx.origin rx.incarnation tag number) = true ↔ CellMatch s rx tag number d m := by
  unfold CellMatch
  rw [slot_heard]
  by_cases source : d = 1
  · have direction : d = towardSource := source
    rw [if_pos source, if_pos direction]
    exact matchesSource_iff
  · have direction : ¬ d = towardSource := source
    rw [if_neg source, if_neg direction]
    exact matchesSink_iff

theorem takeMatched_matched {n : SlotIx} (only : ∀ m, m = n ↔ CellMatch s rx tag number d m) :
    takeMatched ⟨heard s rx, ps⟩ rx ⟨tag, number, d⟩ answered f = f ⟨heard s rx, ps⟩ n := by
  have found : matchSlot (heard s rx) rx ⟨tag, number, d⟩ = some n :=
    find?_allSlots fun m => (only m).trans (cellMatch_iff m).symm
  unfold takeMatched
  dsimp only
  rw [found]

theorem takeMatched_unmatched (never : ∀ m, ¬ CellMatch s rx tag number d m) :
    takeMatched ⟨heard s rx, ps⟩ rx ⟨tag, number, d⟩ answered f =
      ⟨unmatched (heard s rx) rx ⟨tag, number, d⟩ answered, ps⟩ := by
  have missing : matchSlot (heard s rx) rx ⟨tag, number, d⟩ = none :=
    find?_allSlots_none fun m test => never m ((cellMatch_iff m).1 test)
  unfold takeMatched
  dsimp only
  rw [missing]
  rfl

theorem unmatched_silent : unmatched (heard s rx) rx ⟨tag, number, d⟩ false = unmatchedCounted (heard s rx) := rfl

theorem unmatched_answered : unmatched (heard s rx) rx ⟨tag, number, d⟩ true =
    sendRouted (unmatchedCounted (heard s rx)) rx.origin
      (ownCell s .close rx.origin.val (closePayload tag number (1 - d) .unmatched)) := rfl

end taken

section matching

variable {s : State} {rx : Rx} {tag number : BitVec 16} {d : Nat} {n : SlotIx}

theorem cellMatch_source : CellMatch s rx tag number 1 n ↔ SourceMatch s rx tag number n := Iff.of_eq (if_pos rfl)

theorem cellMatch_sink : CellMatch s rx tag number 0 n ↔ SinkMatch s rx tag number n := Iff.of_eq (if_neg (by decide))

/-- A cell that matches one slot, by its direction. -/
theorem cellMatch_only (matched : d = 1 ∧ Source s rx tag number n ∨ d = 0 ∧ Sink s rx tag number n) :
    ∀ m, m = n ↔ CellMatch s rx tag number d m := by
  rcases matched with ⟨rfl, source⟩ | ⟨rfl, sink⟩
  · exact fun m => (source m).trans cellMatch_source.symm
  · exact fun m => (sink m).trans cellMatch_sink.symm

theorem cellMatch_never (direction : d ≤ 1) (noSource : d = 1 → ∀ m, ¬ SourceMatch s rx tag number m)
    (noSink : d = 0 → ∀ m, ¬ SinkMatch s rx tag number m) (m : SlotIx) : ¬ CellMatch s rx tag number d m := by
  rcases Nat.le_one_iff_eq_zero_or_eq_one.1 direction with rfl | rfl
  · exact fun h => noSink rfl m (cellMatch_sink.1 h)
  · exact fun h => noSource rfl m (cellMatch_source.1 h)

end matching

end Sys2Proof.StreamCells

/-! SUPPORT. HALT and CLOSE at the slot they match (R132, R140), BLOCKACK and the resolution of a block (R155) (O56). -/

namespace Sys2Proof.HaltCloseActs

open Sys2Proof Sys2Proof.Machine Sys2Proof.Statements Sys2Proof.PortUnits Sys2Proof.PortQueues Sys2Proof.ReceivedCells
  Sys2Proof.ExchangeEvents Sys2Proof.OrderWindow Sys2Proof.Candidates Sys2Proof.StreamSlots Sys2Proof.BlockRecords
  Sys2Proof.Completions Sys2Proof.BlockCommands Sys2Proof.StreamCells

/-! ## The codes -/

theorem closeReasonOfCode_iff (r : CloseReason) (n : Nat) : closeReasonOfCode n = some r ↔ closeReasonCode r = n :=
  ofCode_iff (fun k => by cases k <;> decide) (fun k l => by cases k <;> cases l <;> decide) r n

theorem closeReasonOfCode_none {n : Nat} (unnamed : ¬ (1 ≤ n ∧ n ≤ 4)) : closeReasonOfCode n = none := by
  cases code : closeReasonOfCode n with
  | none => rfl
  | some r =>
    rw [closeReasonOfCode_iff] at code
    revert code
    cases r <;> simp only [closeReasonCode] <;> omega

theorem ackResultOfCode_eq (n : Nat) : ackResultOfCode n =
    if n = 1 then some .delivered else if n = 2 then some .damaged else if n = 6 then some .ended else none := by
  unfold ackResultOfCode ofCode
  by_cases one : n = 1
  · subst one
    rfl
  by_cases two : n = 2
  · subst two
    rfl
  by_cases six : n = 6
  · subst six
    rfl
  · rw [if_neg one, if_neg two, if_neg six]
    refine List.find?_eq_none.2 fun o listed coded => ?_
    have code := beq_iff_eq.1 coded
    simp only [List.mem_cons, List.not_mem_nil, or_false] at listed
    rcases listed with rfl | rfl | rfl
    · exact one code.symm
    · exact two code.symm
    · exact six code.symm

/-! ## HALT -/

section halt

variable {a : Act} {n : SlotIx} {on : Bool}

theorem setPeerHalt_same (same : (a.s.slot n).peerHalt = on) : setPeerHalt a n on = a := if_pos same

theorem setPeerHalt_changes (other : (a.s.slot n).peerHalt = !on) : setPeerHalt a n on =
    settle ⟨setSlot a.s n { a.s.slot n with peerHalt := on }, a.posts⟩ n (if on then .peerHalt else .resumed) := by
  rw [← modSlot_eq_setSlot a.s n (fun x => { x with peerHalt := on })]
  exact if_neg (by rw [other]; cases on <;> decide)

end halt

section cells

variable {rx : Rx} {s : State} {tag number : BitVec 16} {n : SlotIx} {d : Nat}

theorem takeHalt_fits {on : Bool} (fits : StreamPayload rx 12 d tag number) (direction : d ≤ 1)
    (value : beAt rx.payload 8 1 = flagCode on) (a : Act) :
    takeHalt rx a = takeMatched a rx ⟨tag, number, d⟩ true (fun a n => setPeerHalt a n on) := by
  unfold takeHalt
  rw [parseHead_fits fits direction]
  dsimp only
  rw [value, if_neg (Nat.not_lt.2 (flagCode_le on)), flagCode_beq]

theorem takeHalt_unfit (unfit : ¬ ((rx.payload.length = 12 ∧ beAt rx.payload 4 1 = 0 ∨
    rx.payload.length = 12 ∧ beAt rx.payload 4 1 = 1) ∧ beAt rx.payload 8 1 ≤ 1)) (a : Act) : takeHalt rx a = a := by
  unfold takeHalt
  by_cases form : rx.payload.length = 12 ∧ beAt rx.payload 4 1 = 0 ∨ rx.payload.length = 12 ∧ beAt rx.payload 4 1 = 1
  · cases parseHead 12 rx.payload with
    | none => rfl
    | some h => exact if_pos (Nat.lt_of_not_le fun small => unfit ⟨form, small⟩)
  · rw [parseHead_unfit form]

/-! ## CLOSE -/

theorem takeClose_fits {reason : CloseReason} (fits : StreamPayload rx 12 d tag number) (direction : d ≤ 1)
    (code : closeReasonOfCode (beAt rx.payload 8 1) = some reason) (a : Act) : takeClose rx a =
      takeMatched a rx ⟨tag, number, d⟩ false (fun a n => closeSlot a n (closeCause reason) false) := by
  unfold takeClose
  rw [parseHead_fits fits direction, code]

theorem takeClose_unfit (unfit : ¬ ((rx.payload.length = 12 ∧ beAt rx.payload 4 1 = 0 ∨
    rx.payload.length = 12 ∧ beAt rx.payload 4 1 = 1) ∧ 1 ≤ beAt rx.payload 8 1 ∧ beAt rx.payload 8 1 ≤ 4)) (a : Act) :
    takeClose rx a = a := by
  unfold takeClose
  by_cases form : rx.payload.length = 12 ∧ beAt rx.payload 4 1 = 0 ∨ rx.payload.length = 12 ∧ beAt rx.payload 4 1 = 1
  · rw [closeReasonOfCode_none fun named => unfit ⟨form, named⟩]
    cases parseHead 12 rx.payload <;> rfl
  · rw [parseHead_unfit form]

/-! ## BLOCKACK -/

theorem takeBlockack_fits {o : BlockOutcome} (fits : StreamPayload rx 12 1 tag number)
    (code : ackResultOfCode (beAt rx.payload 8 1) = some o) (a : Act) : takeBlockack rx a =
      takeMatched a rx ⟨tag, number, 1⟩ true (fun a n => sourceAck a n rx.word o) := by
  have head : parseToward 12 towardSource rx.payload = some ⟨tag, number, 1⟩ := parseToward_fits fits (Nat.le_refl _)
  unfold takeBlockack
  rw [head, code]

theorem takeBlockack_unfit (unfit : ¬ ((rx.payload.length = 12 ∧ beAt rx.payload 4 1 = 1) ∧
    (beAt rx.payload 8 1 = 1 ∨ beAt rx.payload 8 1 = 2 ∨ beAt rx.payload 8 1 = 6))) (a : Act) : takeBlockack rx a = a := by
  unfold takeBlockack
  by_cases form : rx.payload.length = 12 ∧ beAt rx.payload 4 1 = 1
  · have unnamed : ackResultOfCode (beAt rx.payload 8 1) = none := by
      rw [ackResultOfCode_eq, if_neg fun h => unfit ⟨form, .inl h⟩, if_neg fun h => unfit ⟨form, .inr (.inl h)⟩,
        if_neg fun h => unfit ⟨form, .inr (.inr h)⟩]
    rw [unnamed]
    cases parseToward 12 towardSource rx.payload <;> rfl
  · have headless : parseToward 12 towardSource rx.payload = none := parseToward_unfit form
    rw [headless]

theorem takeCredit_fits {halted : Bool} (fits : StreamPayload rx 16 1 tag number)
    (value : beAt rx.payload 12 1 = flagCode halted) (a : Act) : takeCredit rx a = takeMatched a rx ⟨tag, number, 1⟩ true
      (fun a n => sourceCredit a n (BitVec.ofNat 32 (beAt rx.payload 8 4)) halted) := by
  have head : parseToward 16 towardSource rx.payload = some ⟨tag, number, 1⟩ := parseToward_fits fits (Nat.le_refl _)
  unfold takeCredit
  rw [head]
  dsimp only
  rw [value, if_neg (Nat.not_lt.2 (flagCode_le halted)), flagCode_beq]

end cells

/-- A flag byte of 0 or 1 is a flag's. -/
theorem flag_of_le {v : Nat} (small : v ≤ 1) : ∃ on, v = flagCode on := by
  rcases Nat.le_one_iff_eq_zero_or_eq_one.1 small with rfl | rfl
  · exact ⟨false, rfl⟩
  · exact ⟨true, rfl⟩

section acks

variable {s : State} {ps : List Post} {n : SlotIx} {b : BitVec 32} {o : BlockOutcome} {r : Rec}

theorem awaitsAck_iff (r : Rec) : awaitsAck r = true ↔ r.stage = .sending ∨ r.stage = .sent := by
  simp only [awaitsAck, Bool.or_eq_true, beq_iff_eq]

theorem sourceAck_awaited (found : findRec (s.slot n) b = some r) (awaits : r.stage = .sending ∨ r.stage = .sent) :
    sourceAck ⟨s, ps⟩ n b o = resolveBlock ⟨s, ps⟩ n r b o := by
  unfold sourceAck
  dsimp only
  rw [found, Option.filter_some, if_pos ((awaitsAck_iff r).2 awaits)]

theorem sourceAck_ignored (ignored : ∀ r, findRec (s.slot n) b = some r → r.stage ≠ .sending ∧ r.stage ≠ .sent) :
    sourceAck ⟨s, ps⟩ n b o = ⟨setSlot s n { s.slot n with
      counters := { (s.slot n).counters with ackIgnored := (s.slot n).counters.ackIgnored + 1 } }, ps⟩ := by
  have missing : (findRec (s.slot n) b).filter awaitsAck = none := by
    refine Option.filter_eq_none_iff.2 fun r found awaits => ?_
    obtain ⟨notSending, notSent⟩ := ignored r found
    exact ((awaitsAck_iff r).1 awaits).elim notSending notSent
  unfold sourceAck countSlot Act.on
  dsimp only
  rw [missing, modSlot_eq_setSlot]

/-! ## The resolution of a block -/

/-- The slot with a block resolved. -/
def resolved (b : BitVec 32) (o : BlockOutcome) (x : Slot) : Slot :=
  { modRec b (fun y => { y with stage := .resolved, outcome := some o, ackSince := none }) x with
    unresolved := x.unresolved - 1 }

/-- The slot of a block that resolves, cut off where it is being sent. -/
def resolving (now : Nat) (r : Rec) (x : Slot) : Slot := if r.stage = .sending then cutBlock now x else x

theorem resolveBlock_eq (s : State) (ps : List Post) (n : SlotIx) (r : Rec) (b : BitVec 32) (o : BlockOutcome) :
    let a : Act := ⟨setSlot s n (resolved b o (resolving s.now r (s.slot n))), ps⟩
    resolveBlock ⟨s, ps⟩ n r b o =
      if r.length = 0 then endResolved a n r o else closeIfResolved (completeAndEnd a n) n := by
  unfold resolveBlock resolving Act.on
  dsimp only
  by_cases sending : r.stage = .sending
  · rw [if_pos sending, if_pos sending, cutOff_eq_setSlot, modSlot_setSlot]
    rfl
  · rw [if_neg sending, if_neg sending, modSlot_eq_setSlot]
    rfl

theorem endResolved_ended {a : Act} (own : r.address = none) (ended : o = .ended) :
    endResolved a n r o = closeSlot a n .ended false .done := if_pos ⟨Option.isNone_iff_eq_none.2 own, ended⟩

theorem endResolved_lost {a : Act} (host : r.address ≠ none) (bad : o = .unconfirmed ∨ o = .damaged)
    (stays : (a.s.slot n).state ≠ .draining) : endResolved a n r o = closeSlot a n .peerLost true :=
  (if_neg fun h => host (Option.isNone_iff_eq_none.1 h.1)).trans (if_pos ⟨Option.isSome_iff_ne_none.2 host, bad, stays⟩)

theorem endResolved_other {a : Act} (notEnded : ¬ (r.address = none ∧ o = .ended))
    (notLost : ¬ (r.address ≠ none ∧ (o = .unconfirmed ∨ o = .damaged) ∧ (a.s.slot n).state ≠ .draining)) :
    endResolved a n r o = closeIfResolved (completeAndEnd a n) n := by
  unfold endResolved
  rw [if_neg fun h => notEnded ⟨Option.isNone_iff_eq_none.1 h.1, h.2⟩,
    if_neg fun h => notLost ⟨Option.isSome_iff_ne_none.1 h.1, h.2⟩]

/-- Nothing completes while the oldest record has no outcome. -/
theorem completeAndEnd_waits {rest : List Rec} (list : (s.slot n).fetched = r :: rest) (waits : r.outcome = none) :
    completeAndEnd ⟨s, ps⟩ n = ⟨s, ps⟩ := by
  have nothing : completeHeld ⟨s, ps⟩ n = (⟨s, ps⟩, false) := by
    cases stopped : (s.slot n).writeStop with
    | true => exact completeHeld_stopped _ n stopped
    | false =>
      have run := completeRun_idle (ps := ps) (k := rest.length) (run := ⟨false, false, false⟩) list waits
      rw [completeHeld_going _ n stopped]
      dsimp only
      rw [list, List.length_cons, run]
      rfl
  rw [completeAndEnd_eq, nothing, if_neg fun h => Bool.false_ne_true h.1]

theorem closeIfResolved_stays {a : Act} (stays : (a.s.slot n).state ≠ .draining) : closeIfResolved a n = a :=
  if_neg fun h => stays h.2.1

/-- A record behind one that waits resolves, and nothing else happens. -/
theorem resolveBlock_behind {r' : Rec} (sent : r.stage = .sent) (block : r.length ≠ 0)
    (stays : (s.slot n).state ≠ .draining) (first : (s.slot n).fetched.head? = some r') (waits : r'.outcome = none)
    (other : r'.number ≠ some b) :
    resolveBlock ⟨s, ps⟩ n r b o = ⟨setSlot s n (resolved b o (s.slot n)), ps⟩ := by
  have uncut : resolving s.now r (s.slot n) = s.slot n := if_neg (by rw [sent]; decide)
  obtain ⟨rest, list⟩ := List.head?_eq_some_iff.1 first
  have behind := slot_setSlot s n (resolved b o (s.slot n))
  have still : ((setSlot s n (resolved b o (s.slot n))).slot n).fetched = r' :: rest.map (fun y =>
      if y.number = some b then { y with stage := .resolved, outcome := some o, ackSince := none } else y) := by
    rw [behind]
    show (s.slot n).fetched.map _ = _
    rw [list, List.map_cons, if_neg other]
  rw [resolveBlock_eq, if_neg block, uncut, completeAndEnd_waits still waits, closeIfResolved_stays]
  rw [behind]
  exact stays

end acks

end Sys2Proof.HaltCloseActs

/-! SUPPORT. HALT, CLOSE and BLOCKACK, and the unmatched cells (O56). -/

namespace Sys2Proof.HaltCloseAcks

open Sys2Proof Sys2Proof.Machine Sys2Proof.Statements Sys2Proof.PortUnits Sys2Proof.PortQueues Sys2Proof.ReceivedCells
  Sys2Proof.ExchangeEvents Sys2Proof.OrderWindow Sys2Proof.Candidates Sys2Proof.StreamSlots Sys2Proof.BlockRecords
  Sys2Proof.StreamCells Sys2Proof.HaltCloseActs

section cells

variable {rx : Rx} {s : State} {tag number : BitVec 16} {n : SlotIx} {d : Nat} (dest : rx.dest.toNat = s.own.val)

include dest

theorem ends_halt (arrives : Arrives .halt rx .up s) : Ends (.halt rx) s (takeHalt rx ⟨heard s rx, []⟩) :=
  ends_here arrives (.inr dest)

theorem ends_close (arrives : Arrives .close rx .up s) : Ends (.close rx) s (takeClose rx ⟨heard s rx, []⟩) :=
  ends_here arrives (.inr dest)

theorem ends_blockack (arrives : Arrives .blockack rx .up s) :
    Ends (.blockack rx) s (takeBlockack rx ⟨heard s rx, []⟩) :=
  ends_here arrives (.inr dest)

theorem ends_credit (arrives : Arrives .credit rx .up s) : Ends (.credit rx) s (takeCredit rx ⟨heard s rx, []⟩) :=
  ends_here arrives (.inr dest)

theorem ends_halt_matched {on : Bool} (arrives : Arrives .halt rx .up s) (fits : StreamPayload rx 12 d tag number)
    (value : beAt rx.payload 8 1 = flagCode on)
    (matched : d = 1 ∧ Source s rx tag number n ∨ d = 0 ∧ Sink s rx tag number n) :
    Ends (.halt rx) s (setPeerHalt ⟨heard s rx, []⟩ n on) := by
  have ends := ends_halt dest arrives
  rw [takeHalt_fits fits (by omega) value, takeMatched_matched (cellMatch_only matched)] at ends
  exact ends

theorem ends_close_matched {reason : CloseReason} (arrives : Arrives .close rx .up s)
    (fits : StreamPayload rx 12 d tag number) (code : beAt rx.payload 8 1 = closeReasonCode reason)
    (matched : d = 1 ∧ Source s rx tag number n ∨ d = 0 ∧ Sink s rx tag number n) :
    Ends (.close rx) s (closeSlot ⟨heard s rx, []⟩ n (closeCause reason) false) := by
  have ends := ends_close dest arrives
  rw [takeClose_fits fits (by omega) ((closeReasonOfCode_iff reason _).2 code.symm),
    takeMatched_matched (cellMatch_only matched)] at ends
  exact ends

theorem ends_blockack_matched {o : BlockOutcome} (arrives : Arrives .blockack rx .up s)
    (fits : StreamPayload rx 12 1 tag number) (code : ackResultOfCode (beAt rx.payload 8 1) = some o)
    (source : Source s rx tag number n) : Ends (.blockack rx) s (sourceAck ⟨heard s rx, []⟩ n rx.word o) := by
  have ends := ends_blockack dest arrives
  rw [takeBlockack_fits fits code, takeMatched_matched (cellMatch_only (.inl ⟨rfl, source⟩))] at ends
  exact ends

/-- An unmatched HALT, CREDIT or BLOCKACK is counted and answered (R118). -/
theorem ends_unmatched {k : Kind} (arrives : Arrives k rx .up s)
    (form : k = .halt ∧ StreamPayload rx 12 d tag number ∧ d ≤ 1 ∧ beAt rx.payload 8 1 ≤ 1 ∨
      k = .credit ∧ StreamPayload rx 16 d tag number ∧ d = 1 ∧ beAt rx.payload 12 1 ≤ 1 ∨
      k = .blockack ∧ StreamPayload rx 12 d tag number ∧ d = 1 ∧ (ackResultOfCode (beAt rx.payload 8 1)).isSome)
    (never : ∀ m, ¬ CellMatch s rx tag number d m) :
    Ends (cellCommand k rx) s ⟨unmatched (heard s rx) rx ⟨tag, number, d⟩ true, []⟩ := by
  rcases form with ⟨rfl, fits, direction, value⟩ | ⟨rfl, fits, rfl, value⟩ | ⟨rfl, fits, rfl, code⟩
  · obtain ⟨on, flag⟩ := flag_of_le value
    have ends := ends_halt dest arrives
    rw [takeHalt_fits fits direction flag, takeMatched_unmatched never] at ends
    exact ends
  · obtain ⟨halted, flag⟩ := flag_of_le value
    have ends := ends_credit dest arrives
    rw [takeCredit_fits fits flag, takeMatched_unmatched never] at ends
    exact ends
  · obtain ⟨o, code⟩ := Option.isSome_iff_exists.1 code
    have ends := ends_blockack dest arrives
    rw [takeBlockack_fits fits code, takeMatched_unmatched never] at ends
    exact ends

theorem ends_close_unmatched (arrives : Arrives .close rx .up s) (fits : StreamPayload rx 12 d tag number)
    (direction : d ≤ 1) (code : (closeReasonOfCode (beAt rx.payload 8 1)).isSome)
    (never : ∀ m, ¬ CellMatch s rx tag number d m) : Acts (.close rx) s (unmatchedCounted (heard s rx)) [] := by
  obtain ⟨reason, code⟩ := Option.isSome_iff_exists.1 code
  have ends := ends_close dest arrives
  rw [takeClose_fits fits direction code, takeMatched_unmatched never, unmatched_silent] at ends
  exact ends

end cells

theorem closeCause_eq (r : CloseReason) : closeCause r = match r with
    | .abort | .unmatched => .peerClosed
    | .exchangeReset => .exchangeReset
    | .exchangeBroken => .exchangeBroken := by cases r <;> rfl

/-- Settles O56, from one lemma for each cell and for each way a block resolves. -/
theorem haltCloseAndAck : Obligations.HaltCloseAndAck := by
  unfold Obligations.HaltCloseAndAck
  refine ⟨rfl, ackResultOfCode_eq, fun rx s dest => ?unfit, fun rx s tag number n d on arrives dest fits value matched => ?halt,
    fun rx s tag number n d reason arrives dest fits code matched => ?close,
    fun rx s tag number n o arrives dest fits code source => ?ack,
    fun s ps n r r' b o sent block stays first waits other => resolveBlock_behind sent block stays first waits other,
    fun s ps n r b o => ?resolve, fun a n => rfl, fun k rx s tag number d arrives dest form noSource noSink => ?unmatched,
    fun rx s tag number d arrives dest fits direction code noSource noSink =>
      ends_close_unmatched dest arrives fits direction code (cellMatch_never direction noSource noSink)⟩
  case unfit =>
    intro b toward
    refine ⟨fun arrives unfit => ?_, fun arrives unfit => ?_, fun arrives unfit => ?_⟩
    · exact ends_as (takeHalt_unfit unfit _) (ends_halt dest arrives)
    · exact ends_as (takeClose_unfit unfit _) (ends_close dest arrives)
    · exact ends_as (takeBlockack_unfit unfit _) (ends_blockack dest arrives)
  case halt =>
    have ends := ends_halt_matched dest arrives fits value matched
    exact ⟨fun same => ends_as (setPeerHalt_same (a := ⟨heard s rx, []⟩) same) ends,
      fun other => ends_as (setPeerHalt_changes (a := ⟨heard s rx, []⟩) other) ends⟩
  case close =>
    have ends := ends_close_matched dest arrives fits code matched
    rw [closeCause_eq] at ends
    exact ends
  case ack =>
    have ends := ends_blockack_matched dest arrives fits code source
    exact ⟨fun r found awaits => ends_as (sourceAck_awaited (s := heard s rx) found awaits) ends,
      fun ignored => ends_as (sourceAck_ignored (s := heard s rx) ignored) ends⟩
  case resolve =>
    intro x y a goesOn
    have resolves : resolveBlock ⟨s, ps⟩ n r b o = if r.length = 0 then endResolved a n r o else goesOn :=
      resolveBlock_eq s ps n r b o
    have kept : a.s.slot n = { y with unresolved := x.unresolved - 1 } := slot_setSlot s n _
    have state : (a.s.slot n).state = x.state := (congrArg Slot.state kept :)
    refine ⟨fun block => resolves.trans (if_neg block), fun endBlock own ended => ?_, fun endBlock host bad stays => ?_,
      fun endBlock notEnded notLost => ?_⟩
    · exact (resolves.trans (if_pos endBlock)).trans (endResolved_ended own ended)
    · exact (resolves.trans (if_pos endBlock)).trans (endResolved_lost host bad (state ▸ stays))
    · exact (resolves.trans (if_pos endBlock)).trans (endResolved_other notEnded (state ▸ notLost))
  case unmatched =>
    have direction : d ≤ 1 := by omega
    exact ends_unmatched dest arrives form (cellMatch_never direction noSource noSink)

end Sys2Proof.HaltCloseAcks

/-! SUPPORT. The handshake of a stream: OPEN at a sink part (R123), OPEN_ANSWER and CREDIT at a source (R124, R130)
(O55). -/

namespace Sys2Proof.StreamHandshakes

open Sys2Proof Sys2Proof.Machine Sys2Proof.Statements Sys2Proof.PortUnits Sys2Proof.PortQueues Sys2Proof.ReceivedCells
  Sys2Proof.OrderWindow Sys2Proof.Candidates Sys2Proof.StreamSlots Sys2Proof.StreamSlotTimers Sys2Proof.StreamCells
  Sys2Proof.HaltCloseActs Sys2Proof.HaltCloseAcks

/-! ## Sizes and codes -/

theorem blockSizeOk_iff (v : Nat) : blockSizeOk v = true ↔ 256 ≤ v ∧ v ≤ 65536 ∧ v % 256 = 0 := by
  simp only [blockSizeOk, Bool.and_eq_true, decide_eq_true_eq, beq_iff_eq, and_assoc]

theorem paceOk_iff (v : Nat) : paceOk v = true ↔ v = 0 ∨ 10000 ≤ v ∧ v ≤ 1000000000 := by
  simp only [paceOk, Bool.or_eq_true, decide_eq_true_eq, beq_iff_eq]

theorem openAnswerOfCode_iff (x : OpenAnswer) (n : Nat) : openAnswerOfCode n = some x ↔ openAnswerCode x = n :=
  ofCode_iff (fun k => by cases k <;> decide) (fun k l => by cases k <;> cases l <;> decide) x n

theorem openAnswerOfCode_none {n : Nat} (unnamed : ¬ (1 ≤ n ∧ n ≤ 4)) : openAnswerOfCode n = none := by
  cases code : openAnswerOfCode n with
  | none => rfl
  | some x =>
    rw [openAnswerOfCode_iff] at code
    revert code
    cases x <;> simp only [openAnswerCode] <;> omega

/-! ## The answer to an OPEN -/

section answer

variable {v : State} {rx : Rx} {tag number : BitVec 16} {n : SlotIx} {x : OpenAnswer} {limit : BitVec 32}

theorem answerOpen_unknown (unknown : v.route rx.origin = none) : answerOpen v rx ⟨tag, number, 0⟩ x limit = v :=
  sendRouted_unknown unknown _

theorem answerOpen_route {r : Route} (route : v.route rx.origin = some r) : answerOpen v rx ⟨tag, number, 0⟩ x limit =
    offer v r.port ⟨ownCell v .openAnswer rx.origin.val (openAnswerPayload tag number x limit), none⟩ :=
  sendRouted_route route _

theorem answerFrom_unknown (unknown : v.route rx.origin = none) : answerFrom v n rx ⟨tag, number, 0⟩ x limit =
    setSlot v n (unsent (v.slot n)) := by
  rw [← modSlot_eq_setSlot v n unsent]
  exact if_neg (by rw [unknown]; decide)

theorem answerFrom_route {r : Route} (route : v.route rx.origin = some r) : answerFrom v n rx ⟨tag, number, 0⟩ x limit =
    offer v r.port ⟨ownCell v .openAnswer rx.origin.val (openAnswerPayload tag number x limit), none⟩ :=
  (if_pos (by rw [route]; rfl)).trans (answerOpen_route route)

end answer

/-! ## OPEN at a sink part (R123) -/

section opening

variable {s : State} {rx : Rx} {tag number : BitVec 16} {n : SlotIx}

/-- The sizes an OPEN asks for are in range. -/
def SizesFit (rx : Rx) : Prop :=
  256 ≤ beAt rx.payload 8 4 ∧ beAt rx.payload 8 4 ≤ 65536 ∧ beAt rx.payload 8 4 % 256 = 0 ∧
    (beAt rx.payload 12 4 = 0 ∨ 10000 ≤ beAt rx.payload 12 4 ∧ beAt rx.payload 12 4 ≤ 1000000000)

theorem unsized_iff : (blockSizeOk (beAt rx.payload 8 4) = false ∨ paceOk (beAt rx.payload 12 4) = false) ↔ ¬ SizesFit rx := by
  have sized : blockSizeOk (beAt rx.payload 8 4) = true ∧ paceOk (beAt rx.payload 12 4) = true ↔ SizesFit rx := by
    rw [blockSizeOk_iff, paceOk_iff, and_assoc, and_assoc] <;> rfl
  rw [← sized, Classical.not_and_iff_not_or_not, Bool.not_eq_true, Bool.not_eq_true]

/-- The slot is the sink that an OPEN is for. -/
def Offers (s : State) (rx : Rx) (tag : BitVec 16) (m : SlotIx) : Prop :=
  (s.slot m).role = .sink ∧ (s.slot m).state ≠ .closed ∧ (s.slot m).peer = rx.origin ∧ (s.slot m).tag = tag

theorem offers_iff (m : SlotIx) : (((heard s rx).slot m).role == .sink && ((heard s rx).slot m).state != .closed &&
    ((heard s rx).slot m).peer == rx.origin && ((heard s rx).slot m).tag == tag) = true ↔ Offers s rx tag m := by
  simp only [slot_heard, Offers, Bool.and_eq_true, beq_iff_eq, bne_iff_ne, and_assoc]

theorem takeOpen_unfit (unfit : ¬ (rx.payload.length = 16 ∧ beAt rx.payload 4 1 = 0)) (a : Act) : takeOpen rx a = a := by
  have headless : parseToward 16 towardSink rx.payload = none := parseToward_unfit unfit
  unfold takeOpen
  rw [headless]

variable (form : StreamPayload rx 16 0 tag number)

include form

theorem takeOpen_unsized (unsized : ¬ SizesFit rx) (a : Act) : takeOpen rx a = a := by
  have head : parseToward 16 towardSink rx.payload = some ⟨tag, number, 0⟩ := parseToward_fits form (by decide)
  unfold takeOpen
  rw [head]
  exact if_pos (unsized_iff.2 unsized)

variable (fits : SizesFit rx)

include fits

theorem takeOpen_nobody (nobody : ∀ m, ¬ Offers s rx tag m) : takeOpen rx ⟨heard s rx, []⟩ =
    ⟨answerOpen (heard s rx) rx ⟨tag, number, 0⟩ .noOffer 0, []⟩ := by
  have head : parseToward 16 towardSink rx.payload = some ⟨tag, number, 0⟩ := parseToward_fits form (by decide)
  have missing := find?_allSlots_none fun m test => nobody m ((offers_iff m).1 test)
  unfold takeOpen
  rw [head]
  dsimp only
  rw [if_neg fun h => unsized_iff.1 h fits, missing]
  rfl

theorem takeOpen_slot (only : ∀ m, m = n ↔ Offers s rx tag m) : takeOpen rx ⟨heard s rx, []⟩ =
    if (s.slot n).state = .offered then
      openOffered ⟨heard s rx, []⟩ n rx ⟨tag, number, 0⟩ (beAt rx.payload 8 4) (beAt rx.payload 12 4)
    else if (s.slot n).openNumber = number ∧ (s.slot n).peerIncarnation = some rx.incarnation then
      ⟨answerFrom (heard s rx) n rx ⟨tag, number, 0⟩ .accept (s.slot n).creditLimit, []⟩
    else ⟨answerFrom (heard s rx) n rx ⟨tag, number, 0⟩ .full 0, []⟩ := by
  have head : parseToward 16 towardSink rx.payload = some ⟨tag, number, 0⟩ := parseToward_fits form (by decide)
  have found := find?_allSlots fun m => (only m).trans (offers_iff m).symm
  unfold takeOpen
  rw [head]
  dsimp only
  rw [if_neg fun h => unsized_iff.1 h fits, found]
  rfl

end opening

section offered

variable {s : State} {rx : Rx} {tag number : BitVec 16} {n : SlotIx} {size pace : Nat} (peer : (s.slot n).peer = rx.origin)

include peer

/-- The offer's conditions of running hold: the peer is MEMBER and REACHABLE, the own standing MEMBER. -/
theorem mayRun_heard : mayRun (heard s rx) n = true ↔ (s.entry rx.origin).state = .member ∧
    (s.route rx.origin).isSome = true ∧ s.roster.standing = .member := by
  rw [mayRun_iff, slot_heard, peer] <;> rfl

theorem openOffered_idle (idle : ¬ ((s.entry rx.origin).state = .member ∧ (s.route rx.origin).isSome = true ∧
    s.roster.standing = .member)) : openOffered ⟨heard s rx, []⟩ n rx ⟨tag, number, 0⟩ size pace =
      ⟨answerFrom (heard s rx) n rx ⟨tag, number, 0⟩ .noOffer 0, []⟩ :=
  if_pos (Bool.eq_false_iff.2 fun h => idle ((mayRun_heard peer).1 h))

variable (runs : (s.entry rx.origin).state = .member ∧ (s.route rx.origin).isSome = true ∧ s.roster.standing = .member)

include runs

theorem openOffered_mismatch (other : size ≠ (s.slot n).blockSize) :
    openOffered ⟨heard s rx, []⟩ n rx ⟨tag, number, 0⟩ size pace =
      ⟨answerFrom (heard s rx) n rx ⟨tag, number, 0⟩ .mismatch 0, []⟩ :=
  (if_neg (by rw [(mayRun_heard peer).2 runs]; decide)).trans (if_pos other)

theorem openOffered_accepts (same : size = (s.slot n).blockSize) :
    openOffered ⟨heard s rx, []⟩ n rx ⟨tag, number, 0⟩ size pace =
      ⟨answerFrom (setSlot (heard s rx) n { s.slot n with
        state := .flowing, cause := .accepted, sinceNotice := 0, openNumber := number, openAbsent := false
        peerIncarnation := some rx.incarnation, pace := pace, lastCredit := s.now, expBlock := 0, expCell := 0
        asmLength := 0 }) n rx ⟨tag, number, 0⟩ .accept (s.slot n).creditLimit, slotReport n⟩ := by
  unfold openOffered Act.on
  dsimp only
  have sized : ¬ size ≠ ((heard s rx).slot n).blockSize := not_not_intro same
  rw [if_neg (by rw [(mayRun_heard peer).2 runs]; decide), if_neg sized, modSlot_eq_setSlot, setSlotState_setSlot]
  rfl

end offered

section slots

variable {s : State} {rx : Rx} {tag number : BitVec 16} {n : SlotIx} (form : StreamPayload rx 16 0 tag number)
  (fits : SizesFit rx) (only : ∀ m, m = n ↔ Offers s rx tag m)

include form fits only

/-- No answer to an OPEN for a slot can be sent where its origin is UNKNOWN. -/
theorem takeOpen_unknown (unknown : s.route rx.origin = none) : takeOpen rx ⟨heard s rx, []⟩ =
    ⟨setSlot (heard s rx) n (unsent (s.slot n)), []⟩ := by
  obtain ⟨-, -, peer, -⟩ := (only n).1 rfl
  have answer (x : OpenAnswer) (limit : BitVec 32) : answerFrom (heard s rx) n rx ⟨tag, number, 0⟩ x limit =
      setSlot (heard s rx) n (unsent (s.slot n)) := answerFrom_unknown (v := heard s rx) unknown
  have idle : ¬ ((s.entry rx.origin).state = .member ∧ (s.route rx.origin).isSome = true ∧ s.roster.standing = .member) := by
    rintro ⟨-, reachable, -⟩
    rw [unknown] at reachable
    cases reachable
  rw [takeOpen_slot form fits only, openOffered_idle peer idle, answer, answer, answer]
  split
  · rfl
  · exact ite_self _

theorem takeOpen_offered (offered : (s.slot n).state = .offered) : takeOpen rx ⟨heard s rx, []⟩ =
    openOffered ⟨heard s rx, []⟩ n rx ⟨tag, number, 0⟩ (beAt rx.payload 8 4) (beAt rx.payload 12 4) := by
  rw [takeOpen_slot form fits only, if_pos offered]

theorem takeOpen_taken (taken : (s.slot n).state ≠ .offered) : takeOpen rx ⟨heard s rx, []⟩ =
    if (s.slot n).openNumber = number ∧ (s.slot n).peerIncarnation = some rx.incarnation then
      ⟨answerFrom (heard s rx) n rx ⟨tag, number, 0⟩ .accept (s.slot n).creditLimit, []⟩
    else ⟨answerFrom (heard s rx) n rx ⟨tag, number, 0⟩ .full 0, []⟩ := by
  rw [takeOpen_slot form fits only, if_neg taken]

end slots

/-! ## OPEN_ANSWER and CREDIT at a source (R124, R130) -/

section source

variable {s : State} {ps : List Post} {rx : Rx} {tag number : BitVec 16} {n : SlotIx}

theorem takeOpenAnswer_fits {x : OpenAnswer} (form : StreamPayload rx 16 1 tag number)
    (code : beAt rx.payload 8 1 = openAnswerCode x) (a : Act) : takeOpenAnswer rx a = takeMatched a rx ⟨tag, number, 1⟩
      false (fun a n => sourceAnswer a n x (BitVec.ofNat 32 (beAt rx.payload 12 4))) := by
  have head : parseToward 16 towardSource rx.payload = some ⟨tag, number, 1⟩ := parseToward_fits form (Nat.le_refl _)
  unfold takeOpenAnswer
  rw [head, (openAnswerOfCode_iff x _).2 code.symm]

theorem takeOpenAnswer_unfit (unfit : ¬ ((rx.payload.length = 16 ∧ beAt rx.payload 4 1 = 1) ∧ 1 ≤ beAt rx.payload 8 1 ∧
    beAt rx.payload 8 1 ≤ 4)) (a : Act) : takeOpenAnswer rx a = a := by
  unfold takeOpenAnswer
  by_cases form : rx.payload.length = 16 ∧ beAt rx.payload 4 1 = 1
  · rw [openAnswerOfCode_none fun named => unfit ⟨form, named⟩]
    cases parseToward 16 towardSource rx.payload <;> rfl
  · have headless : parseToward 16 towardSource rx.payload = none := parseToward_unfit form
    rw [headless]

theorem takeCredit_unfit (unfit : ¬ ((rx.payload.length = 16 ∧ beAt rx.payload 4 1 = 1) ∧ beAt rx.payload 12 1 ≤ 1))
    (a : Act) : takeCredit rx a = a := by
  unfold takeCredit
  by_cases form : rx.payload.length = 16 ∧ beAt rx.payload 4 1 = 1
  · cases parseToward 16 towardSource rx.payload with
    | none => rfl
    | some h => exact if_pos (Nat.lt_of_not_le fun small => unfit ⟨form, small⟩)
  · have headless : parseToward 16 towardSource rx.payload = none := parseToward_unfit form
    rw [headless]

theorem sourceAnswer_opening {a : Act} {limit : BitVec 32} (opening : (a.s.slot n).state = .opening) (x : OpenAnswer) :
    sourceAnswer a n x limit = match x with
      | .accept => acceptSource a n limit
      | .noOffer => a
      | .mismatch => closeSlot a n .mismatch true .mismatch
      | .full => closeSlot a n .full true .full := by
  refine (if_neg (not_not_intro opening)).trans ?_
  cases x <;> rfl

theorem acceptSource_eq {q : BitVec 32} (limit : BitVec 32) (order : (s.slot n).openOrder = some q) :
    acceptSource ⟨s, ps⟩ n limit = complete
      (takeSettled ⟨setSlot s n { s.slot n with creditLimit := limit, openOrder := none }, ps⟩ n .accepted) q .done 0
      (leBytes 4 limit.toNat) := by
  unfold acceptSource Act.on
  dsimp only
  rw [order, modSlot_eq_setSlot]

variable {limit : BitVec 32} {halted : Bool}

theorem sourceCredit_opening (opening : (s.slot n).state = .opening) : sourceCredit ⟨s, ps⟩ n limit halted =
    acceptSource ⟨setSlot s n { s.slot n with peerHalt := halted }, ps⟩ n limit := by
  rw [← modSlot_eq_setSlot s n (fun x => { x with peerHalt := halted })]
  exact if_pos opening

/-- The slot with the limit of a CREDIT, where that is newer. -/
def credited (limit : BitVec 32) (x : Slot) : Slot :=
  { x with creditLimit := if newer limit x.creditLimit then limit else x.creditLimit }

theorem sourceCredit_opened (opened : (s.slot n).state ≠ .opening) : sourceCredit ⟨s, ps⟩ n limit halted =
    setPeerHalt ⟨setSlot s n (credited limit (s.slot n)), ps⟩ n halted := by
  rw [← modSlot_eq_setSlot s n (credited limit)]
  exact if_neg opened

theorem sourceCredit_same (opened : (s.slot n).state ≠ .opening) (same : (s.slot n).peerHalt = halted) :
    sourceCredit ⟨s, ps⟩ n limit halted = ⟨setSlot s n (credited limit (s.slot n)), ps⟩ := by
  rw [sourceCredit_opened opened, setPeerHalt_same]
  rw [slot_setSlot]
  exact same

theorem sourceCredit_changes (opened : (s.slot n).state ≠ .opening) (other : (s.slot n).peerHalt = !halted) :
    sourceCredit ⟨s, ps⟩ n limit halted =
      settle ⟨setSlot s n { credited limit (s.slot n) with peerHalt := halted }, ps⟩ n
        (if halted then .peerHalt else .resumed) := by
  rw [sourceCredit_opened opened, setPeerHalt_changes]
  · dsimp only
    rw [setSlot_setSlot, slot_setSlot]
  · rw [slot_setSlot]
    exact other

end source

section cells

variable {rx : Rx} {s : State} {tag number : BitVec 16} {n : SlotIx} (dest : rx.dest.toNat = s.own.val)

include dest

theorem ends_openCell (arrives : Arrives .openCell rx .up s) : Ends (.openCell rx) s (takeOpen rx ⟨heard s rx, []⟩) :=
  ends_here arrives (.inr dest)

theorem ends_openAnswer (arrives : Arrives .openAnswer rx .up s) :
    Ends (.openAnswer rx) s (takeOpenAnswer rx ⟨heard s rx, []⟩) :=
  ends_here arrives (.inr dest)

theorem ends_openAnswer_matched {x : OpenAnswer} (arrives : Arrives .openAnswer rx .up s)
    (form : StreamPayload rx 16 1 tag number) (code : beAt rx.payload 8 1 = openAnswerCode x)
    (source : Source s rx tag number n) : Ends (.openAnswer rx) s
      (sourceAnswer ⟨heard s rx, []⟩ n x (BitVec.ofNat 32 (beAt rx.payload 12 4))) := by
  have ends := ends_openAnswer dest arrives
  rw [takeOpenAnswer_fits form code, takeMatched_matched (cellMatch_only (.inl ⟨rfl, source⟩))] at ends
  exact ends

theorem ends_openAnswer_unmatched {x : OpenAnswer} (arrives : Arrives .openAnswer rx .up s)
    (form : StreamPayload rx 16 1 tag number) (code : beAt rx.payload 8 1 = openAnswerCode x)
    (never : ∀ m, ¬ SourceMatch s rx tag number m) :
    Acts (.openAnswer rx) s (unmatchedCounted (heard s rx)) [] := by
  have ends := ends_openAnswer dest arrives
  rw [takeOpenAnswer_fits form code, takeMatched_unmatched fun m h => never m (cellMatch_source.1 h),
    unmatched_silent] at ends
  exact ends

theorem ends_credit_matched {halted : Bool} (arrives : Arrives .credit rx .up s)
    (form : StreamPayload rx 16 1 tag number) (value : beAt rx.payload 12 1 = flagCode halted)
    (source : Source s rx tag number n) : Ends (.credit rx) s
      (sourceCredit ⟨heard s rx, []⟩ n (BitVec.ofNat 32 (beAt rx.payload 8 4)) halted) := by
  have ends := ends_credit dest arrives
  rw [takeCredit_fits form value, takeMatched_matched (cellMatch_only (.inl ⟨rfl, source⟩))] at ends
  exact ends

end cells

/-- Settles O55, from one lemma for each answer of R123 and for each cell at a source. -/
theorem streamHandshake : Obligations.StreamHandshake := by
  unfold Obligations.StreamHandshake
  refine ⟨rfl, fun rx s dest => ?unfit, fun rx s tag number arrives dest form => ?opens,
    fun rx s tag number x arrives dest form code => ?answers, fun s ps n limit q => acceptSource_eq limit,
    fun rx s tag number n halted arrives dest form value source => ?credits⟩
  case unfit =>
    intro b toward
    exact ⟨fun arrives unfit => ends_as (takeOpen_unfit unfit _) (ends_openCell dest arrives),
      fun arrives unfit => ends_as (takeOpenAnswer_unfit unfit _) (ends_openAnswer dest arrives),
      fun arrives unfit => ends_as (takeCredit_unfit unfit _) (ends_credit dest arrives)⟩
  case opens =>
    have ends := ends_openCell dest arrives
    intro size pace fits' u
    refine ⟨fun unsized => ends_as (takeOpen_unsized form unsized _) ends, fun fits => ?_⟩
    intro answer offers
    refine ⟨fun unknown nobody => ?_, fun n unknown only => ?_, fun r route => ⟨fun nobody => ?_, fun n only => ?_⟩⟩
    · refine ends_as ((takeOpen_nobody form fits nobody).trans ?_) ends
      rw [answerOpen_unknown (v := u) unknown]
    · exact ends_as (takeOpen_unknown form fits only unknown) ends
    · refine ends_as ((takeOpen_nobody form fits nobody).trans ?_) ends
      rw [answerOpen_route (v := u) route]
      rfl
    · intro x ready
      obtain ⟨-, -, peer, -⟩ := (only n).1 rfl
      have answered (a : OpenAnswer) (limit : BitVec 32) :
          answerFrom u n rx ⟨tag, number, 0⟩ a limit = answer u a limit r := answerFrom_route (v := u) route
      have reachable : (s.route rx.origin).isSome = true := by rw [route]; rfl
      refine ⟨fun offered => ?_, fun taken => ?_⟩
      · have opens := takeOpen_offered form fits only offered
        refine ⟨fun waits => ?_, fun runs other => ?_, fun runs same => ?_⟩
        · have idle := openOffered_idle (tag := tag) (number := number) (size := size) (pace := pace) peer
            fun ⟨entry, _, standing⟩ => waits ⟨entry, standing⟩
          exact ends_as ((opens.trans idle).trans (congrArg (Act.mk · []) (answered .noOffer 0))) ends
        · have mismatch := openOffered_mismatch (tag := tag) (number := number) (pace := pace) peer
            ⟨runs.1, reachable, runs.2⟩ other
          exact ends_as ((opens.trans mismatch).trans (congrArg (Act.mk · []) (answered .mismatch 0))) ends
        · have accepts := openOffered_accepts (tag := tag) (number := number) (pace := pace) peer
            ⟨runs.1, reachable, runs.2⟩ same
          refine ends_as ((opens.trans accepts).trans (congrArg (Act.mk · _) ?_)) ends
          exact answerFrom_route (v := setSlot u n _) route
      · have opens := takeOpen_taken form fits only taken
        rw [answered, answered] at opens
        by_cases again : x.openNumber = number ∧ x.peerIncarnation = some rx.incarnation
        · rw [if_pos again] at opens ⊢
          exact ends_as opens ends
        · rw [if_neg again] at opens ⊢
          exact ends_as opens ends
  case answers =>
    intro a
    refine ⟨ends_openAnswer_unmatched dest arrives form code, fun n source => ?_⟩
    have ends := ends_openAnswer_matched dest arrives form code source
    refine ⟨fun opened => ends_as (if_pos opened) ends, fun opening => ?_⟩
    rw [sourceAnswer_opening (a := a) opening] at ends
    cases x <;> exact ends
  case credits =>
    have ends := ends_credit_matched dest arrives form value source
    intro limit x y u
    exact ⟨fun opening => ends_as (sourceCredit_opening (s := u) opening) ends,
      fun opened same => ends_as (sourceCredit_same (s := u) opened same) ends,
      fun opened other => ends_as (sourceCredit_changes (s := u) opened other) ends⟩

end Sys2Proof.StreamHandshakes

/-! SUPPORT. DATA at the sink it matches: its form (R150), its judgement (R152), and the cell of the expected block
(R153, R154, R158). -/

namespace Sys2Proof.DataCells

open Sys2Proof Sys2Proof.Machine Sys2Proof.Statements Sys2Proof.PortUnits Sys2Proof.PortQueues Sys2Proof.ReceivedCells
  Sys2Proof.Delivery Sys2Proof.ExchangeEvents Sys2Proof.Candidates Sys2Proof.StreamSlots
  Sys2Proof.BlockRecords Sys2Proof.Completions Sys2Proof.StreamCells

/-! ## The form of DATA -/

/-- The bytes before a cell's samples. -/
def headSize (i : Nat) : Nat := if i = 0 then 24 else 8

/-- A DATA payload's form fits. -/
def DataForm (b : List Byte) : Prop :=
  headSize (beAt b 5 2) ≤ b.length ∧ b.length ≤ 256 ∧ beAt b 4 1 = 0 ∧ beAt b 5 2 ≤ 264 ∧ beAt b 7 1 ≤ 1 ∧
    (beAt b 5 2 = 0 → beAt b 20 1 ≤ 2)

/-- The fields read. -/
def readData (b : List Byte) : DataFields :=
  let i := beAt b 5 2
  { tag := BitVec.ofNat 16 (beAt b 0 2), openNumber := BitVec.ofNat 16 (beAt b 2 2), index := i,
    last := beAt b 7 1 == 1,
    length := if i = 0 then beAt b 8 4 else 0,
    timestamp := if i = 0 then BitVec.ofNat 64 (beAt b 12 8) else 0,
    quality := if i = 0 then BitVec.ofNat 8 (beAt b 20 1) else 0,
    samples := b.drop (headSize i) }

theorem parseData_fits {b : List Byte} (fits : DataForm b) : parseData b = some (readData b) := by
  obtain ⟨lead, small, direction, index, last, quality⟩ := fits
  refine if_neg ?_
  rintro (short | long | other | high | flag | named)
  · exact absurd short (Nat.not_lt.2 lead)
  · exact absurd long (Nat.not_lt.2 small)
  · exact other direction
  · exact absurd high (Nat.not_lt.2 index)
  · exact absurd flag (Nat.not_lt.2 last)
  · exact absurd named.2 (Nat.not_lt.2 (quality named.1))

theorem parseData_unfit {b : List Byte} (unfit : ¬ DataForm b) : parseData b = none := by
  refine if_pos ?_
  refine Classical.byContradiction fun fits => ?_
  simp only [not_or, Nat.not_lt, Classical.not_not, not_and] at fits
  exact unfit fits

/-- What the fields of a payload are. -/
def DataIs (b : List Byte) (d : DataFields) : Prop :=
  beAt b 0 2 = d.tag.toNat ∧ beAt b 2 2 = d.openNumber.toNat ∧ beAt b 5 2 = d.index ∧ beAt b 7 1 = flagCode d.last ∧
    d.length = (if d.index = 0 then beAt b 8 4 else 0) ∧ d.timestamp.toNat = (if d.index = 0 then beAt b 12 8 else 0) ∧
    d.quality.toNat = (if d.index = 0 then beAt b 20 1 else 0) ∧ d.samples = b.drop (headSize d.index)

/-- A field read in cell 0 alone. -/
theorem firstField_iff {w n : Nat} (fits : 256 ^ n = 2 ^ w) (b : List Byte) (off i : Nat) (v : BitVec w) :
    (if i = 0 then BitVec.ofNat w (beAt b off n) else 0) = v ↔ v.toNat = if i = 0 then beAt b off n else 0 := by
  by_cases first : i = 0
  · rw [if_pos first, if_pos first, ofNat_beAt_iff fits, eq_comm]
  · rw [if_neg first, if_neg first]
    exact ⟨fun zero => by rw [← zero]; exact BitVec.toNat_zero, fun zero => (BitVec.eq_of_toNat_eq
      (zero.trans BitVec.toNat_zero.symm)).symm⟩

theorem readData_iff {b : List Byte} (flag : beAt b 7 1 ≤ 1) (d : DataFields) : readData b = d ↔ DataIs b d := by
  obtain ⟨tag, number, index, last, length, time, quality, samples⟩ := d
  unfold readData DataIs
  dsimp only
  rw [DataFields.mk.injEq, ofNat_beAt_iff (by decide), ofNat_beAt_iff (by decide), flag_iff flag, firstField_iff (by decide),
    firstField_iff (by decide)]
  constructor
  · rintro ⟨hTag, hNumber, rfl, hLast, hLength, hTime, hQuality, hSamples⟩
    exact ⟨hTag, hNumber, rfl, hLast, hLength.symm, hTime, hQuality, hSamples.symm⟩
  · rintro ⟨hTag, hNumber, rfl, hLast, hLength, hTime, hQuality, hSamples⟩
    exact ⟨hTag, hNumber, rfl, hLast, hLength.symm, hTime, hQuality, hSamples.symm⟩

theorem parseData_iff (b : List Byte) (d : DataFields) : parseData b = some d ↔ DataForm b ∧ DataIs b d := by
  by_cases fits : DataForm b
  · have ⟨_, _, _, _, flag, _⟩ := fits
    rw [parseData_fits fits, Option.some.injEq, readData_iff flag, and_iff_right fits]
  · rw [parseData_unfit fits]
    exact ⟨fun h => absurd h (by simp), fun h => absurd h.1 fits⟩

/-- The form of DATA, spelled. -/
theorem dataForm_iff (b : List Byte) (d : DataFields) : DataForm b ∧ DataIs b d ↔
    (let first := d.index = 0
     let head := if first then 24 else 8
     head ≤ b.length ∧ b.length ≤ 256 ∧ beAt b 0 2 = d.tag.toNat ∧ beAt b 2 2 = d.openNumber.toNat ∧
      beAt b 4 1 = 0 ∧ beAt b 5 2 = d.index ∧ d.index ≤ 264 ∧ beAt b 7 1 = flagCode d.last ∧
      d.length = (if first then beAt b 8 4 else 0) ∧ d.timestamp.toNat = (if first then beAt b 12 8 else 0) ∧
      d.quality.toNat = (if first then beAt b 20 1 else 0) ∧ d.quality.toNat ≤ 2 ∧ d.samples = b.drop head) := by
  constructor
  · rintro ⟨⟨lead, small, direction, high, -, named⟩, tag, number, index, last, length, time, quality, samples⟩
    rw [index] at lead high named
    refine ⟨lead, small, tag, number, direction, index, high, last, length, time, quality, ?_, samples⟩
    rw [quality]
    split
    case isTrue first => exact named first
    case isFalse => exact Nat.zero_le 2
  · rintro ⟨lead, small, tag, number, direction, index, high, last, length, time, quality, named, samples⟩
    refine ⟨⟨?_, small, direction, ?_, last ▸ flagCode_le d.last, fun first => ?_⟩, tag, number, index, last, length,
      time, quality, samples⟩
    · rw [index]
      exact lead
    · rw [index]
      exact high
    · rw [quality, if_pos (index ▸ first)] at named
      exact named

/-! ## The judgement of a cell (R152) -/

section judgement

variable {v : State} {ps : List Post} {n : SlotIx} {b : BitVec 32} {d : DataFields} {stamp : Time}

theorem countSlot_eq (v : State) (ps : List Post) (n : SlotIx) (f : SlotCounters → SlotCounters) :
    countSlot ⟨v, ps⟩ n f = ⟨setSlot v n { v.slot n with counters := f (v.slot n).counters }, ps⟩ := by
  rw [← modSlot_eq_setSlot v n (fun x => { x with counters := f x.counters })]
  rfl

theorem older_iff (b c : BitVec 32) : older b c = true ↔ b ≠ c ∧ newer b c = false := by
  simp only [older, Bool.and_eq_true, Bool.not_eq_true', bne_iff_ne, and_comm]

theorem sinkData_stale (stale : b ≠ (v.slot n).expBlock ∧ newer b (v.slot n).expBlock = false) :
    sinkData ⟨v, ps⟩ n b d stamp = ⟨setSlot v n { v.slot n with
      counters := { (v.slot n).counters with stale := (v.slot n).counters.stale + 1 } }, ps⟩ :=
  (if_pos ((older_iff _ _).2 stale)).trans (countSlot_eq ..)

variable (fresh : ¬ (b ≠ (v.slot n).expBlock ∧ newer b (v.slot n).expBlock = false))

include fresh

theorem sinkData_beyond (beyond : newer (v.slot n).creditLimit b = false) :
    sinkData ⟨v, ps⟩ n b d stamp = ⟨setSlot v n { v.slot n with
      counters := { (v.slot n).counters with beyond := (v.slot n).counters.beyond + 1 } }, ps⟩ :=
  (if_neg fun h => fresh ((older_iff _ _).1 h)).trans ((if_pos beyond).trans (countSlot_eq ..))

variable (credit : newer (v.slot n).creditLimit b = true)

include credit

theorem sinkData_within : sinkData ⟨v, ps⟩ n b d stamp = assembleData (clearPeerHalt ⟨v, ps⟩ n d) n b d stamp :=
  (if_neg fun h => fresh ((older_iff _ _).1 h)).trans (if_neg (by rw [credit]; decide))

theorem sinkData_plain (plain : d.index ≠ 0 ∨ (v.slot n).peerHalt = false) :
    sinkData ⟨v, ps⟩ n b d stamp = assembleData ⟨v, ps⟩ n b d stamp := by
  have still : clearPeerHalt ⟨v, ps⟩ n d = ⟨v, ps⟩ := by
    refine if_neg fun ⟨first, halted⟩ => ?_
    rcases plain with later | clear
    · exact later first
    · exact Bool.false_ne_true (clear.symm.trans halted)
  rw [sinkData_within fresh credit, still]

theorem sinkData_clears (first : d.index = 0) (halted : (v.slot n).peerHalt = true) :
    sinkData ⟨v, ps⟩ n b d stamp =
      assembleData (settle ⟨setSlot v n { v.slot n with peerHalt := false }, ps⟩ n .resumed) n b d stamp := by
  have clears : clearPeerHalt ⟨v, ps⟩ n d = settle ⟨setSlot v n { v.slot n with peerHalt := false }, ps⟩ n .resumed := by
    rw [← modSlot_eq_setSlot v n (fun x => { x with peerHalt := false })]
    exact if_pos ⟨first, halted⟩
  rw [sinkData_within fresh credit, clears]

end judgement

section assembly

variable {v : State} {ps : List Post} {n : SlotIx} {b : BitVec 32} {d : DataFields} {stamp : Time}

/-- A halted or stranded sink does not assemble the block. -/
def HeldOff (x : Slot) (b : BitVec 32) : Prop :=
  (x.state = .halted ∨ x.state = .stranded) ∧ ¬ (0 < x.expCell ∧ b = x.expBlock)

theorem heldOff_iff (x : Slot) (b : BitVec 32) : ((x.state == .halted || x.state == .stranded) &&
    !(decide (0 < x.expCell) && b == x.expBlock)) = true ↔ HeldOff x b := by
  unfold HeldOff
  rw [Bool.and_eq_true, Bool.or_eq_true, beq_iff_eq, beq_iff_eq, Bool.not_eq_true', ← Bool.not_eq_true, Bool.and_eq_true,
    decide_eq_true_eq, beq_iff_eq]

theorem assembleData_heldOff (heldOff : HeldOff (v.slot n) b) : assembleData ⟨v, ps⟩ n b d stamp =
    ⟨setSlot v n { v.slot n with
      counters := { (v.slot n).counters with heldOff := (v.slot n).counters.heldOff + 1 } }, ps⟩ :=
  (if_pos ((heldOff_iff _ b).2 heldOff)).trans (countSlot_eq ..)

variable (assembles : ¬ HeldOff (v.slot n) b)

include assembles

theorem assembleData_expected (expected : b = (v.slot n).expBlock) :
    assembleData ⟨v, ps⟩ n b d stamp = expectedCell ⟨v, ps⟩ n d stamp :=
  (if_neg fun h => assembles ((heldOff_iff _ b).1 h)).trans (if_pos expected)

theorem assembleData_gap (later : b ≠ (v.slot n).expBlock) : assembleData ⟨v, ps⟩ n b d stamp =
    if d.index = 0 then expectedCell (sinkGap n (b - (v.slot n).expBlock).toNat ⟨v, ps⟩) n d stamp
    else sinkGap n ((b - (v.slot n).expBlock).toNat + 1) ⟨v, ps⟩ :=
  (if_neg fun h => assembles ((heldOff_iff _ b).1 h)).trans (if_neg later)

end assembly

/-! ## A cell of the expected block (R153, R154, R158) -/

section expected

variable {v : State} {ps : List Post} {n : SlotIx} {d : DataFields} {stamp : Time}

/-- The length of the block a cell belongs to. -/
def blockLength (x : Slot) (d : DataFields) : Nat := if d.index = 0 then d.length else x.asmLength

/-- The cell is the one expected, and fits its block. -/
def Fits (x : Slot) (d : DataFields) : Prop :=
  d.index = x.expCell ∧ blockLength x d ≤ x.blockSize ∧ d.samples.length = cellCount (blockLength x d) d.index ∧
    d.last = decide (cellOffset d.index + cellCount (blockLength x d) d.index = blockLength x d)

theorem cellFits_iff (x : Slot) (d : DataFields) : d.index = x.expCell ∧ cellFits x d = true ↔ Fits x d := by
  have last (l i : Nat) : cellLast l i = decide (cellOffset i + cellCount l i = l) := Bool.beq_eq_decide_eq ..
  unfold Fits cellFits
  simp only [Bool.and_eq_true, decide_eq_true_eq, beq_iff_eq, last, and_assoc]
  rfl

theorem expectedCell_unfit (unfit : ¬ Fits (v.slot n) d) : expectedCell ⟨v, ps⟩ n d stamp =
    closeIfDrained (sinkDamaged ⟨v, ps⟩ n (v.slot n).expBlock) n :=
  if_neg fun h => unfit ((cellFits_iff _ d).1 h)

/-- What a taken cell changes in its record. -/
theorem takeCellRec_eq (d : DataFields) (stamp : Time) (y : Rec) : takeCellRec d stamp y = { y with
    lengthDone := y.lengthDone + d.samples.length, arrival := stamp
    stage := if d.index = 0 then .assembling else y.stage
    timestamp := if d.index = 0 then d.timestamp else y.timestamp
    quality := if d.index = 0 then d.quality else y.quality } := by
  unfold takeCellRec
  by_cases first : d.index = 0
  · simp only [if_pos first]
  · simp only [if_neg first]

/-- The slot with a cell taken. -/
def cellTaken (d : DataFields) (stamp : Time) (x : Slot) : Slot := { modRec x.expBlock (fun y => { y with
    lengthDone := y.lengthDone + d.samples.length, arrival := stamp
    stage := if d.index = 0 then .assembling else y.stage
    timestamp := if d.index = 0 then d.timestamp else y.timestamp
    quality := if d.index = 0 then d.quality else y.quality }) x with
  expCell := x.expCell + 1, asmLength := blockLength x d }

theorem takeCellSlot_eq (d : DataFields) (stamp : Time) (x : Slot) :
    takeCellSlot d (modRec x.expBlock (takeCellRec d stamp) x) = cellTaken d stamp x := by
  rw [funext (takeCellRec_eq d stamp)]
  rfl

variable (fits : Fits (v.slot n) d) {r : Rec} (found : findRec (v.slot n) (v.slot n).expBlock = some r)

include fits found

theorem expectedCell_taken {m : Memory}
    (written : writeHost v (r.buffer.toNat + cellOffset d.index) d.samples = .ok { v with mem := m }) :
    let w : State := { setSlot v n (cellTaken d stamp (v.slot n)) with mem := m }
    expectedCell ⟨v, ps⟩ n d stamp =
      if d.last then lastTaken ⟨w, ps⟩ n (v.slot n).expBlock (blockLength (v.slot n) d) else ⟨w, ps⟩ := by
  intro w
  have taken : ({ v with mem := m } : State).modSlot n
      (fun x => takeCellSlot d (modRec (v.slot n).expBlock (takeCellRec d stamp) x)) = w := by
    rw [modSlot_eq_setSlot]
    show setSlot { v with mem := m } n (takeCellSlot d (modRec _ _ (v.slot n))) = _
    rw [takeCellSlot_eq]
    rfl
  have length : (w.slot n).asmLength = blockLength (v.slot n) d :=
    congrArg Slot.asmLength (slot_setSlot v n (cellTaken d stamp (v.slot n)))
  refine (if_pos ((cellFits_iff _ d).2 fits)).trans ?_
  unfold takeCell Act.on
  dsimp only
  rw [found]
  dsimp only
  rw [written]
  dsimp only
  rw [taken, length]

theorem expectedCell_fault {e : Nat}
    (fault : firstFault v.mem.writeFaults (r.buffer.toNat + cellOffset d.index) d.samples.length = some e) :
    let x := v.slot n
    expectedCell ⟨v, ps⟩ n d stamp = faultHalt ⟨setSlot v n { modRec x.expBlock (fun y => { y with stage := .faulted }) x with
      expBlock := x.expBlock + 1, expCell := 0, asmLength := 0
      counters := { x.counters with faults := x.counters.faults + 1 } }, ps ++ [faultPost .bufferWrite e]⟩ n := by
  intro x
  refine (if_pos ((cellFits_iff _ d).2 fits)).trans ?_
  unfold takeCell
  dsimp only
  rw [found]
  dsimp only
  rw [writeHost_fault fault]
  unfold sinkBufferFault Act.on
  dsimp only
  rw [modSlot_eq_setSlot, blockFault_setSlot]
  rfl

end expected

/-! ## The completion of a block (R154) -/

section completion

variable (v : State) (ps : List Post) (n : SlotIx) (c : BitVec 32) (o : BlockOutcome)

theorem sinkComplete_eq : sinkComplete ⟨v, ps⟩ n c o = (completeHeld ⟨sendAck (setSlot v n { finishRec c o (v.slot n) with
    expBlock := c + 1, expCell := 0, asmLength := 0 }) n c o, ps⟩ n).1 := by
  unfold sinkComplete Act.on
  dsimp only
  rw [modSlot_eq_setSlot]
  rfl

theorem sinkDamaged_eq : sinkDamaged ⟨v, ps⟩ n c = sinkComplete (if c = (v.slot n).expBlock ∧ (v.slot n).expCell ≠ 0
    then ⟨v, ps⟩ else ⟨setSlot v n { v.slot n with
      counters := { (v.slot n).counters with gap := (v.slot n).counters.gap + 1 } }, ps⟩) n c .damaged := by
  unfold sinkDamaged Act.on
  dsimp only
  rw [modSlot_eq_setSlot]

/-- The block is LATE. -/
def Late (y : Slot) (r : Rec) : Bool :=
  decide (y.lateness ≠ 0 ∧ (y.lateness : Int) * 1000 < (r.arrival - r.timestamp).toInt)

theorem isLate_eq (y : Slot) (r : Rec) : isLate y r = Late y r := by
  unfold isLate Late
  rw [Bool.eq_iff_iff, Bool.and_eq_true, bne_iff_ne, decide_eq_true_eq, decide_eq_true_eq]
  exact and_congr_right fun _ => by rw [Int.natCast_mul] <;> rfl

theorem finishRec_eq (y : Slot) : finishRec c o y =
    { modRec c (fun r => { r with stage := .resolved, outcome := some o, late := Late y r }) y with
      counters := { y.counters with
        late := if (findRec y c).any (Late y) then y.counters.late + 1 else y.counters.late } } := by
  unfold finishRec
  simp only [isLate_eq]
  cases findRec y c <;> rfl

end completion

end Sys2Proof.DataCells

/-! SUPPORT. DATA at the sink it matches (O57). -/

namespace Sys2Proof.DataActs

open Sys2Proof Sys2Proof.Machine Sys2Proof.Statements Sys2Proof.PortUnits Sys2Proof.PortQueues Sys2Proof.ReceivedCells
  Sys2Proof.Delivery Sys2Proof.Candidates Sys2Proof.StreamSlots Sys2Proof.StreamCells Sys2Proof.DataCells

section cells

variable {rx : Rx} {s : State} {d : DataFields} {n : SlotIx} (arrives : Arrives .data rx .up s)
  (dest : rx.dest.toNat = s.own.val)

include arrives dest

theorem ends_data : Ends (.data rx) s (takeData rx ⟨heard s rx, []⟩) := ends_here arrives (.inr dest)

theorem acts_data_unfit (unfit : parseData rx.payload = none) : Acts (.data rx) s (heard s rx) [] := by
  have ends := ends_data arrives dest
  unfold takeData at ends
  rw [unfit] at ends
  exact ends

variable (fits : parseData rx.payload = some d)

include fits

theorem ends_data_fits : Ends (.data rx) s (takeMatched ⟨heard s rx, []⟩ rx ⟨d.tag, d.openNumber, 0⟩ (d.index == 0)
    (fun a n => sinkData a n rx.word d rx.stamp)) := by
  have ends := ends_data arrives dest
  unfold takeData at ends
  rw [fits] at ends
  exact ends

theorem acts_data_unmatched (never : ∀ m, ¬ SinkMatch s rx d.tag d.openNumber m) : Acts (.data rx) s
    (if d.index = 0 then sendRouted (unmatchedCounted (heard s rx)) rx.origin
      (ownCell s .close rx.origin.val (closePayload d.tag d.openNumber 1 .unmatched)) else unmatchedCounted (heard s rx)) [] := by
  have ends := ends_data_fits arrives dest fits
  rw [takeMatched_unmatched fun m h => never m (cellMatch_sink.1 h)] at ends
  by_cases first : d.index = 0
  · rw [first, beq_self_eq_true, unmatched_answered] at ends
    rw [if_pos first]
    exact ends
  · rw [beq_eq_false_iff_ne.2 first, unmatched_silent] at ends
    rw [if_neg first]
    exact ends

theorem ends_data_matched (sink : Sink s rx d.tag d.openNumber n) :
    Ends (.data rx) s (sinkData ⟨heard s rx, []⟩ n rx.word d rx.stamp) := by
  have ends := ends_data_fits arrives dest fits
  rw [takeMatched_matched (cellMatch_only (.inr ⟨rfl, sink⟩))] at ends
  exact ends

end cells

section expected

variable {v : State} {ps : List Post} {n : SlotIx} {d : DataFields} {stamp : Time} {r : Rec}

/-- A cell that fits and whose samples can be written is taken; the last one completes the block or the stream. -/
theorem expectedCell_writes (fits : Fits (v.slot n) d) (found : findRec (v.slot n) (v.slot n).expBlock = some r)
    (writable : Writable v.mem (r.buffer.toNat + cellOffset d.index) d.samples.length) :
    ∃ m, Stored v.mem m (r.buffer.toNat + cellOffset d.index) d.samples ∧
      let w : State := { setSlot v n (cellTaken d stamp (v.slot n)) with mem := m }
      let b := (v.slot n).expBlock
      (d.last = false → expectedCell ⟨v, ps⟩ n d stamp = ⟨w, ps⟩) ∧
      (d.last = true → blockLength (v.slot n) d ≠ 0 →
        expectedCell ⟨v, ps⟩ n d stamp = closeIfDrained (sinkComplete ⟨w, ps⟩ n b .delivered) n) ∧
      (d.last = true → blockLength (v.slot n) d = 0 →
        expectedCell ⟨v, ps⟩ n d stamp = closeSlot (sinkComplete ⟨w, ps⟩ n b .ended) n .ended false) := by
  obtain ⟨m, stored, written⟩ := writeHost_stored writable
  have taken := expectedCell_taken (ps := ps) (stamp := stamp) fits found written
  refine ⟨m, stored, fun more => ?_, fun last block => ?_, fun last endBlock => ?_⟩
  · exact taken.trans (if_neg (by rw [more]; decide))
  · exact (taken.trans (if_pos last)).trans (if_neg block)
  · exact (taken.trans (if_pos last)).trans (if_pos endBlock)

end expected

/-- Settles O57, from one lemma for each case of R152 and R153. -/
theorem dataCell : Obligations.DataCell := by
  unfold Obligations.DataCell
  refine ⟨fun b d => (parseData_iff b d).trans (dataForm_iff b d), fun rx s => acts_data_unfit,
    fun rx s d arrives dest fits => ?judged, fun v ps n b d stamp => ?assembled, fun v ps n d stamp => ?expected,
    fun a m => ⟨rfl, fun k => rfl⟩, sinkDamaged_eq, sinkComplete_eq, fun y c o => finishRec_eq c o y, fun a m => rfl⟩
  case judged =>
    intro u b
    refine ⟨acts_data_unmatched arrives dest fits, fun n sink => ?_⟩
    have ends := ends_data_matched arrives dest fits sink
    intro x count isOlder
    exact ⟨fun stale => ends_as (sinkData_stale (v := u) stale) ends,
      fun fresh beyond => ends_as (sinkData_beyond (v := u) fresh beyond) ends, fun fresh credit =>
      ⟨fun plain => ends_as (sinkData_plain (v := u) fresh credit plain) ends,
        fun first halted => ends_as (sinkData_clears (v := u) fresh credit first halted) ends⟩⟩
  case assembled => exact ⟨assembleData_heldOff, assembleData_expected, assembleData_gap⟩
  case expected =>
    intro x b length offset carried fits t
    exact ⟨expectedCell_unfit, fun r fits' found writable => expectedCell_writes fits' found writable,
      fun r e fits' found fault => expectedCell_fault fits' found fault⟩

end Sys2Proof.DataActs

/-! SUPPORT. OPEN_STREAM (R120 to R122) (O53). -/

namespace Sys2Proof.OpenActs

open Sys2Proof Sys2Proof.Machine Sys2Proof.Statements Sys2Proof.PortUnits Sys2Proof.PortQueues Sys2Proof.OrderWindow
  Sys2Proof.MasterChoice Sys2Proof.StreamSlots Sys2Proof.StreamHandshakes

/-! ## The parameters -/

theorem slotOf_val {v : Nat} {n : SlotIx} (value : v = n.val) : slotOf v = n := by
  rw [value]
  exact Fin.ext (Nat.mod_eq_of_lt n.isLt)

theorem laneOf_val {v : Nat} {k : LaneIx} (value : v = k.val) : laneOf v = k := by
  rw [value]
  exact Fin.ext (Nat.mod_eq_of_lt k.isLt)

theorem opensSource_iff (o : Order) : opensSource o = true ↔ openRole o = 0 := beq_iff_eq

/-- The index of the first test that fails. -/
def firstBad (tests : List (Bool × Nat)) : Option Nat := (tests.find? (fun t => !t.1)).map (·.2)

theorem firstBad_cons {good bad : Prop} [Decidable good] [Decidable bad] (tells : bad ↔ ¬ good) (i : Nat)
    (tests : List (Bool × Nat)) : firstBad ((decide good, i) :: tests) = if bad then some i else firstBad tests := by
  unfold firstBad
  by_cases fails : bad
  · rw [if_pos fails, decide_eq_false (tells.1 fails)]
    rfl
  · rw [if_neg fails, decide_eq_true (Classical.not_not.1 (mt tells.2 fails))]
    rfl

/-- The tests of the parameters, in their order (R120). -/
def parameterTests (s : State) (o : Order) : List (Bool × Nat) :=
  let source := openRole o = 0
  let sizes := 256 ≤ openBlockSize o ∧ openBlockSize o ≤ 65536 ∧ openBlockSize o % 256 = 0
  [(decide (openSlot o ≤ 63), 0), (decide (openRole o ≤ 1), 1),
    (decide (1 ≤ openPeer o ∧ openPeer o ≤ 31 ∧ openPeer o ≠ s.own.val), 2), (decide sizes, 4),
    (decide (source → openPace o = 0 ∨ 10000 ≤ openPace o ∧ openPace o ≤ 1000000000), 5),
    (decide (source → openGateKind o ≤ 2), 6), (decide (source → openGateKind o = 2 → openGateValue o ≤ 15), 7),
    (decide (1 ≤ openInterval o ∧ openInterval o ≤ 64), 8), (decide (openChain o ≠ 0), 10)]

theorem openBadParameter_eq (s : State) (o : Order) : openBadParameter s o = firstBad (parameterTests s o) := by
  have sizes : blockSizeOk (openBlockSize o) = false ↔
      ¬ (256 ≤ openBlockSize o ∧ openBlockSize o ≤ 65536 ∧ openBlockSize o % 256 = 0) := by
    rw [← Bool.not_eq_true, blockSizeOk_iff]
  have pace : opensSource o = true ∧ paceOk (openPace o) = false ↔
      ¬ (openRole o = 0 → openPace o = 0 ∨ 10000 ≤ openPace o ∧ openPace o ≤ 1000000000) := by
    rw [opensSource_iff, ← Bool.not_eq_true, paceOk_iff, Classical.not_imp]
  have kind : opensSource o = true ∧ 2 < openGateKind o ↔ ¬ (openRole o = 0 → openGateKind o ≤ 2) := by
    rw [opensSource_iff, Classical.not_imp, Nat.not_le]
  have lane : opensSource o = true ∧ openGateKind o = 2 ∧ 15 < openGateValue o ↔
      ¬ (openRole o = 0 → openGateKind o = 2 → openGateValue o ≤ 15) := by
    rw [opensSource_iff, Classical.not_imp, Classical.not_imp, Nat.not_le]
  unfold openBadParameter parameterTests
  dsimp only
  rw [firstBad_cons Nat.not_le.symm, firstBad_cons Nat.not_le.symm,
    firstBad_cons (bad := openPeer o = 0 ∨ 31 < openPeer o ∨ openPeer o = s.own.val) (by omega), firstBad_cons sizes,
    firstBad_cons pace, firstBad_cons kind, firstBad_cons lane,
    firstBad_cons (bad := openInterval o = 0 ∨ 64 < openInterval o) (by omega),
    firstBad_cons (bad := openChain o = 0) Classical.not_not.symm]
  rfl

/-- The start gate of an order, by its kind and value. -/
theorem gateOf_eq (o : Order) : (openGateKind o = 0 → gateOf o = .now) ∧
    (openGateKind o = 1 → gateOf o = .atTime (BitVec.ofNat 64 (openGateValue o))) ∧
    ∀ k : LaneIx, openGateKind o = 2 → openGateValue o = k.val → gateOf o = .onLane k := by
  unfold gateOf
  refine ⟨fun now => ?_, fun time => if_pos time, fun k onLane value => ?_⟩
  · rw [now, if_neg (by decide), if_neg (by decide)]
  · rw [onLane, if_neg (by decide), if_pos rfl, laneOf_val value]

/-! ## The checks -/

section checks

variable {s : State} {o : Order} {n : SlotIx} (slot : openSlot o = n.val)

/-- Another slot that is not CLOSED has the identity the order asks for. -/
def InUse (s : State) (o : Order) (n : SlotIx) : Prop :=
  ∃ m, m ≠ n ∧ (s.slot m).state ≠ .closed ∧ (s.slot m).tag.toNat = openTag o ∧
    (if openRole o = 0 then (s.slot m).role = .source else (s.slot m).role = .sink ∧ (s.slot m).peer.val = openPeer o)

include slot

theorem identityInUse_iff : identityInUse s o = true ↔ InUse s o n := by
  have kind (m : SlotIx) : (if opensSource o = true then (s.slot m).role == .source
      else (s.slot m).role == .sink && (s.slot m).peer.val == openPeer o) = true ↔
      (if openRole o = 0 then (s.slot m).role = .source
        else (s.slot m).role = .sink ∧ (s.slot m).peer.val = openPeer o) := by
    by_cases source : openRole o = 0
    · rw [if_pos source, if_pos ((opensSource_iff o).2 source), beq_iff_eq]
    · rw [if_neg source, if_neg (mt (opensSource_iff o).1 source), Bool.and_eq_true, beq_iff_eq, beq_iff_eq]
  unfold identityInUse InUse
  rw [List.any_eq_true, slotOf_val slot]
  simp only [Bool.and_eq_true, bne_iff_ne, beq_iff_eq, kind, and_assoc]
  exact exists_congr fun m => and_iff_right (mem_allSlots m)

theorem openCheck_busy (busy : (s.slot n).state ≠ .closed) : openCheck s o = some .slotBusy := by
  rw [← slotOf_val slot] at busy
  exact if_pos busy

variable (closed : (s.slot n).state = .closed)

include closed

theorem openCheck_closed : openCheck s o = if identityInUse s o = true then some .inUse
    else if s.roster.standing ≠ .member then some .notMember
    else if opensSource o = true ∧ (copyMember s (frameOf (openPeer o)) = false ∨
      (s.route (frameOf (openPeer o))).isNone = true) then some .unreachable else none := by
  rw [← slotOf_val slot] at closed
  exact if_neg (not_not_intro closed)

theorem openCheck_inUse (inUse : InUse s o n) : openCheck s o = some .inUse :=
  (openCheck_closed slot closed).trans (if_pos ((identityInUse_iff slot).2 inUse))

variable (unused : ¬ InUse s o n)

include unused

theorem openCheck_notMember (outside : s.roster.standing ≠ .member) : openCheck s o = some .notMember :=
  (openCheck_closed slot closed).trans
    ((if_neg fun h => unused ((identityInUse_iff slot).1 h)).trans (if_pos outside))

variable (inside : s.roster.standing = .member)

include inside

theorem openCheck_member : openCheck s o = if opensSource o = true ∧ (copyMember s (frameOf (openPeer o)) = false ∨
    (s.route (frameOf (openPeer o))).isNone = true) then some .unreachable else none :=
  (openCheck_closed slot closed).trans
    ((if_neg fun h => unused ((identityInUse_iff slot).1 h)).trans (if_neg (not_not_intro inside)))

theorem openCheck_unreachable (source : openRole o = 0)
    (unreachable : ¬ ((s.entry (frameOf (openPeer o))).state = .member ∧ (s.route (frameOf (openPeer o))).isSome = true)) :
    openCheck s o = some .unreachable := by
  refine (openCheck_member slot closed unused inside).trans (if_pos ⟨(opensSource_iff o).2 source, ?_⟩)
  rw [Classical.not_and_iff_not_or_not, ← copyMember_iff, Bool.not_eq_true, Bool.not_eq_true, Option.isSome_eq_false_iff] at unreachable
  exact unreachable

theorem openCheck_sink (sink : openRole o ≠ 0) : openCheck s o = none :=
  (openCheck_member slot closed unused inside).trans (if_neg fun h => sink ((opensSource_iff o).1 h.1))

theorem openCheck_source (entry : (s.entry (frameOf (openPeer o))).state = .member)
    (route : (s.route (frameOf (openPeer o))).isSome = true) : openCheck s o = none := by
  refine (openCheck_member slot closed unused inside).trans (if_neg ?_)
  rintro ⟨-, outside | unknown⟩
  · exact Bool.false_ne_true (outside.symm.trans (copyMember_iff.2 entry))
  · rw [Option.isNone_iff_eq_none.1 unknown] at route
    cases route

end checks

/-! ## The order -/

section order

variable {s : State} {o : Order} {n : SlotIx}

theorem openOrder_bad {i : Nat} (bad : openBadParameter s o = some i) :
    openOrder ⟨s, []⟩ o = complete ⟨s, []⟩ o.sequence .badOrder i := by
  unfold Machine.openOrder
  dsimp only
  rw [bad]
  rfl

theorem openOrder_refused {r : Outcome} (good : openBadParameter s o = none) (refused : openCheck s o = some r) :
    openOrder ⟨s, []⟩ o = complete ⟨s, []⟩ o.sequence r := by
  unfold Machine.openOrder
  dsimp only
  rw [good, refused]

theorem openOrder_sink (good : openBadParameter s o = none) (passes : openCheck s o = none) (sink : openRole o ≠ 0)
    (slot : openSlot o = n.val) : openOrder ⟨s, []⟩ o = complete ⟨setSlot s n { opened o (s.slot n) false with
      state := .offered, cause := .offered, lateness := openLateness o, openAbsent := true }, slotReport n⟩
      o.sequence .done := by
  have notSource : opensSource o = false := Bool.eq_false_iff.2 fun h => sink ((opensSource_iff o).1 h)
  have fields : openedSlot o (s.slot n) = { opened o (s.slot n) false with lateness := openLateness o } := by
    unfold openedSlot
    rw [notSource]
    rfl
  unfold Machine.openOrder openSink Act.on
  dsimp only
  rw [good, passes, notSource, slotOf_val slot, modSlot_eq_setSlot, setSlotState_setSlot, fields]
  rfl

theorem openOrder_source (good : openBadParameter s o = none) (passes : openCheck s o = none) (source : openRole o = 0)
    (slot : openSlot o = n.val) : openOrder ⟨s, []⟩ o = ⟨sendOpen (setSlot (held s o) n { opened o (s.slot n) true with
      state := .opening, cause := .opening, openNumber := (s.slot n).openNumber + 1, pace := openPace o
      gate := gateOf o, openOrder := some o.sequence, openSince := s.now, lastOpen := s.now }) n, slotReport n⟩ := by
  have isSource : opensSource o = true := (opensSource_iff o).2 source
  have fields : openedSlot o (s.slot n) = { opened o (s.slot n) true with pace := openPace o, gate := gateOf o } := by
    unfold openedSlot
    rw [isSource]
    rfl
  have opening : openingSlot s.now o (s.slot n) = { opened o (s.slot n) true with
      pace := openPace o, gate := gateOf o, openNumber := (s.slot n).openNumber + 1, openOrder := some o.sequence
      openSince := s.now, lastOpen := s.now } := by
    unfold openingSlot
    rw [fields]
  have begins : (holdOrder s o.sequence).modSlot n (openingSlot s.now o) =
      setSlot (held s o) n (openingSlot s.now o (s.slot n)) := modSlot_eq_setSlot ..
  unfold Machine.openOrder openSource Act.on
  dsimp only
  rw [good, passes, isSource, slotOf_val slot, begins, setSlotState_setSlot, opening]
  rfl

end order

/-- Settles O53, from one lemma for each check of R120 and for each kind of slot that opens. -/
theorem openStream : Obligations.OpenStream := by
  unfold Obligations.OpenStream
  refine ⟨fun n small => Nat.mod_eq_of_lt small, gateOf_eq, fun s o oldest => ?_⟩
  intro source sizes tests bad peer inUse
  have bad_eq : openBadParameter s o = bad := openBadParameter_eq s o
  have ends {a : Act} (act : openOrder ⟨s, []⟩ o = a) : Ends .openStream s a := ends_order rfl oldest act
  refine ⟨fun i isBad => ends (openOrder_bad (bad_eq.trans isBad)), fun n good slot => ?_⟩
  have fits : openBadParameter s o = none := bad_eq.trans good
  refine ⟨fun busy => ends (openOrder_refused fits (openCheck_busy slot busy)),
    fun closed used => ends (openOrder_refused fits (openCheck_inUse slot closed used)), fun closed unused =>
    ⟨fun outside => ends (openOrder_refused fits (openCheck_notMember slot closed unused outside)), fun inside =>
      ⟨fun isSource away => ends (openOrder_refused fits (openCheck_unreachable slot closed unused inside isSource away)),
        fun isSink => ends (openOrder_sink fits (openCheck_sink slot closed unused inside isSink) isSink slot),
        fun isSource entry route =>
          ends (openOrder_source fits (openCheck_source slot closed unused inside entry route) isSource slot)⟩⟩⟩

end Sys2Proof.OpenActs

/-! SUPPORT. The close of a slot (R141): what a completion leaves of the slots, the records it completes, and the slot's
own orders. -/

namespace Sys2Proof.SlotCloses

open Sys2Proof Sys2Proof.Machine Sys2Proof.Statements Sys2Proof.PortQueues Sys2Proof.Delivery Sys2Proof.ExchangeEvents
  Sys2Proof.StreamSlots Sys2Proof.StreamSlotTimers Sys2Proof.BlockRecords Sys2Proof.Completions Sys2Proof.BlockActs

/-! ## A completion of an order changes the exchange alone -/

theorem slot_of_only {u t : State} (only : OnlyExchange u t) (m : SlotIx) : t.slot m = u.slot m :=
  (congrArg (State.slot · m) only :)

theorem writeMark_only (a : Act) (m : BitVec 32) : OnlyExchange a.s (writeMark a m).s := by
  unfold writeMark
  split
  · split
    · next written => exact writeHost_only written
    · exact .refl a.s
  · exact .refl a.s

theorem judgeMark_only (a : Act) : OnlyExchange a.s (judgeMark a).s := by
  unfold judgeMark
  split
  · split
    · exact (modEx_only a.s _).trans (writeMark_only _ _)
    · exact .refl a.s
  · exact .refl a.s

theorem writeCompletion_only (a : Act) (o : Order) (c : Completion) : OnlyExchange a.s (writeCompletion a o c).s := by
  have runs := writeRuns_only (completionRuns o.address.toNat c) a.s
  unfold writeCompletion
  split
  · next written =>
    rw [written] at runs
    exact (runs.trans (modEx_only _ _)).trans (judgeMark_only _)
  · next faulted =>
    rw [faulted] at runs
    exact runs.trans ((modEx_only _ _).trans (modEx_only _ _))

theorem complete_only (a : Act) (q : BitVec 32) (r : Outcome) (d : Nat) (b : List Byte) :
    OnlyExchange a.s (complete a q r d b).s := by
  unfold complete
  split
  · exact .refl a.s
  · exact writeCompletion_only ..

theorem slot_complete (a : Act) (q : BitVec 32) (r : Outcome) (d : Nat) (b : List Byte) (m : SlotIx) :
    (complete a q r d b).s.slot m = a.s.slot m := slot_of_only (complete_only a q r d b) m

/-! ## The records of a closing slot -/

/-- An act that keeps a slot's state and cause, and every other slot. -/
structure KeepsStates (n : SlotIx) (u t : State) : Prop where
  state : (t.slot n).state = (u.slot n).state
  cause : (t.slot n).cause = (u.slot n).cause
  others : ∀ m, m ≠ n → t.slot m = u.slot m

theorem KeepsStates.refl (n : SlotIx) (u : State) : KeepsStates n u u := ⟨rfl, rfl, fun _ _ => rfl⟩

theorem KeepsStates.trans {n : SlotIx} {u v w : State} (h : KeepsStates n u v) (k : KeepsStates n v w) :
    KeepsStates n u w :=
  ⟨k.state.trans h.state, k.cause.trans h.cause, fun m other => (k.others m other).trans (h.others m other)⟩

theorem keepsStates_of_only {u t : State} (only : OnlyExchange u t) (n : SlotIx) : KeepsStates n u t :=
  ⟨congrArg Slot.state (slot_of_only only n), congrArg Slot.cause (slot_of_only only n), fun m _ => slot_of_only only m⟩

theorem keepsStates_modSlot {u : State} {n : SlotIx} {f : Slot → Slot} (state : (f (u.slot n)).state = (u.slot n).state)
    (cause : (f (u.slot n)).cause = (u.slot n).cause) : KeepsStates n u (u.modSlot n f) := by
  refine ⟨?_, ?_, fun m other => (slot_modSlot u n m f).trans (if_neg other)⟩
  · rw [slot_modSlot_same]
    exact state
  · rw [slot_modSlot_same]
    exact cause

theorem writeRec_only (s : State) (n : SlotIx) (o : BlockOutcome) (r : Rec) : OnlyExchange s (writeRec s n o r).1 := by
  unfold writeRec
  split
  · exact .refl s
  · exact writeRuns_only _ s

theorem recDone_state (o : BlockOutcome) (r : Rec) (x : Slot) : (recDone o r x).state = x.state := by
  unfold recDone
  dsimp only
  split <;> rfl

theorem recDone_cause (o : BlockOutcome) (r : Rec) (x : Slot) : (recDone o r x).cause = x.cause := by
  unfold recDone
  dsimp only
  split <;> rfl

theorem completeAll_keepsStates (n : SlotIx) (k : Nat) : ∀ a : Act, KeepsStates n a.s (completeAll n k a).s := by
  induction k with
  | zero => exact fun a => .refl n a.s
  | succ k ih =>
    intro a
    unfold completeAll
    split
    · exact .refl n a.s
    · next r _ _ =>
      have only := writeRec_only a.s n (r.outcome.getD .discarded) r
      dsimp only
      split
      · next faulted =>
        rw [faulted] at only
        exact (keepsStates_of_only only n).trans (keepsStates_modSlot rfl rfl)
      · next written =>
        rw [written] at only
        refine KeepsStates.trans ?_ (ih _)
        exact (keepsStates_of_only only n).trans (keepsStates_modSlot (recDone_state ..) (recDone_cause ..))

/-! ## The close -/

section close

variable (s : State) (ps : List Post) (n : SlotIx) (cause : StreamCause) (sends : Bool) (outcome : Outcome)

/-- The slot that a close leaves, its records complete. -/
def leftClosed (x : Slot) : Slot := { x with
  strandDeadline := none, closeDeadline := none, drainMode := none, fetched := [], endBlock := none
  nextRecord := none, stop := none, fetchEnded := true, writeStop := false, sending := none, offer := none
  sinceNotice := 0 }

/-- The act of a close, its records complete. -/
def recordsClosed : Act :=
  completeAll n (s.slot n).fetched.length (movedSlot s ps n (cutBlock s.now (s.slot n)) .closed cause)

theorem cutBlock_length (now : Nat) (x : Slot) : (cutBlock now x).fetched.length = x.fetched.length := by
  unfold cutBlock
  split
  · rfl
  · exact List.length_map _

theorem closeSlot_eq :
    let a := recordsClosed s ps n cause
    let v := setSlot a.s n (leftClosed (a.s.slot n))
    closeSlot ⟨s, ps⟩ n cause sends outcome = completeSlotOrders
      ⟨if sends = true ∧ (s.slot n).state ≠ .offered then sendClose v n .abort else v, a.posts⟩ n outcome cause := by
  intro a v
  have moved : setSlotState ⟨cutOff s n, ps⟩ n .closed cause = movedSlot s ps n (cutBlock s.now (s.slot n)) .closed cause := by
    rw [cutOff_eq_setSlot, setSlotState_setSlot]
  have list : ((movedSlot s ps n (cutBlock s.now (s.slot n)) .closed cause).s.slot n).fetched.length =
      (s.slot n).fetched.length := by
    rw [movedSlot, slot_setSlot]
    exact cutBlock_length ..
  have v_eq : a.s.modSlot n (fun x => { dropRunning x with sinceNotice := 0 }) = v := modSlot_eq_setSlot ..
  unfold closeSlot Act.on
  dsimp only
  rw [moved, list]
  show completeSlotOrders (if (sends && (s.slot n).state != .offered) = true then
    ⟨sendClose (a.s.modSlot n fun x => { dropRunning x with sinceNotice := 0 }) n .abort, a.posts⟩
    else ⟨a.s.modSlot n fun x => { dropRunning x with sinceNotice := 0 }, a.posts⟩) n outcome cause = _
  rw [v_eq]
  simp only [Bool.and_eq_true, bne_iff_ne]
  split <;> rfl

theorem sendClose_unknown {reason : CloseReason} (unknown : s.route (s.slot n).peer = none) :
    sendClose s n reason = setSlot s n (unsent (s.slot n)) :=
  sendSlotCell_unknown unknown

theorem sendClose_route {reason : CloseReason} {r : Route} (route : s.route (s.slot n).peer = some r) :
    sendClose s n reason = offer s r.port ⟨ownCell s .close (s.slot n).peer.val
      (closePayload (s.slot n).tag (s.slot n).openNumber (if (s.slot n).role = .source then 0 else 1) reason), none⟩ :=
  sendSlotCell_route route

theorem completeSlotOrders_eq :
    let x := s.slot n
    let a : Act := ⟨setSlot s n { x with openOrder := none, finishOrder := none }, ps⟩
    let b := x.openOrder.elim a (fun q => complete a q outcome)
    completeSlotOrders ⟨s, ps⟩ n outcome cause = x.finishOrder.elim b (fun q =>
      complete b q outcome 0 (if outcome = .done ∨ outcome = .unconfirmed then leBytes 1 (streamCauseCode cause) else [])) := by
  intro x a b
  have a_eq : (⟨s.modSlot n (fun x => { x with openOrder := none, finishOrder := none }), ps⟩ : Act) = a :=
    congrArg (Act.mk · ps) (modSlot_eq_setSlot ..)
  have b_eq : (match x.openOrder with | some q => complete a q outcome | none => a) = b := by
    show _ = x.openOrder.elim a (fun q => complete a q outcome)
    cases x.openOrder <;> rfl
  unfold completeSlotOrders Act.on
  dsimp only
  rw [a_eq]
  show (match x.finishOrder with
    | some q => complete (match x.openOrder with | some q => complete a q outcome | none => a) q outcome 0 _
    | none => match x.openOrder with | some q => complete a q outcome | none => a) = _
  rw [b_eq]
  cases x.finishOrder <;> rfl

/-- The slots once a closing slot's orders complete. -/
theorem slot_completeSlotOrders (m : SlotIx) : (completeSlotOrders ⟨s, ps⟩ n outcome cause).s.slot m =
    if m = n then { s.slot n with openOrder := none, finishOrder := none } else s.slot m := by
  have base : (setSlot s n { s.slot n with openOrder := none, finishOrder := none }).slot m =
      if m = n then { s.slot n with openOrder := none, finishOrder := none } else s.slot m := slot_modSlot ..
  rw [completeSlotOrders_eq]
  dsimp only
  cases (s.slot n).finishOrder <;> cases (s.slot n).openOrder <;>
    simp only [Option.elim_none, Option.elim_some, slot_complete, base]

end close

/-- A CLOSE sent changes of the slots at most the count of cells UNSENT. -/
theorem slot_sendClose (s : State) (n m : SlotIx) (reason : CloseReason) :
    (sendClose s n reason).slot m = s.slot m ∨ (m = n ∧ (sendClose s n reason).slot m = unsent (s.slot n)) := by
  cases route : s.route (s.slot n).peer with
  | some r =>
    rw [sendClose_route s n route]
    exact .inl rfl
  | none =>
    rw [sendClose_unknown s n route]
    by_cases own : m = n
    · subst own
      exact .inr ⟨rfl, slot_setSlot ..⟩
    · exact .inl (slot_setSlot_other own)

end Sys2Proof.SlotCloses

/-! SUPPORT. What a close leaves (R141), the settled state (R125, R126), the ways a slot drains (R136 to R138), and what
a RESUME_STREAM lets go on (R157, R158). -/

namespace Sys2Proof.SlotStates

open Sys2Proof Sys2Proof.Machine Sys2Proof.Statements Sys2Proof.PortQueues Sys2Proof.TriggerActs Sys2Proof.StreamSlots
  Sys2Proof.StreamSlotTimers Sys2Proof.BlockRecords Sys2Proof.DataCells Sys2Proof.SlotCloses

/-! ## What a close leaves -/

/-- The slot is CLOSED with a cause and holds nothing. -/
def Emptied (cause : StreamCause) (x : Slot) : Prop :=
  x.state = .closed ∧ x.cause = cause ∧ x.fetched = [] ∧ x.endBlock = none ∧ x.sending = none ∧ x.offer = none ∧
    x.strandDeadline = none ∧ x.closeDeadline = none

section close

variable (s : State) (ps : List Post) (n : SlotIx) (cause : StreamCause) (sends : Bool) (outcome : Outcome)

/-- The state of a close before the slot's orders complete. -/
def closeSent : State :=
  let a := recordsClosed s ps n cause
  let v := setSlot a.s n (leftClosed (a.s.slot n))
  if sends = true ∧ (s.slot n).state ≠ .offered then sendClose v n .abort else v

theorem recordsClosed_keepsStates :
    KeepsStates n (movedSlot s ps n (cutBlock s.now (s.slot n)) .closed cause).s (recordsClosed s ps n cause).s :=
  completeAll_keepsStates n _ _

theorem closeSent_emptied : Emptied cause ((closeSent s ps n cause sends).slot n) := by
  have kept := recordsClosed_keepsStates s ps n cause
  have moved := slot_setSlot s n
    { cutBlock s.now (s.slot n) with state := .closed, cause := cause, sinceNotice := 0 }
  have left : Emptied cause (leftClosed ((recordsClosed s ps n cause).s.slot n)) :=
    ⟨kept.state.trans (congrArg Slot.state moved), kept.cause.trans (congrArg Slot.cause moved), rfl, rfl, rfl, rfl, rfl, rfl⟩
  have v_slot := slot_setSlot (recordsClosed s ps n cause).s n (leftClosed ((recordsClosed s ps n cause).s.slot n))
  unfold closeSent
  dsimp only
  split
  · rcases slot_sendClose (setSlot (recordsClosed s ps n cause).s n _) n n .abort with same | ⟨-, counted⟩
    · rw [same, v_slot]
      exact left
    · rw [counted, v_slot]
      exact left
  · rw [v_slot]
    exact left

theorem closeSent_others {m : SlotIx} (other : m ≠ n) : (closeSent s ps n cause sends).slot m = s.slot m := by
  have kept := (recordsClosed_keepsStates s ps n cause).others m other
  have v_slot : (setSlot (recordsClosed s ps n cause).s n (leftClosed ((recordsClosed s ps n cause).s.slot n))).slot m =
      s.slot m := (slot_setSlot_other other).trans (kept.trans (slot_setSlot_other other))
  unfold closeSent
  dsimp only
  split
  · rcases slot_sendClose (setSlot (recordsClosed s ps n cause).s n _) n m .abort with same | ⟨own, -⟩
    · rw [same, v_slot]
    · exact absurd own other
  · exact v_slot

theorem closeSlot_slot (m : SlotIx) : (closeSlot ⟨s, ps⟩ n cause sends outcome).s.slot m =
    if m = n then { (closeSent s ps n cause sends).slot n with openOrder := none, finishOrder := none }
    else (closeSent s ps n cause sends).slot m := by
  rw [closeSlot_eq]
  exact slot_completeSlotOrders ..

theorem closeSlot_leaves :
    let x := (closeSlot ⟨s, ps⟩ n cause sends outcome).s.slot n
    x.state = .closed ∧ x.cause = cause ∧ x.fetched = [] ∧ x.endBlock = none ∧ x.sending = none ∧ x.offer = none ∧
    x.strandDeadline = none ∧ x.closeDeadline = none ∧ x.openOrder = none ∧ x.finishOrder = none ∧
    ∀ m, m ≠ n → (closeSlot ⟨s, ps⟩ n cause sends outcome).s.slot m = s.slot m := by
  intro x
  have x_eq : x = _ := (closeSlot_slot s ps n cause sends outcome n).trans (if_pos rfl)
  obtain ⟨state, cause_eq, fetched, endBlock, sending, offer, strand, close⟩ := closeSent_emptied s ps n cause sends
  rw [x_eq]
  exact ⟨state, cause_eq, fetched, endBlock, sending, offer, strand, close, rfl, rfl, fun m other =>
    (closeSlot_slot s ps n cause sends outcome m).trans ((if_neg other).trans (closeSent_others s ps n cause sends other))⟩

end close

/-! ## The settled state -/

/-- A slot takes the state that a judged form of it calls for. -/
def Takes (s : State) (ps : List Post) (n : SlotIx) (cause : StreamCause) (y : Slot) : Prop :=
  takeSettled ⟨s, ps⟩ n cause = movedSlot s ps n y (settledState s y) cause ∧
    (isSettling (s.slot n).state = false → settle ⟨s, ps⟩ n cause = ⟨s, ps⟩) ∧
    (isSettling (s.slot n).state = true → settledState s y = (s.slot n).state →
      settle ⟨s, ps⟩ n cause = ⟨setSlot s n y, ps⟩) ∧
    (isSettling (s.slot n).state = true → settledState s y ≠ (s.slot n).state →
      settle ⟨s, ps⟩ n cause = movedSlot s ps n y (settledState s y) cause)

theorem takes_judged (s : State) (ps : List Post) (n : SlotIx) (cause : StreamCause) :
    Takes s ps n cause (judgedSlot s (s.slot n)) := by
  have settles := settle_eq s ps n cause
  refine ⟨takeSettled_eq s ps n cause, fun passing => ?_, fun settling same => ?_, fun settling other => ?_⟩
  · exact settles.trans (if_neg (by rw [passing]; decide))
  · exact settles.trans ((if_pos settling).trans (if_pos same))
  · exact settles.trans ((if_pos settling).trans (if_neg other))

section gate

variable {s : State} {x : Slot}

/-- The slot's gate is judged. -/
def Judged (x : Slot) : Prop := x.role = .source ∧ x.gateOpen = false ∧ x.selfHalt = false ∧ x.peerHalt = false

theorem judgedSlot_not (not : ¬ Judged x) : judgedSlot s x = x := if_neg not

variable (judged : Judged x)

include judged

theorem judgedSlot_due : judgedSlot s x = (gateDue s x).elim x (fun t => openGate t x) := if_pos judged

theorem judgedSlot_now (gate : x.gate = .now) : judgedSlot s x = openGate s.tb.rackTime x := by
  rw [judgedSlot_due judged, gateDue, gate]
  rfl

theorem judgedSlot_reached {t : Time} (gate : x.gate = .atTime t) (there : t.toNat ≤ s.tb.rackTime.toNat) :
    judgedSlot s x = openGate t x := by
  have due : reached s t = true := decide_eq_true there
  rw [judgedSlot_due judged, gateDue, gate]
  dsimp only
  rw [if_pos due]
  rfl

theorem judgedSlot_early {t : Time} (gate : x.gate = .atTime t) (early : s.tb.rackTime.toNat < t.toNat) :
    judgedSlot s x = x := by
  have waits : ¬ reached s t = true := fun there => absurd (of_decide_eq_true there) (Nat.not_le.2 early)
  rw [judgedSlot_due judged, gateDue, gate]
  dsimp only
  rw [if_neg waits]
  rfl

theorem judgedSlot_lane {k : LaneIx} (gate : x.gate = .onLane k) : judgedSlot s x = x := by
  rw [judgedSlot_due judged, gateDue, gate]
  rfl

end gate

theorem settledState_source {s : State} {x : Slot} (source : x.role = .source) :
    let halts := x.selfHalt = true ∨ x.peerHalt = true
    let sync := s.tb.state ≠ .free ∧ s.tb.state ≠ .acquiring
    (halts → settledState s x = .halted) ∧
    (¬ halts → x.gateOpen = false → settledState s x = .armed) ∧
    (¬ halts → x.gateOpen = true → x.pace ≠ 0 → ¬ sync → settledState s x = .timeheld) ∧
    (¬ halts → x.gateOpen = true → x.pace = 0 ∨ sync → settledState s x = .flowing) := by
  intro halts sync
  have halts_iff : (x.selfHalt || x.peerHalt) = true ↔ halts := Iff.of_eq (Bool.or_eq_true ..)
  have free : noSync s = true ↔ ¬ sync := by rw [noSync_iff, Classical.not_and_iff_not_or_not, Classical.not_not, Classical.not_not]
  have settled : settledState s x = if (x.selfHalt || x.peerHalt) = true then .halted
      else if x.gateOpen = false then .armed else if x.pace ≠ 0 ∧ noSync s = true then .timeheld else .flowing := by
    unfold settledState
    rw [source]
  rw [settled]
  refine ⟨fun h => if_pos (halts_iff.2 h), fun h closed => ?_, fun h gate paced unsynced => ?_, fun h gate runs => ?_⟩
  · rw [if_neg (mt halts_iff.1 h), if_pos closed]
  · rw [if_neg (mt halts_iff.1 h), if_neg (by rw [gate]; decide), if_pos ⟨paced, free.2 unsynced⟩]
  · rw [if_neg (mt halts_iff.1 h), if_neg (by rw [gate]; decide), if_neg]
    rintro ⟨paced, unsynced⟩
    exact runs.elim paced (free.1 unsynced)

theorem settledState_sink {s : State} {x : Slot} (sink : x.role = .sink) :
    let halts := x.selfHalt = true ∨ x.peerHalt = true
    (halts ∨ x.drain = true → settledState s x = .halted) ∧ (¬ halts → x.drain = false → settledState s x = .flowing) := by
  intro halts
  have stops : (x.selfHalt || x.peerHalt || x.drain) = true ↔ halts ∨ x.drain = true := by
    rw [Bool.or_eq_true, Bool.or_eq_true]
  have settled : settledState s x = if (x.selfHalt || x.peerHalt || x.drain) = true then .halted else .flowing := by
    unfold settledState
    rw [sink]
  rw [settled]
  refine ⟨fun h => if_pos (stops.2 h), fun h flows => if_neg fun stopped => ?_⟩
  rcases stops.1 stopped with halted | drains
  · exact h halted
  · exact Bool.false_ne_true (flows.symm.trans drains)

/-! ## Draining -/

section drain

variable (s : State) (ps : List Post) (n : SlotIx)

theorem drainFinish_eq :
    let x := s.slot n
    let y : Slot := if x.state = .armed then { x with gateOpen := true, startTime := s.tb.rackTime, nextPace := 0 } else x
    let a := movedSlot s ps n { y with
      strandDeadline := none, closeDeadline := some (s.now + 1000000000), drainMode := some .finish } .draining .finish
    drainFinish ⟨s, ps⟩ n = if x.stop = some .notPosted ∨ x.stop = some .tail then retryStop a n else a := by
  intro x y a
  have y_stop : y.stop = x.stop := by
    show (if x.state = .armed then _ else x).stop = _
    split <;> rfl
  have a_stop : (a.s.slot n).stop = x.stop := by
    rw [← y_stop]
    exact (congrArg Slot.stop (slot_setSlot s n _) :)
  have moved : setSlotState ⟨s.modSlot n (fun x =>
      { (if x.state = .armed then openGate s.tb.rackTime x else x) with
        strandDeadline := none, closeDeadline := some (s.now + closeTime), drainMode := some .finish }), ps⟩ n .draining
        .finish = a := by
    rw [modSlot_eq_setSlot, setSlotState_setSlot]
    rfl
  unfold drainFinish Act.on
  dsimp only
  rw [moved, a_stop]
  cases x.stop with
  | none => rfl
  | some f => cases f <;> rfl

theorem drainSink_eq (cause : StreamCause) :
    let x := s.slot n
    let y : Slot := { x with
      drain := true, drainCause := cause, strandDeadline := none, closeDeadline := some (s.now + 1000000000) }
    drainSink ⟨s, ps⟩ n cause =
      if x.expCell = 0 then closeSlot ⟨setSlot s n y, ps⟩ n cause true
      else if x.state = .halted ∧ x.cause = .drain then ⟨setSlot s n y, ps⟩ else movedSlot s ps n y .halted .drain := by
  intro x y
  have drains : s.modSlot n (fun x =>
      { x with drain := true, drainCause := cause, strandDeadline := none, closeDeadline := some (s.now + closeTime) }) =
      setSlot s n y := modSlot_eq_setSlot ..
  unfold drainSink Act.on
  dsimp only
  rw [drains, setSlotState_setSlot, slot_setSlot]

end drain

/-- What a LEAVE does to a slot. -/
def leaveSlot (a : Act) (n : SlotIx) : Act :=
  let x := a.s.slot n
  if x.role = .source then
    if isSettling x.state = true ∨ x.state = .stranded then drainFinish a n else a
  else if x.state = .offered then closeSlot a n .leaving false
  else if (x.state = .flowing ∨ x.state = .halted ∨ x.state = .stranded) ∧ x.drain = false then drainSink a n .leaving
  else a

theorem streamsLeave_eq (a : Act) : streamsLeave a = allSlots.foldl leaveSlot a := by
  unfold streamsLeave Act.each
  congr 1
  funext a n
  unfold leaveSlot
  dsimp only
  split
  case h_1 source =>
    rw [if_pos source]
    exact ite_congr (propext (by rw [Bool.or_eq_true, beq_iff_eq])) (fun _ => rfl) (fun _ => rfl)
  case h_2 sink =>
    have notSource : (a.s.slot n).role ≠ .source := fun source => Role.noConfusion (source.symm.trans sink)
    rw [if_neg notSource]
    refine ite_congr rfl (fun _ => rfl) (fun _ => ite_congr (propext ?_) (fun _ => rfl) (fun _ => rfl))
    simp only [Bool.or_eq_true, Bool.and_eq_true, beq_iff_eq, Bool.not_eq_true', or_assoc]

/-! ## RESUME_STREAM -/

section resume

theorem writeStop_finishRec (b : BitVec 32) (o : BlockOutcome) (x : Slot) : (finishRec b o x).writeStop = x.writeStop :=
  rfl

theorem writeStop_sendAck (s : State) (n : SlotIx) (b : BitVec 32) (o : BlockOutcome) :
    ((sendAck s n b o).slot n).writeStop = (s.slot n).writeStop := by
  unfold sendAck
  dsimp only
  cases route : s.route (s.slot n).peer with
  | some r =>
    rw [sendSlotCell_route route]
    rfl
  | none => rw [sendSlotCell_unknown route, slot_setSlot]

/-- The FAULTED blocks becoming DAMAGED leave a faulted write to be made again. -/
theorem writeStop_damaged (n : SlotIx) (blocks : List (BitVec 32)) : ∀ a : Act,
    ((blocks.foldl (damageFaulted n) a).s.slot n).writeStop = (a.s.slot n).writeStop := by
  induction blocks with
  | nil => exact fun _ => rfl
  | cons b blocks ih =>
    intro a
    rw [List.foldl_cons, ih]
    unfold damageFaulted Act.on
    dsimp only
    rw [writeStop_sendAck, slot_modSlot_same, writeStop_finishRec]

variable (a : Act) (n : SlotIx)

theorem resumeAccess_none (none : faultedBlocks (a.s.slot n) = []) :
    resumeAccess a n = retryFault (retryWrite a n) n := by
  unfold resumeAccess
  dsimp only
  rw [none, if_pos rfl, if_pos (.inr rfl)]
  rfl

variable (some : faultedBlocks (a.s.slot n) ≠ [])

include some

theorem resumeAccess_write (stopped : (a.s.slot n).writeStop = true) : resumeAccess a n =
    closeIfDrained (retryFault (retryWrite ((faultedBlocks (a.s.slot n)).foldl (damageFaulted n) a) n) n) n := by
  have still := (writeStop_damaged n (faultedBlocks (a.s.slot n)) a).trans stopped
  unfold resumeAccess Act.each
  dsimp only
  rw [if_neg some, if_pos (.inl still)]

theorem resumeAccess_held (going : (a.s.slot n).writeStop = false) : resumeAccess a n =
    closeIfDrained (retryFault (completeHeld ((faultedBlocks (a.s.slot n)).foldl (damageFaulted n) a) n).1 n) n := by
  have still := (writeStop_damaged n (faultedBlocks (a.s.slot n)) a).trans going
  unfold resumeAccess Act.each
  dsimp only
  rw [if_neg some, if_neg (by rw [still]; exact fun h => h.elim Bool.false_ne_true some)]

end resume

end Sys2Proof.SlotStates

/-! SUPPORT. CLOSE_STREAM (R138, R139), HALT_STREAM and RESUME_STREAM (R131) (O54). -/

namespace Sys2Proof.CloseHaltActs

open Sys2Proof Sys2Proof.Machine Sys2Proof.Statements Sys2Proof.PortUnits Sys2Proof.PortQueues Sys2Proof.OrderWindow
  Sys2Proof.StreamSlots Sys2Proof.StreamSlotTimers Sys2Proof.BlockRecords Sys2Proof.OpenActs Sys2Proof.SlotCloses
  Sys2Proof.SlotStates

/-! ## CLOSE_STREAM -/

section close

variable {s : State} {o : Order} {n : SlotIx}

theorem settled_iff (st : StreamState) : isSettling st = true ∨ st = .stranded ↔
    st = .armed ∨ st = .flowing ∨ st = .timeheld ∨ st = .halted ∨ st = .stranded := by
  cases st <;> decide

theorem finishSlot_wrong (wrong : (s.slot n).state = .closed ∨ (s.slot n).role = .sink ∨ (s.slot n).state = .draining ∨
    (s.slot n).state = .offered) : finishSlot ⟨s, []⟩ o n = complete ⟨s, []⟩ o.sequence .wrongState := by
  unfold finishSlot
  dsimp only
  rcases wrong with closed | sink | draining | offered
  · rw [closed]
    cases (s.slot n).role <;> rfl
  · rw [sink]
  · rw [draining]
    cases (s.slot n).role <;> rfl
  · rw [offered]
    cases (s.slot n).role <;> rfl

theorem finishSlot_opening (source : (s.slot n).role = .source) (opening : (s.slot n).state = .opening) :
    finishSlot ⟨s, []⟩ o n = complete (closeSlot ⟨s, []⟩ n .cancelled true .cancelled) o.sequence .done := by
  unfold finishSlot
  dsimp only
  rw [source, opening]
  exact congrArg (complete · o.sequence .done) (closeOpening_opening (a := ⟨s, []⟩) opening .cancelled .cancelled)

theorem finishSlot_drains (source : (s.slot n).role = .source)
    (settled : isSettling (s.slot n).state = true ∨ (s.slot n).state = .stranded) : finishSlot ⟨s, []⟩ o n =
      drainFinish ⟨setSlot (held s o) n { s.slot n with finishOrder := some o.sequence }, []⟩ n := by
  have holds : (holdOrder s o.sequence).modSlot n (fun x => { x with finishOrder := some o.sequence }) =
      setSlot (held s o) n { s.slot n with finishOrder := some o.sequence } := modSlot_eq_setSlot ..
  rw [← holds]
  unfold finishSlot Act.on
  dsimp only
  rw [source]
  rcases (settled_iff _).1 settled with st | st | st | st | st <;> rw [st]

theorem abortSlot_closed (closed : (s.slot n).state = .closed) :
    abortSlot ⟨s, []⟩ o n = complete ⟨s, []⟩ o.sequence .wrongState := by
  unfold abortSlot
  dsimp only
  rw [closed]

theorem abortSlot_opening (opening : (s.slot n).state = .opening) :
    abortSlot ⟨s, []⟩ o n = complete (closeSlot ⟨s, []⟩ n .cancelled true .cancelled) o.sequence .done := by
  unfold abortSlot
  dsimp only
  rw [opening]
  exact congrArg (complete · o.sequence .done) (closeOpening_opening (a := ⟨s, []⟩) opening .cancelled .cancelled)

theorem abortSlot_closes (notClosed : (s.slot n).state ≠ .closed) (notOpening : (s.slot n).state ≠ .opening) :
    abortSlot ⟨s, []⟩ o n = complete (closeSlot ⟨s, []⟩ n .closed true) o.sequence .done := by
  unfold abortSlot
  dsimp only
  split
  case h_1 closed => exact absurd closed notClosed
  case h_2 opening => exact absurd opening notOpening
  case h_3 => rfl

theorem closeOrder_noSlot (noSlot : 63 < streamSlotParameter o) :
    closeOrder ⟨s, []⟩ o = complete ⟨s, []⟩ o.sequence .badOrder 0 := if_pos noSlot

variable (slot : streamSlotParameter o = n.val)

include slot

theorem slotParameter_small : ¬ 63 < streamSlotParameter o := by
  have := n.isLt
  omega

theorem closeOrder_noMode (noMode : 1 < closeMode o) :
    closeOrder ⟨s, []⟩ o = complete ⟨s, []⟩ o.sequence .badOrder 1 :=
  (if_neg (slotParameter_small slot)).trans (if_pos noMode)

theorem closeOrder_finish (finish : closeMode o = 0) : closeOrder ⟨s, []⟩ o = finishSlot ⟨s, []⟩ o n := by
  unfold closeOrder
  dsimp only
  rw [if_neg (slotParameter_small slot), finish, if_neg (by decide), if_pos rfl, slotOf_val slot]

theorem closeOrder_abort (abort : closeMode o = 1) : closeOrder ⟨s, []⟩ o = abortSlot ⟨s, []⟩ o n := by
  unfold closeOrder
  dsimp only
  rw [if_neg (slotParameter_small slot), abort, if_neg (by decide), if_neg (by decide), slotOf_val slot]

end close

/-! ## HALT_STREAM and RESUME_STREAM -/

section halt

variable {s : State} {o : Order} {n : SlotIx}

/-- The slot is open: not CLOSED, OFFERED or OPENING. -/
abbrev Opened (x : Slot) : Prop := x.state ≠ .closed ∧ x.state ≠ .offered ∧ x.state ≠ .opening

theorem notOpened_iff (x : Slot) : notOpened x = true ↔ ¬ Opened x := by
  simp only [notOpened, Opened, Bool.or_eq_true, beq_iff_eq, ne_eq, ← not_or, Classical.not_not, or_assoc]

theorem haltOrder_noSlot (noSlot : 63 < streamSlotParameter o) :
    haltOrder ⟨s, []⟩ o = complete ⟨s, []⟩ o.sequence .badOrder 0 := if_pos noSlot

theorem resumeOrder_noSlot (noSlot : 63 < streamSlotParameter o) :
    resumeOrder ⟨s, []⟩ o = complete ⟨s, []⟩ o.sequence .badOrder 0 := if_pos noSlot

variable (slot : streamSlotParameter o = n.val)

include slot

theorem haltOrder_slot : haltOrder ⟨s, []⟩ o = if ¬ Opened (s.slot n) then complete ⟨s, []⟩ o.sequence .wrongState
    else if (s.slot n).selfHalt = true then complete ⟨s, []⟩ o.sequence .done
    else complete (settle ⟨sendHalt (setSlot s n { s.slot n with selfHalt := true, lastHalt := s.now }) n true, []⟩ n .halt)
      o.sequence .done := by
  have halts : s.modSlot n (fun x => { x with selfHalt := true, lastHalt := s.now }) =
      setSlot s n { s.slot n with selfHalt := true, lastHalt := s.now } := modSlot_eq_setSlot ..
  unfold haltOrder Act.on
  dsimp only
  rw [if_neg (slotParameter_small slot), slotOf_val slot, halts]
  exact ite_congr (propext (notOpened_iff _)) (fun _ => rfl) (fun _ => rfl)

theorem resumeOrder_slot : resumeOrder ⟨s, []⟩ o = if ¬ Opened (s.slot n) then complete ⟨s, []⟩ o.sequence .wrongState
    else if (s.slot n).selfHalt = false then complete ⟨s, []⟩ o.sequence .wrongState
    else complete (resumeAccess (settle ⟨sendHalt (setSlot s n { s.slot n with selfHalt := false }) n false, []⟩ n
      .resumed) n) o.sequence .done := by
  have resumes : s.modSlot n (fun x => { x with selfHalt := false }) =
      setSlot s n { s.slot n with selfHalt := false } := modSlot_eq_setSlot ..
  unfold resumeOrder Act.on
  dsimp only
  rw [if_neg (slotParameter_small slot), slotOf_val slot, resumes]
  exact ite_congr (propext (notOpened_iff _)) (fun _ => rfl) (fun _ => rfl)

end halt

/-- Settles O54, from one lemma for each order by slot state, and for each step of a close and of a drain. -/
theorem closeHaltResume : Obligations.CloseHaltResume := by
  unfold Obligations.CloseHaltResume
  refine ⟨fun s o oldest => ?closes, fun s o oldest => ?halts, fun s o oldest => ?resumes,
    fun a n cause sends outcome => closeSlot_leaves a.s a.posts n cause sends outcome,
    fun s ps n cause sends outcome => closeSlot_eq s ps n cause sends outcome,
    fun s n reason => ⟨sendClose_unknown s n, fun r => sendClose_route s n⟩,
    fun s ps n outcome cause => ?orders, fun s ps n cause => ?settles, drainFinish_eq, drainSink_eq, fun a n => ?access,
    streamsLeave_eq, fun s x => ⟨settledState_source, settledState_sink⟩⟩
  case closes =>
    have ends {a : Act} (act : closeOrder ⟨s, []⟩ o = a) : Ends .closeStream s a := ends_order rfl oldest act
    intro opening
    refine ⟨fun noSlot => ends (closeOrder_noSlot noSlot), fun n slot => ⟨fun noMode => ends (closeOrder_noMode slot noMode),
      fun finish => ?_, fun abort => ?_⟩⟩
    · have finishes := closeOrder_finish (s := s) slot finish
      exact ⟨fun wrong => ends (finishes.trans (finishSlot_wrong wrong)),
        fun source opens => ends (finishes.trans (finishSlot_opening source opens)),
        fun source settled => ends (finishes.trans (finishSlot_drains source settled))⟩
    · have aborts := closeOrder_abort (s := s) slot abort
      exact ⟨fun closed => ends (aborts.trans (abortSlot_closed closed)),
        fun opens => ends (aborts.trans (abortSlot_opening opens)),
        fun notClosed notOpening => ends (aborts.trans (abortSlot_closes notClosed notOpening))⟩
  case halts =>
    have ends {a : Act} (act : haltOrder ⟨s, []⟩ o = a) : Ends .haltStream s a := ends_order rfl oldest act
    refine ⟨fun noSlot => ends (haltOrder_noSlot noSlot), fun n slot => ?_⟩
    have order := haltOrder_slot (s := s) slot
    exact ⟨fun wrong => ends (order.trans (if_pos wrong)),
      fun opened halted => ends (order.trans ((if_neg (not_not_intro opened)).trans (if_pos halted))),
      fun opened runs => ends (order.trans ((if_neg (not_not_intro opened)).trans (if_neg (by rw [runs]; decide))))⟩
  case resumes =>
    have ends {a : Act} (act : resumeOrder ⟨s, []⟩ o = a) : Ends .resumeStream s a := ends_order rfl oldest act
    refine ⟨fun noSlot => ends (resumeOrder_noSlot noSlot), fun n slot => ?_⟩
    have order := resumeOrder_slot (s := s) slot
    refine ⟨fun wrong => ends (order.trans ?_), fun opened halted =>
      ends (order.trans ((if_neg (not_not_intro opened)).trans (if_neg (by rw [halted]; decide))))⟩
    by_cases opened : Opened (s.slot n)
    · exact (if_neg (not_not_intro opened)).trans (if_pos (wrong.resolve_left (not_not_intro opened)))
    · exact if_pos opened
  case orders =>
    intro x a b
    have b_eq : b = x.openOrder.elim a (fun q => complete a q outcome) := by
      show (match x.openOrder with | some q => complete a q outcome | none => a) = _
      cases x.openOrder <;> rfl
    refine (completeSlotOrders_eq s ps n cause outcome).trans ?_
    show x.finishOrder.elim (x.openOrder.elim a (fun q => complete a q outcome)) _ = _
    rw [← b_eq]
    cases x.finishOrder <;> rfl
  case settles =>
    intro x judged opened takes
    have judges {y : Slot} (same : judgedSlot s x = y) : takes y := same ▸ takes_judged s ps n cause
    exact ⟨fun not => judges (judgedSlot_not not), fun isJudged gate => judges (judgedSlot_now isJudged gate),
      fun t isJudged gate => ⟨fun there => judges (judgedSlot_reached isJudged gate there),
        fun early => judges (judgedSlot_early isJudged gate early)⟩,
      fun k isJudged gate => judges (judgedSlot_lane isJudged gate)⟩
  case access =>
    intro blocks damaged written read
    have write (a : Act) : retryWrite a n = written a := retryWrite_eq a n
    refine ⟨fun none => ?_, fun some stopped => ?_, fun some going => resumeAccess_held a n some going⟩
    · rw [resumeAccess_none a n none, write] <;> rfl
    · rw [resumeAccess_write a n some stopped, write] <;> rfl

end Sys2Proof.CloseHaltActs
